-- ==== Sys2Proof/Word.lean ====
section
/-!
DEFINITION. The words of the device: bytes, half words, register words, scalar words and instruction
words, and the plainest arithmetic on them. Multi-byte values are little-endian (R10).
-/

namespace Sys2Proof

/-- A byte of any memory of the device. -/
abbrev Byte := BitVec 8

/-- A 32-bit word: a register of a page, an FP32 or INT32 element. -/
abbrev Word := BitVec 32

/-- A 64-bit word: a scalar register, an instruction word, a counter pair. -/
abbrev DWord := BitVec 64

/-- A numeric flag word, laid out as R93 states. -/
abbrev Flg := BitVec 8

/-- Little-endian value of a list of bytes (R10). -/
def leNat : List Byte → Nat
  | [] => 0
  | b :: bs => b.toNat + 256 * leNat bs

/-- The `n` little-endian bytes of a number, its higher bits dropped (R10). -/
def leBytes : Nat → Nat → List Byte
  | 0, _ => []
  | n + 1, v => BitVec.ofNat 8 v :: leBytes n (v / 256)

end Sys2Proof
end

