-- ==== Sys2Proof/Syntax.lean ====
section
/-!
DEFINITION. The commands of the block: `Instr`, one constructor for each row of the table of operations, with the
operands of the row. A command is an instruction issued by a stream, a ring command applied, a packet or frame that arrives,
a register access, a slot of a calendar, a timer, a pin, a sensor reading.
-/

namespace Sys2Proof

/-- The fifteen number formats of R85. -/
inductive Fmt
  | fp32 | fp19 | bf16 | fp16 | e4m3 | e5m2 | e3m2 | e2m3 | e2m1 | e8m0
  | int32 | int16 | int8 | uint8 | int4
deriving DecidableEq, Repr

/-- The rounding modes of R95. -/
inductive RMode
  | rne | rtz | seed
deriving DecidableEq, Repr

/-- The three streams of a control core (R177). -/
inductive Stream
  | f | b | u
deriving DecidableEq, Repr

/-- Stream codes of R70: 1 F, 2 B, 3 U. -/
def Stream.codeNat : Stream → Nat
  | .f => 1
  | .b => 2
  | .u => 3

/-! ### Instruction words (R182, R208, R218, R229, R230)

One record per field map. Fields keep the widths of the map; reserved bits have no field. -/

/-- Format R of R182. -/
structure FmtR where
  sd : BitVec 6
  sa : BitVec 6
  sb : BitVec 6
  sc : BitVec 6
  imm : BitVec 32
deriving DecidableEq, Repr

/-- Format I of R182. -/
structure FmtI where
  sd : BitVec 6
  sa : BitVec 6
  imm : BitVec 44
deriving DecidableEq, Repr

/-- Format L of R182. -/
structure FmtL where
  sd : BitVec 6
  count : BitVec 24
  body : BitVec 16
deriving DecidableEq, Repr

/-- Format P of R182. -/
structure FmtP where
  pd : BitVec 3
  pa : BitVec 3
  pb : BitVec 3
  sd : BitVec 6
  sa : BitVec 6
  imm : BitVec 32
deriving DecidableEq, Repr

/-- Format C of R182. -/
structure FmtC where
  ctr : BitVec 12
  cond : BitVec 3
  immf : Bool
  val : BitVec 24
  tmo : BitVec 16
deriving DecidableEq, Repr

/-- Format S of R182. -/
structure FmtS where
  ctr : BitVec 12
  vx : BitVec 3
  vy : BitVec 4
  immf : Bool
  val : BitVec 24
deriving DecidableEq, Repr

/-- Format H of R182. -/
structure FmtH where
  cls : BitVec 4
  lead : BitVec 8
deriving DecidableEq, Repr

/-- Format M of R182. -/
structure FmtM where
  sa : BitVec 6
  sb : BitVec 6
  ctrR : BitVec 12
  ctrD : BitVec 12
  enR : Bool
  enD : Bool
  len : BitVec 18
deriving DecidableEq, Repr

/-- MLOAD of R208. `k1` is K - 1 and `n1` is N - 1. -/
structure FmtMload where
  eng : BitVec 2
  sa : BitVec 6
  sb : BitVec 6
  sc : BitVec 6
  fmt : BitVec 4
  mx : Bool
  pieces : BitVec 2
  k1 : BitVec 8
  n1 : BitVec 6
deriving DecidableEq, Repr

/-- MSTR and MSTRT of R208. -/
structure FmtMstr where
  eng : BitVec 2
  sa : BitVec 6
  sb : BitVec 6
  sc : BitVec 6
  fmtA : BitVec 4
  mxA : Bool
  fmtS : BitVec 4
  mxS : Bool
  tile : BitVec 3
  begin : Bool
  m1 : BitVec 11
  n1 : BitVec 6
  pieces : BitVec 2
deriving DecidableEq, Repr

/-- MDRAIN of R208. -/
structure FmtMdrain where
  eng : BitVec 2
  sa : BitVec 6
  sb : BitVec 6
  sc : BitVec 6
  tile : BitVec 3
  r1 : BitVec 8
  n1 : BitVec 6
  fmt : BitVec 4
  mx : Bool
  rmode : BitVec 2
  sat : Bool
  rule : Bool
  sd : BitVec 6
deriving DecidableEq, Repr

/-- MEW of R208. -/
structure FmtMew where
  eng : BitVec 2
  sa : BitVec 6
  sb : BitVec 6
  sc : BitVec 6
  fmtA : BitVec 4
  fmtB : BitVec 4
  l1 : BitVec 16
deriving DecidableEq, Repr

/-- Map V of R218. -/
structure FmtV where
  vd : BitVec 5
  va : BitVec 5
  vb : BitVec 5
  vc : BitVec 5
  pr : BitVec 3
  zero : Bool
  g : BitVec 2
  mode : BitVec 2
  scb : Bool
  ss : BitVec 6
  opx : BitVec 21
deriving DecidableEq, Repr

/-- Map VM of R218. -/
structure FmtVM where
  vr : BitVec 5
  sa : BitVec 6
  fmt : BitVec 4
  pr : BitVec 3
  zero : Bool
  g : BitVec 2
  mode : BitVec 2
  rmode : BitVec 2
  sat : Bool
  rule : Bool
  mx : Bool
  ssc : BitVec 6
  sti : BitVec 6
  six : BitVec 6
deriving DecidableEq, Repr

/-- Map VB of R218. -/
structure FmtVB where
  vr : BitVec 5
  sa : BitVec 6
  sn : BitVec 6
  scap : BitVec 6
  sov : BitVec 6
  pr : BitVec 3
  g : BitVec 2
  mode : BitVec 2
deriving DecidableEq, Repr

/-- FLAGS of R229. -/
structure FmtFlags where
  sd : BitVec 6
  mask : BitVec 8
deriving DecidableEq, Repr

/-- VSTAT of R230. -/
structure FmtVstat where
  sel : BitVec 3
  sa : BitVec 6
deriving DecidableEq, Repr

/-- An instruction of a control core, by opcode, with the fields of its map. -/
inductive IsaOp
  | nop | stend | jobend | commit
  | slotpat (x : FmtI) | loop (x : FmtL) | rdspec (x : FmtI)
  | add (x : FmtR) | sub (x : FmtR) | mul (x : FmtR) | and (x : FmtR) | or (x : FmtR) | xor (x : FmtR)
  | shl (x : FmtR) | shr (x : FmtR) | sra (x : FmtR) | min (x : FmtR) | max (x : FmtR)
  | minu (x : FmtR) | maxu (x : FmtR) | cmp (x : FmtR) | sel (x : FmtR)
  | li (x : FmtI) | lih (x : FmtI) | lds (x : FmtI) | sts (x : FmtI)
  | pand (x : FmtP) | por (x : FmtP) | pxor (x : FmtP) | pandn (x : FmtP) | pfirst (x : FmtP) | pcnt (x : FmtP)
  | scadd (x : FmtC) | scsub (x : FmtC) | wait (x : FmtC) | signal (x : FmtS) | hint (x : FmtH)
  | mcopy (x : FmtM) | calarm (x : FmtM) | gather (x : FmtM) | scatter (x : FmtM)
  | nsend (x : FmtM) | nrecv (x : FmtM) | ncoll (x : FmtM)
  | mload (x : FmtMload) | mstr (x : FmtMstr) | mstrt (x : FmtMstr) | mdrain (x : FmtMdrain) | mew (x : FmtMew)
  | vadd (x : FmtV) | vsub (x : FmtV) | vmul (x : FmtV) | vfma (x : FmtV) | vmin (x : FmtV) | vmax (x : FmtV)
  | vcmp (x : FmtV) | vsel (x : FmtV) | vand (x : FmtV) | vor (x : FmtV) | vxor (x : FmtV)
  | vshl (x : FmtV) | vshr (x : FmtV) | vsra (x : FmtV) | vsgn (x : FmtV) | vcvt (x : FmtV) | vrnd (x : FmtV)
  | vtr (x : FmtV) | vred (x : FmtV) | vcpr (x : FmtV) | vxpd (x : FmtV)
  | vcpst (x : FmtVB) | vxpld (x : FmtVB) | vld (x : FmtVM) | vst (x : FmtVM)
  | flags (x : FmtFlags) | vstat (x : FmtVstat)
deriving DecidableEq, Repr

/-! ### Operands of the other commands -/

/-- A compare point of the lockstep pair in a cycle (R174): its code, the low words of the item in the two copies, and whether the items
differ. -/
structure LockItem where
  point : BitVec 4
  copy0 : Word
  copy1 : Word
  differs : Bool
deriving DecidableEq, Repr

/-- A block of a matrix instruction as a fault leaves it (R152, R153): streamed row, output (element of MEW), block, split pass; what the fault
adds to s × 2^24 + g, and, of a block that is not finite, the class code of the array's sum. -/
structure BlockErr where
  row : Nat
  out : Nat
  block : Nat
  pass : Nat
  delta : Int
  cls : Nat
deriving DecidableEq, Repr

/-- A hardware check that fires on an instruction (R154, R155, R175, R179, R181, R378, R379). Values a checker saw come from
outside the model; the value the device uses is the model's. -/
inductive Upset
  /-- The fetched word fails parity and issues as NOP (R181). -/
  | istoreParity
  /-- What the lockstep compare saw in a cycle within the stroke (R174, R175). -/
  | lockstep (cycle : Word) (items : List LockItem)
  /-- Blocks whose sum or product comes out of the array with an error, or is read by an assay (R152, R155, R385). -/
  | residue (errs : List BlockErr)
  /-- The two copies of rounding and accumulate differ (R154): the block's place and the low words of the copies. -/
  | meDup (tile : BitVec 3) (row : BitVec 8) (col : BitVec 6) (copy0 copy1 : Word)
  /-- Parity of a tile or of the stationary registers (R154). -/
  | meParity (tile : BitVec 3)
  /-- Parity of a vector register read (R179). -/
  | veParity (vreg : BitVec 5) (word : BitVec 6)
  /-- The shadow lane differs on `count` elements; the first of them (R378). -/
  | veDup (count : Nat) (reg : BitVec 3) (half : Bool) (laneVal shadowVal : Word) (laneFlags shadowFlags : BitVec 8)
  /-- Data-path parity or duplicate logic (R379): site and granule. -/
  | dataPath (site : BitVec 3) (granule : BitVec 19)
deriving DecidableEq, Repr

/-- The issue of an instruction: the virtual position v = vy × 8 + vx, the stream, the check that fires on it, if any, and what the device
measures of its stalls (R254): cycles for which the issue was held for a register result and for a full queue, and cycles by which banks
deferred its accesses. -/
structure Iss where
  v : Fin 128
  st : Stream
  upset : Option Upset
  regWait : Nat
  queueWait : Nat
  bankWait : Nat
deriving DecidableEq, Repr

/-- The three access paths to the register pages (R463, R471). -/
inductive Path
  /-- The host, through BAR0. -/
  | pcie
  /-- The management processor. -/
  | mss
  /-- The firmware's handling of MCTP. -/
  | mctp
deriving DecidableEq, Repr

/-- An Igsum packet: the header of R298 and the payload. -/
structure Pkt where
  ver : Nat
  typ : Nat
  flags : BitVec 8
  len : Nat
  flow : Nat
  src : Nat
  epoch : Word
  hmf : Word
  seq : Word
  coll : Word
  tree : Word
  ofs : Nat
  step : Word
  crc : Word
  payload : List Byte
deriving DecidableEq, Repr

/-- A frame that has reached a port (R296, R301, R305): its number in the preamble, whether its FCS holds, its Ethernet, IP and UDP headers
as bytes, and the packet that the datagram carries. -/
structure Rx where
  port : Fin 64
  frame : Nat
  fcsOk : Bool
  hdr : List Byte
  pkt : Pkt
deriving DecidableEq, Repr

/-- A ticket the program image gives a core (R267): position, number, tier, direction, address, codewords or stripes. -/
structure TicketEnt where
  v : Nat
  num : Nat
  bulk : Bool
  write : Bool
  addr : Nat
  len : Nat
deriving DecidableEq, Repr

/-- A narrow-path table the program image gives a core (R277). -/
structure NarrowEnt where
  v : Nat
  num : Nat
  base : Nat
  grains : Nat
  rows : Nat
deriving DecidableEq, Repr

/-- What the loader places at no address this manual names: the parts of the program image that no register, window or store
holds (R56, R69, R181, R233, R244, R266, R267, R277). -/
structure ImageInfo where
  /-- The image's stroke length exponent. -/
  strokeN : Nat
  /-- First word index of streams F, B and U of each position. -/
  entries : List (Nat × Nat × Nat × Nat)
  /-- Slot pattern of stroke 0 of each position. -/
  slots : List (Nat × BitVec 16)
  tickets : List TicketEnt
  narrow : List NarrowEnt
  /-- Calendar words of the bulk channels: key 16,384 k + word index. -/
  bulkCal : List (Nat × Word)
  /-- Channel, segment, first word in its calendar memory. -/
  segs : List (Nat × Nat × Nat)
  /-- Segment of each stroke, in a repeating sequence. -/
  seqTab : List Nat
  ldtBuilt : Nat
deriving DecidableEq, Repr

/-- What a command entry refers to in host memory, as the device reads it. -/
structure HostRefs where
  /-- Job block (R447), epoch block (R448) or load descriptor header (R356). -/
  block : List Byte
  /-- REPLICA_TABLE: replica of each member (R348). -/
  replicas : List Nat
  image : ImageInfo
  /-- Settings block without its bitmap (R457). -/
  settings : List Byte
  /-- Exclusion set of an epoch (R448). -/
  excl : List Nat
  /-- Member-table replacements: member, address bytes (R448). -/
  members : List (Nat × List Byte)
  /-- Twin list: member, twin, fallback twin (R448). -/
  twins : List (Nat × Nat × Nat)
  /-- Epoch image (R449), or a firmware image. -/
  data : List Byte
  /-- Chunk directory of a load, 16 bytes a chunk (R357). -/
  dir : List Byte
  /-- Distribution table of a load, 32 bytes a member index (R358). -/
  tree : List Byte
  /-- Swage table entries, 64 bytes each (R361). -/
  swage : List (List Byte)
  /-- This member's entry of the key table, 384 bytes (R365). -/
  key : List Byte
deriving DecidableEq, Repr

/-- A command-ring entry: its 64 bytes (R443) and what it refers to. -/
structure RingEntry where
  raw : List Byte
  refs : HostRefs
deriving DecidableEq, Repr

/-- What the device measures over a stroke and at its boundary. -/
structure BoundaryObs where
  /-- Cycles by which the stroke overran (R72). -/
  extra : Nat
  /-- Cycles the boundary waited for a core under PAUSE (R394). -/
  pause : Nat
  /-- Cycles the boundary is held at order 4, at order 6 for an epoch (R324, R335, R345, R501). -/
  hold : Nat
  epochWait : Nat
  /-- Duration of the stroke, and delayed time in it but for release ramps, in ns (R406, R416). -/
  durNs : Nat
  stretchNs : Nat
  /-- Producer index of the command ring, as sampled at order 10 (R64). -/
  prodIdx : Nat
  /-- Matrix engines that left planish in one cycle, for each such cycle of the stroke (R81). -/
  releases : List Nat
  /-- Cycles for which an idle engine planished (R79, R157): core, engine, cycles. -/
  idle : List (Nat × Nat × Nat)
deriving DecidableEq, Repr

/-- What BOOT meets before training (R432): rail faults, and the probe results of ME_PROBE as they come. -/
structure BootObs where
  /-- STRAP_RCV as sampled (R491). -/
  strapRcv : Bool
  /-- PMBus STATUS_WORD of a rail fault in stage 2. -/
  railFault : Option Word
deriving DecidableEq, Repr

/-- The skew probe's results on the four engines of a core, each as a word of ME_PROBE (R150, R151). -/
structure Probes where
  me0 : Word
  me1 : Word
  me2 : Word
  me3 : Word
deriving DecidableEq, Repr

/-- One pack run of a burnish test (R390): the pack, the digest of its outputs, whether a class-0x06 event was raised, the results
of the skew probe that a full pack runs, and what the firmware records of a fault that the pack has localised (R149): the engine,
whether the axis is that of the columns, and the logical row or column. -/
structure PackRun where
  pack : Nat
  digest : List Byte
  event : Bool
  probes : Probes
  repairs : List (Fin 4 × Bool × Fin 64)
deriving DecidableEq, Repr

/-- How a codeword comes back from a memory (R275, R276): the bytes that came back wrong, each with the bits that differ. Places 0
to 63 are the data, 64 to 71 the side-band bytes; of a stripe of the bulk tier, codeword w has places 72 w and up. -/
abbrev ReadErr := List (Nat × Byte)

/-- A check on planish filler work (R155): the block's place and values. -/
structure FillerObs where
  cls : Bool
  row : BitVec 8
  col : BitVec 6
  lane : BitVec 2
  trans : Bool
  split : Bool
  block : Word
  observed : BitVec 31
  predicted : BitVec 31
deriving DecidableEq, Repr

/-- A power-rail telemetry reading (R405): VDD_CORE millivolts and milliamperes. -/
structure AvsObs where
  mv : Nat
  ma : Nat
  /-- Nanoseconds to the next sample (R406). -/
  ns : Nat
deriving DecidableEq, Repr

/-- An edge on the JTAG port (R494). -/
inductive JtagEdge
  | tck (tms tdi : Bool)
  | trst
deriving DecidableEq, Repr

/-- An MCTP message the firmware handles (R436, R463, R451, R458). -/
inductive MctpMsg
  | regRead (off : Nat)
  | regWrite (off : Nat) (v : Word)
  | fwUpdate (image : List Byte)
  | other
deriving DecidableEq, Repr

/-- How an MCTP packet arrives (R436): by PCIe VDM, or in a UDP datagram from a peer address to a port. -/
inductive MctpVia
  | vdm
  | eth (peer : Word) (udpPort : Nat)
deriving DecidableEq, Repr

/-- An address asked for by ARP or by neighbour solicitation (R296). -/
inductive AskAddr
  | ip4 (a : Word)
  | ip6 (a : BitVec 128)
deriving DecidableEq, Repr

/-- The end of a hold: for how many cycles it lasted (R201, R254, R474), and what goes wrong at it. -/
structure HoldObs where
  cycles : Nat
  upset : Option Upset
deriving DecidableEq, Repr

/-- What a slot meets: for how many cycles it is held (R270), and how its codeword comes back. -/
structure SlotObs where
  held : Nat
  err : ReadErr
deriving DecidableEq, Repr

/-- What failed the training of the memories (R290): pseudo-channels and bulk channels. -/
structure TrainObs where
  pcs : List (Fin 384)
  bulk : List (Fin 12)
deriving DecidableEq, Repr

/-- What a requester offers (R454): whether the algorithms are among it, and its request as it came. -/
structure AlgOffer where
  rsa3072 : Bool
  sha256 : Bool
  req : List Byte
deriving DecidableEq, Repr

/-- What a challenge asks for (R454): the kind of its measurement summary, and its nonce. -/
structure ChallengeReq where
  kind : Nat
  nonce : List Byte
deriving DecidableEq, Repr

/-- A class of stall of R254. -/
inductive StallClass
  | read | write | bank | reg | queue
deriving DecidableEq, Repr

/-- The commands of the block: one constructor for each row of the table of operations, in its order. -/
inductive Instr
  | nop (i : Iss)
  | stend (i : Iss)
  | jobend (i : Iss)
  | commit (i : Iss)
  | slotpat (i : Iss) (x : FmtI)
  | loop (i : Iss) (x : FmtL)
  | rdspec (i : Iss) (x : FmtI)
  | add (i : Iss) (x : FmtR)
  | sub (i : Iss) (x : FmtR)
  | mul (i : Iss) (x : FmtR)
  | and (i : Iss) (x : FmtR)
  | or (i : Iss) (x : FmtR)
  | xor (i : Iss) (x : FmtR)
  | shl (i : Iss) (x : FmtR)
  | shr (i : Iss) (x : FmtR)
  | sra (i : Iss) (x : FmtR)
  | min (i : Iss) (x : FmtR)
  | max (i : Iss) (x : FmtR)
  | minu (i : Iss) (x : FmtR)
  | maxu (i : Iss) (x : FmtR)
  | cmp (i : Iss) (x : FmtR)
  | sel (i : Iss) (x : FmtR)
  | li (i : Iss) (x : FmtI)
  | lih (i : Iss) (x : FmtI)
  | lds (i : Iss) (x : FmtI)
  | sts (i : Iss) (x : FmtI)
  | pand (i : Iss) (x : FmtP)
  | por (i : Iss) (x : FmtP)
  | pxor (i : Iss) (x : FmtP)
  | pandn (i : Iss) (x : FmtP)
  | pfirst (i : Iss) (x : FmtP)
  | pcnt (i : Iss) (x : FmtP)
  | scadd (i : Iss) (x : FmtC)
  | scsub (i : Iss) (x : FmtC)
  | wait (i : Iss) (x : FmtC)
  | waitSatisfied (v : Fin 128) (st : Stream) (h : HoldObs)
  | waitTimeout (v : Fin 128) (st : Stream)
  | signal (i : Iss) (x : FmtS)
  | hint (i : Iss) (x : FmtH)
  | mcopy (i : Iss) (x : FmtM)
  | ondieTransferLanding (k : Nat) (h : HoldObs)
  | calarm (i : Iss) (x : FmtM)
  | gather (i : Iss) (x : FmtM)
  | scatter (i : Iss) (x : FmtM)
  | nsend (i : Iss) (x : FmtM)
  | nrecv (i : Iss) (x : FmtM)
  | ncoll (i : Iss) (x : FmtM)
  | mload (i : Iss) (x : FmtMload)
  | mstr (i : Iss) (x : FmtMstr)
  | mstrt (i : Iss) (x : FmtMstr)
  | mdrain (i : Iss) (x : FmtMdrain)
  | mew (i : Iss) (x : FmtMew)
  | vadd (i : Iss) (x : FmtV)
  | vsub (i : Iss) (x : FmtV)
  | vmul (i : Iss) (x : FmtV)
  | vfma (i : Iss) (x : FmtV)
  | vmin (i : Iss) (x : FmtV)
  | vmax (i : Iss) (x : FmtV)
  | vcmp (i : Iss) (x : FmtV)
  | vsel (i : Iss) (x : FmtV)
  | vand (i : Iss) (x : FmtV)
  | vor (i : Iss) (x : FmtV)
  | vxor (i : Iss) (x : FmtV)
  | vshl (i : Iss) (x : FmtV)
  | vshr (i : Iss) (x : FmtV)
  | vsra (i : Iss) (x : FmtV)
  | vsgn (i : Iss) (x : FmtV)
  | vcvt (i : Iss) (x : FmtV)
  | vrnd (i : Iss) (x : FmtV)
  | vtr (i : Iss) (x : FmtV)
  | vred (i : Iss) (x : FmtV)
  | vcpr (i : Iss) (x : FmtV)
  | vxpd (i : Iss) (x : FmtV)
  | vcpst (i : Iss) (x : FmtVB)
  | vxpld (i : Iss) (x : FmtVB)
  | vld (i : Iss) (x : FmtVM)
  | vst (i : Iss) (x : FmtVM)
  | flags (i : Iss) (x : FmtFlags)
  | vstat (i : Iss) (x : FmtVstat)
  | fetchBeyondStore (v : Fin 128) (st : Stream)
  | interlockRelease (v : Fin 128) (k : Nat) (h : HoldObs) (cls : StallClass)
  | strokeEndReached
  | stretchMaxExpiry
  | strokeBoundary (b : BoundaryObs)
  | jobStart (e : RingEntry)
  | abort (e : RingEntry)
  | setCap (e : RingEntry)
  | setSetting (e : RingEntry)
  | epoch (e : RingEntry)
  | loadWeights (e : RingEntry)
  | stage (e : RingEntry)
  | unseal (e : RingEntry)
  | retrain (e : RingEntry)
  | burnishRun (e : RingEntry)
  | standby (e : RingEntry)
  | fwUpdate (e : RingEntry)
  | svnAdvance (e : RingEntry)
  | wallNote (e : RingEntry)
  | commandFetchArrival (e : RingEntry)
  | stageComplete (tag : Word) (data : List Byte)
  | burnishTestComplete (p : Fin 144) (runs : List PackRun)
  | burnishDue (p : Fin 144)
  | deferMaxExpiry (p : Fin 144)
  | pauseSliceEnd (p : Fin 144)
  | rotationCopyComplete (f : Fin 4)
  | packImageInstall (image : List Byte)
  | assayLimitReached
  | drainComplete
  | drainLimitExpiry
  | epochDrainComplete
  | epochDrainTimeout
  | twinRestoreComplete (digest : List Byte)
  | igsumDataPacket (r : Rx)
  | contribPacket (r : Rx)
  | resultPacket (r : Rx)
  | ack (r : Rx)
  | nack (r : Rx)
  | report (r : Rx)
  | decision (r : Rx)
  | vote (r : Rx)
  | verdict (r : Rx)
  | withdraw (r : Rx)
  | reportAgain (r : Rx)
  | hello (r : Rx)
  | heartbeat (r : Rx)
  | pace (r : Rx)
  | blame (r : Rx)
  | loadChunkPacket (r : Rx)
  | loadComplete (id : Word)
  | loadStallTimeout (id : Word)
  | linkRetryRequest (q : Fin 64) (frame : Nat)
  | linkReplayTimeout (q : Fin 64) (frame : Nat)
  | resendTimeout (fl : Fin 4096) (seq : Word)
  | ackTimer (fl : Fin 4096)
  | heartbeatTimer
  | peerSilentTimeout (m : Fin 8192) (ms : Nat)
  | collectiveDeadline (coll : Word) (seg : Nat) (late : Bool)
  | backupTakeover (coll : Word) (seg : Nat)
  | resultSegmentTimeout (coll : Word) (seg : Nat)
  | voteDeadline
  | verdictTakeover
  | verdictResend
  | blameTallyTimer (suspect : Fin 8192)
  | paceResend
  | paceHoldExpiry (sender : Fin 8192)
  | arpRequest (q : Fin 64) (a : AskAddr)
  | pfcPauseFrame (q : Fin 64) (tc : Fin 4) (pause : Bool)
  | laneFailure (lane : Fin 132)
  | laneFecCheck (lane : Fin 132) (uncorr corr : Nat)
  | laneRetrainDone (q : Fin 64)
  | portLinkUp (q : Fin 64) (ok llr : Bool)
  | calendarDataSlot (ch : Fin 396) (x : SlotObs)
  | calendarReadDelivery (k : Nat) (h : HoldObs)
  | refreshReserveSlot (p : Fin 384) (f : Nat) (k : Fin 4) (err : ReadErr)
  | narrowSlot (p : Fin 384) (f : Nat) (v : Fin 128) (t : Fin 64) (x : SlotObs)
  | migrationComplete (l : Fin 384)
  | pseudoChannelLoss (p : Fin 384)
  | bulkChannelFailure (ch : Fin 12)
  | hbmTemperatureRead (k : Fin 12) (temp : BitVec 8)
  | powerSample (a : AvsObs)
  | pmbusPoll (mw ns : Nat) (status : Word)
  | avsbusTelemetryTimeout
  | droopDetect (f : Fin 4)
  | vrAlertN (asserted : Bool) (amps : Nat)
  | stretchRelease
  | slackCritical (f : Fin 4)
  | annealWindow (code : BitVec 6)
  | annealHoldExpiry
  | junctionSensorRead (tj : BitVec 8) (f : Fin 4) (sensor : Fin 16)
  | thermtripTimeout
  | pgWarnN
  | powerOnReset (b : BootObs)
  | resetAssert (pwrgood : Bool) (lowNs : Nat)
  | perst
  | pcieHotReset
  | functionLevelReset
  | sensorTimeout (bus : BitVec 4) (addr : BitVec 10)
  | wakeComplete
  | mctpWakeCommand
  | mctpPacket (via : MctpVia) (m : MctpMsg)
  | getVersion
  | getCapabilities
  | negotiateAlgorithms (offer : AlgOffer) (caps : List Byte)
  | getDigests
  | getCertificate (slot : Fin 8) (off len : Nat)
  | challenge (slot : Fin 8) (c : ChallengeReq)
  | getMeasurements (idx : Nat) (signed : Bool) (nonce : List Byte)
  | bar2Write (off : Nat) (data : List Byte)
  | bar2Read (off len : Nat)
  | evtClear (p : Path) (page : Nat) (bits : Word)
  | cntClr (p : Path) (page : Nat)
  | evtForce (p : Path) (page : Nat) (bits : Word)
  | lockSet (p : Path) (page : Nat)
  | lockClear (p : Path) (page : Nat)
  | pciWake (p : Path)
  | pciRecoveryGo (p : Path)
  | asyClr (p : Path)
  | hbmPcClr (p : Path) (k : Fin 12) (bits : Word)
  | mssWallHiWrite (p : Path) (v : Word)
  | pwrCapWrite (p : Path) (v : Word)
  | stkLedgerCiWrite (p : Path) (v : Word)
  | pciCplCiWrite (p : Path) (v : Word)
  | pciRingCfgWrite (p : Path) (v : Word)
  | logCfgWrite (p : Path) (v : Word)
  | logCiWrite (p : Path) (v : Word)
  | registerLoRead (p : Path) (off : Nat)
  | registerWrite (p : Path) (off : Nat) (v : Word) (enables : BitVec 4)
  | memoryTrainingComplete (bad : TrainObs) (found : List Byte)
  | firmwareWriteComplete
  | standbyEntryComplete
  | sendRateRise (fl : Fin 4096)
  | nackBackoffExpiry (fl : Fin 4096) (seq : Word)
  | fillerResidueMismatch (p : Fin 144) (e : Fin 4) (o : FillerObs)
  | jtagTck (e : JtagEdge)
  | replayRecordArrival (record : List Byte)
  | storedChunkRead (id : Word) (chunk : Nat) (data : List Byte)
deriving DecidableEq, Repr

end Sys2Proof
end

