-- ==== Sys2Proof/Config.lean ====
section
/-!
DEFINITION. What the manual leaves to the part or to a standard it only names, as constants without a body: no proof
can see a value of them, so a statement holds whatever they are.
-/

namespace Sys2Proof

/-- The fused firmware signing key (R450, R390): modulus and public exponent. No rule gives it (log entry 4). -/
opaque Config.firmwareKey : Nat × Nat

/-- The touchmark signing key and the touchmark wrapping key (R453): modulus and secret exponent. Neither leaves the SEC block (log
entry 4). -/
opaque Config.signingKey : Nat × Nat
opaque Config.wrappingKey : Nat × Nat

/-- Length of the salt of PSS, which the standard leaves open (log entry 4). -/
opaque Config.saltLength : Nat

/-- What the device says of its sizes in CAPABILITIES: CTExponent, DataTransferSize and MaxSPDMmsgSize (R454 gives none; log entry 49). -/
opaque Config.spdmSizes : BitVec 8 × Word × Word

/-- A fresh free value: the n-th the machine draws, 64 bits (log entry 5). -/
opaque Config.freeValue : Nat → DWord

/-- The clip coefficient of a negative sum of squares, for which `rsqrt_core` has no value (R339, R172; log entry 52):
the sum, the threshold and the loss scale. -/
opaque Config.clipNegative : Word → Word → Word → Word

/-- Whether a stream takes a fifth nested LOOP, which the loader refuses and for which the manual names no effect (R190; log entry 54):
the position, the issue number and the job stroke number. -/
opaque Config.fifthLoop : Nat → Nat → Nat → Bool

/-- Plaintext below the first chunk of a load, which the device does not have (log entry 63): the load's identifier and the byte. -/
opaque Config.plainBelow : Word → Nat → Byte

/-- Digest of the boot ROM, measurement 1 (R455; log entry 6). -/
opaque Config.bootRomDigest : List Byte

/-- Faulty positions of an axis of engine e of core p that manufacturing test found and fused (R146, R149; log entry 6): core, engine,
and whether the axis is that of the columns. Two of them at most count, each in 0 to 65. -/
opaque Config.arrayFaults : Nat → Nat → Bool → List Nat

/-- Length of the JTAG instruction register and the instruction a code selects (R494 gives neither; log entry 7), and the
length of the boundary-scan register. -/
opaque Config.jtagIrLen : Nat
opaque Config.jtagDecode : List Bool → Nat
opaque Config.jtagBsrLen : Nat

/-- The bytes of the fence list, whose layout in SPI NOR the manual does not give (R388, R455): each entry as core, unit, outcome,
minutes and the mark that the core has returned, then each repair of R149 as core, engine, axis and position (log entry 55). -/
opaque Config.fenceBytes : List (List Nat) → List Byte

end Sys2Proof
end

