-- ==== Sys2Proof/Machine/Hash.lean ====
section
/-!
DEFINITION. The check codes and the hash that spec/ names by their standards: CRC-32C, SHA-256.
-/

namespace Sys2Proof.Machine

open Sys2Proof

/-! ### CRC-32C (R298, R314, R345, R357) -/

/-- One bit of a reflected CRC with polynomial `poly`. -/
def crcBit (poly c : Word) : Word := if c.getLsbD 0 then (c >>> 1) ^^^ poly else c >>> 1

/-- `n` bits. -/
def crcBits (poly : Word) : Nat → Word → Word
  | 0, c => c
  | n + 1, c => crcBits poly n (crcBit poly c)

/-- A byte enters a reflected CRC. -/
def crcByte (poly c : Word) (b : Byte) : Word := crcBits poly 8 (c ^^^ b.zeroExtend 32)

/-- CRC-32C: reflected polynomial 0x82F63B78, all ones before and inverted after. -/
def crc32c (bs : List Byte) : Word := ~~~(bs.foldl (crcByte 0x82F63B78) 0xFFFFFFFF)

/-! ### SHA-256 (R30, R455 to R457) -/

/-- The round constants as one number, the first one highest: 32 fraction bits of the cube root of each of the first 64 primes. -/
def shaRoots : Nat := 0x428a2f9871374491b5c0fbcfe9b5dba53956c25b59f111f1923f82a4ab1c5ed5d807aa9812835b01243185be550c7dc372be5d7480deb1fe9bdc06a7c19bf174e49b69c1efbe47860fc19dc6240ca1cc2de92c6f4a7484aa5cb0a9dc76f988da983e5152a831c66db00327c8bf597fc7c6e00bf3d5a7914706ca63511429296727b70a852e1b21384d2c6dfc53380d13650a7354766a0abb81c2c92e92722c85a2bfe8a1a81a664bc24b8b70c76c51a3d192e819d6990624f40e3585106aa07019a4c1161e376c082748774c34b0bcb5391c0cb34ed8aa4a5b9cca4f682e6ff3748f82ee78a5636f84c878148cc7020890befffaa4506cebbef9a3f7c67178f2

/-- The chaining value that the first block meets: 32 fraction bits of the square root of each of the first eight primes. -/
def shaStart : Nat := 0x6a09e667bb67ae853c6ef372a54ff53a510e527f9b05688c1f83d9ab5be0cd19

/-- The `n` words of a number, the highest first. -/
def beWords : Nat → Nat → List Word
  | 0, _ => []
  | n + 1, k => BitVec.ofNat 32 (k / 2 ^ (32 * n)) :: beWords n k

/-- The exclusive-or of a word turned right by each of some amounts. -/
def turned (x : Word) (ns : List Nat) : Word := ns.foldl (fun y n => y ^^^ x.rotateRight n) 0

/-- One round on the eight words of a chaining value; `m` is its schedule word plus its constant. -/
def shaRound (v : List Word) (m : Word) : List Word :=
  match v with
  | [a, b, c, d, e, f, g, h] =>
    let pick := g ^^^ (e &&& (f ^^^ g))
    let most := (a &&& b) ||| (c &&& (a ||| b))
    let x := h + turned e [6, 11, 25] + pick + m
    [x + turned a [2, 13, 22] + most, a, b, c, d + x, e, f, g]
  | _ => v

/-- The next word of a schedule held last word first. -/
def shaNext (ws : List Word) : Word :=
  let (near, far) := (ws.getD 1 0, ws.getD 14 0)
  ws.getD 15 0 + ws.getD 6 0 + (turned near [17, 19] ^^^ near >>> 10) + (turned far [7, 18] ^^^ far >>> 3)

/-- `n` more words of a schedule held last word first. -/
def shaSchedule : Nat → List Word → List Word
  | 0, ws => ws
  | n + 1, ws => shaSchedule n (shaNext ws :: ws)

/-- A number from its bytes, most significant first. -/
def beNat (bs : List Byte) : Nat := bs.foldl (fun n b => 256 * n + b.toNat) 0

/-- The `n` bytes of a number, most significant first. -/
def beBytes (n v : Nat) : List Byte := (leBytes n v).reverse

/-- Blocks of 64 bytes enter a chaining value one after another. -/
def shaAbsorb : Nat → List Byte → List Word → List Word
  | 0, _, v => v
  | n + 1, bs, v =>
    let ws := (shaSchedule 48 (beWords 16 (beNat (bs.take 64))).reverse).reverse
    let out := (List.zipWith (· + ·) (beWords 64 shaRoots) ws).foldl shaRound v
    shaAbsorb n (bs.drop 64) (List.zipWith (· + ·) v out)

/-- SHA-256 of a list of bytes: 32 bytes. A one bit, zeros and the length in bits fill the last block. -/
def sha256 (bs : List Byte) : List Byte :=
  let fill := bs ++ 0x80 :: List.replicate ((119 - bs.length % 64) % 64) 0 ++ beBytes 8 (8 * bs.length)
  (shaAbsorb (fill.length / 64) fill (beWords 8 shaStart)).flatMap (fun w => beBytes 4 w.toNat)

end Sys2Proof.Machine
end

