-- ==== Sys2Proof/Machine/Crypto.lean ====
section
/-!
DEFINITION. The transformations that spec/ takes from standards it names: AES-256-GCM decryption (FIPS 197, SP 800-38D), inflation of
a raw DEFLATE stream (RFC 1951), and RSA-3072 with PSS and OAEP (RFC 8017). The keys are constants of the part without a body.
-/

namespace Sys2Proof.Machine

open Sys2Proof

def xorBytes (a b : List Byte) : List Byte := List.zipWith (· ^^^ ·) a b

/-! ### AES-256 (R366; FIPS 197) -/

/-- Multiplication by x in the field of AES. -/
def aesX (b : Byte) : Byte := (b <<< 1) ^^^ (if b.getLsbD 7 then 0x1B else 0)

/-- The product of two field elements, over the `n` low bits of the second. -/
def aesMul : Nat → Byte → Byte → Byte
  | 0, _, _ => 0
  | n + 1, a, b => (if b.getLsbD 0 then a else 0) ^^^ aesMul n (aesX a) (b >>> 1)

/-- The 254th power, which is the inverse of an element other than zero. -/
def aesInv (b : Byte) : Byte :=
  let sq := fun x => aesMul 8 x x
  let b2 := sq b
  let b4 := sq b2
  let b8 := sq b4
  let b16 := sq b8
  let b32 := sq b16
  let b64 := sq b32
  let b128 := sq b64
  aesMul 8 (aesMul 8 (aesMul 8 b2 b4) (aesMul 8 b8 b16)) (aesMul 8 (aesMul 8 b32 b64) b128)

def aesSub (b : Byte) : Byte :=
  let x := aesInv b
  x ^^^ x.rotateLeft 1 ^^^ x.rotateLeft 2 ^^^ x.rotateLeft 3 ^^^ x.rotateLeft 4 ^^^ 0x63

/-- The substitution box as a table. -/
def aesBox : List Byte := (List.range 256).map (fun k => aesSub (BitVec.ofNat 8 k))

def subByte (b : Byte) : Byte := aesBox.getD b.toNat 0

/-- Word k of the key schedule from the words before it, last first; `r` is the round constant. -/
def aesNextWord (k : Nat) (r : Byte) (ws : List (List Byte)) : List Byte :=
  let t := ws.getD 0 []
  let t := if k % 8 = 0 then
      match (t.drop 1 ++ t.take 1).map subByte with
      | b :: bs => (b ^^^ r) :: bs
      | [] => []
    else if k % 8 = 4 then t.map subByte else t
  xorBytes (ws.getD 7 []) t

/-- Extends a key schedule, held last word first, from word k by n words. -/
def aesExtend : Nat → Nat → Byte → List (List Byte) → List (List Byte)
  | 0, _, _, ws => ws
  | n + 1, k, r, ws => aesExtend n (k + 1) (if k % 8 = 0 then aesX r else r) (aesNextWord k r ws :: ws)

/-- The sixteen bytes of the round keys 0 to 14. -/
def aesKeys (key : List Byte) : List (List Byte) :=
  let ws := (aesExtend 52 8 1 ((List.range 8).map (fun k => (key.drop (4 * k)).take 4)).reverse).reverse.flatten
  (List.range 15).map (fun k => (ws.drop (16 * k)).take 16)

/-- Byte r of column c comes from column c + r. -/
def shiftRows (s : List Byte) : List Byte := (List.range 16).map (fun k => s.getD ((k + 4 * (k % 4)) % 16) 0)

def mixColumn (c : List Byte) : List Byte :=
  let b := fun k => c.getD (k % 4) 0
  (List.range 4).map (fun k => aesX (b k) ^^^ aesX (b (k + 1)) ^^^ b (k + 1) ^^^ b (k + 2) ^^^ b (k + 3))

def mixColumns (s : List Byte) : List Byte := (List.range 4).flatMap (fun k => mixColumn ((s.drop (4 * k)).take 4))

/-- The rounds behind the first key: the last one mixes no columns. -/
def aesRounds : List (List Byte) → List Byte → List Byte
  | [], s => s
  | [k], s => xorBytes (shiftRows (s.map subByte)) k
  | k :: ks, s => aesRounds ks (xorBytes (mixColumns (shiftRows (s.map subByte))) k)

/-- One block under the round keys. -/
def aesBlock (keys : List (List Byte)) (block : List Byte) : List Byte :=
  match keys with
  | [] => block
  | k :: ks => aesRounds ks (xorBytes block k)

/-! ### GCM (R366; SP 800-38D) -/

/-- The product in the field of GHASH: n bits of x, highest first, against v. -/
def ghashMul : Nat → BitVec 128 → BitVec 128 → BitVec 128
  | 0, _, _ => 0
  | n + 1, x, v => (if x.getLsbD 127 then v else 0) ^^^
      ghashMul n (x <<< 1) ((v >>> 1) ^^^ (if v.getLsbD 0 then (0xE1 : BitVec 128) <<< 120 else 0))

/-- GHASH over n blocks. -/
def ghash (h : BitVec 128) : Nat → List Byte → BitVec 128 → BitVec 128
  | 0, _, y => y
  | n + 1, bs, y => ghash h n (bs.drop 16) (ghashMul 128 (y ^^^ BitVec.ofNat 128 (beNat (bs.take 16))) h)

/-- Zeros up to a whole number of blocks. -/
def pad16 (bs : List Byte) : List Byte := bs ++ List.replicate ((16 - bs.length % 16) % 16) 0

/-- Counter mode from a counter value on, over n blocks. -/
def gcmCtr (keys : List (List Byte)) (iv : List Byte) : Nat → Nat → List Byte → List Byte
  | 0, _, _ => []
  | n + 1, c, bs => xorBytes (bs.take 16) (aesBlock keys (iv ++ beBytes 4 c)) ++ gcmCtr keys iv n (c + 1) (bs.drop 16)

/-- The tag of a ciphertext with its additional data, under a 12-byte IV. -/
def gcmTag (keys : List (List Byte)) (iv aad ct : List Byte) : List Byte :=
  let h := BitVec.ofNat 128 (beNat (aesBlock keys (List.replicate 16 0)))
  let bs := pad16 aad ++ pad16 ct ++ beBytes 8 (8 * aad.length) ++ beBytes 8 (8 * ct.length)
  xorBytes (beBytes 16 (ghash h (bs.length / 16) bs 0).toNat) (aesBlock keys (iv ++ [0, 0, 0, 1]))

/-- AES-256-GCM decryption (R366): key, 12-byte IV, additional data, ciphertext with its tag behind it. None where the tag fails. -/
def gcmOpen (key iv aad stored : List Byte) : Option (List Byte) :=
  let ct := stored.take (stored.length - 16)
  let keys := aesKeys key
  if stored.length < 16 ∨ gcmTag keys iv aad ct ≠ stored.drop (stored.length - 16) then none
  else some (gcmCtr keys iv ((ct.length + 15) / 16) 2 ct)

/-! ### DEFLATE (R357; RFC 1951) -/

/-- The bits of a stream in the order they are read: the least significant bit of each byte first. -/
def bitsOf (bs : List Byte) : List Bool := bs.flatMap (fun b => (List.range 8).map b.getLsbD)

/-- A number of n bits, its lowest bit first. -/
def takeNum : Nat → List Bool → Option (Nat × List Bool)
  | 0, bs => some (0, bs)
  | _ + 1, [] => none
  | n + 1, b :: bs => (takeNum n bs).map (fun r => (b.toNat + 2 * r.1, r.2))

/-- A canonical code: the number of codes of the lengths 1 to 15, and the symbols in the order of their codes. -/
structure Huff where
  counts : List Nat
  symbols : List Nat
deriving DecidableEq, Repr

/-- The code that a list of code lengths, by symbol, stands for. -/
def huffOf (lens : List Nat) : Huff :=
  { counts := (List.range' 1 15).map (fun n => lens.count n)
    symbols := (List.range' 1 15).flatMap (fun n => (lens.zipIdx.filter (fun e => e.1 == n)).map (·.2)) }

/-- Codes left over behind the lengths given: none where there are too many codes. -/
def huffLeft : Nat → List Nat → Option Nat
  | left, [] => some left
  | left, c :: cs => if 2 * left < c then none else huffLeft (2 * left - c) cs

/-- Whether a code may be used: it leaves no code over, or has at most one symbol, of length 1. -/
def Huff.ok (h : Huff) (single : Bool) : Bool :=
  match huffLeft 1 h.counts with
  | none => false
  | some 0 => true
  | some _ => single && decide (h.symbols.length ≤ 1) && decide (h.counts.headD 0 = h.symbols.length)

/-- Reads a symbol: `code` so far, the first code of the length, and the place of its symbol. -/
def huffRead (syms : List Nat) : List Nat → Nat → Nat → Nat → List Bool → Option (Nat × List Bool)
  | [], _, _, _, _ => none
  | _ :: _, _, _, _, [] => none
  | c :: cs, code, first, place, b :: bs =>
    let code := code + b.toNat
    if code < first + c then (syms[place + (code - first)]?).map (fun s => (s, bs))
    else huffRead syms cs (2 * code) (2 * (first + c)) (place + c) bs

def Huff.read (h : Huff) (bs : List Bool) : Option (Nat × List Bool) := huffRead h.symbols h.counts 0 0 0 bs

/-- Base and extra bits of the length symbols 257 to 285 and of the distance symbols 0 to 29. -/
def lenBase : List (Nat × Nat) :=
  [(3, 0), (4, 0), (5, 0), (6, 0), (7, 0), (8, 0), (9, 0), (10, 0), (11, 1), (13, 1), (15, 1), (17, 1), (19, 2), (23, 2), (27, 2)] ++
  [(31, 2), (35, 3), (43, 3), (51, 3), (59, 3), (67, 4), (83, 4), (99, 4), (115, 4), (131, 5), (163, 5), (195, 5), (227, 5), (258, 0)]
def distBase : List (Nat × Nat) :=
  [(1, 0), (2, 0), (3, 0), (4, 0), (5, 1), (7, 1), (9, 2), (13, 2), (17, 3), (25, 3), (33, 4), (49, 4), (65, 5), (97, 5), (129, 6)] ++
  [(193, 6), (257, 7), (385, 7), (513, 8), (769, 8), (1025, 9), (1537, 9), (2049, 10), (3073, 10), (4097, 11), (6145, 11)] ++
  [(8193, 12), (12289, 12), (16385, 13), (24577, 13)]

/-- A base with its extra bits. -/
def withExtra (tab : List (Nat × Nat)) (k : Nat) (bs : List Bool) : Option (Nat × List Bool) :=
  match tab[k]? with
  | none => none
  | some (base, n) => (takeNum n bs).map (fun r => (base + r.1, r.2))

/-- Copies n bytes from a distance back, one after another. -/
def copyBack (dist : Nat) : Nat → Array Byte → Array Byte
  | 0, out => out
  | n + 1, out => copyBack dist n (out.push (out.getD (out.size - dist) 0))

/-- The symbols of a block up to its end; the first argument bounds their number. -/
def inflateCodes (lit dist : Huff) : Nat → List Bool → Array Byte → Option (List Bool × Array Byte)
  | 0, _, _ => none
  | n + 1, bs, out =>
    match lit.read bs with
    | none => none
    | some (s, bs) =>
      if s < 256 then inflateCodes lit dist n bs (out.push (BitVec.ofNat 8 s))
      else if s = 256 then some (bs, out)
      else match withExtra lenBase (s - 257) bs with
        | none => none
        | some (len, bs) =>
          match dist.read bs with
          | none => none
          | some (d, bs) =>
            match withExtra distBase d bs with
            | none => none
            | some (back, bs) => if out.size < back then none else inflateCodes lit dist n bs (copyBack back len out)

/-- The order in which the lengths of the code-length code stand. -/
def clOrder : List Nat := [16, 17, 18, 0, 8, 7, 9, 6, 10, 5, 11, 4, 12, 3, 13, 2, 14, 1, 15]

/-- Code lengths from the code-length code until `want` have been read: lengths so far, last first. -/
def readLens (cl : Huff) (want : Nat) : Nat → List Nat → List Bool → Option (List Nat × List Bool)
  | 0, lens, bs => if lens.length = want then some (lens.reverse, bs) else none
  | n + 1, lens, bs =>
    if lens.length = want then some (lens.reverse, bs)
    else match cl.read bs with
      | none => none
      | some (s, bs) =>
        if s < 16 then readLens cl want n (s :: lens) bs
        else
          let last := if s = 16 then lens.head? else some 0
          match last, takeNum (if s = 16 then 2 else if s = 17 then 3 else 7) bs with
          | some l, some (r, bs) =>
            let k := r + (if s = 18 then 11 else 3)
            if want < lens.length + k then none else readLens cl want n (List.replicate k l ++ lens) bs
          | _, _ => none

/-- Takes k numbers of n bits. -/
def takeNums (n : Nat) : Nat → List Bool → Option (List Nat × List Bool)
  | 0, bs => some ([], bs)
  | k + 1, bs =>
    match takeNum n bs with
    | none => none
    | some (v, bs) => (takeNums n k bs).map (fun r => (v :: r.1, r.2))

/-- The codes of a block with its own tables. -/
def dynamicCodes (bs : List Bool) : Option (Huff × Huff × List Bool) :=
  match takeNum 5 bs with
  | none => none
  | some (hlit, bs) =>
    match takeNum 5 bs with
    | none => none
    | some (hdist, bs) =>
      match takeNum 4 bs with
      | none => none
      | some (hclen, bs) =>
        match takeNums 3 (hclen + 4) bs with
        | none => none
        | some (cls, bs) =>
          let cl := huffOf ((List.range 19).map (fun s => (cls.zip clOrder).foldl (fun a e => if e.2 = s then e.1 else a) 0))
          if !cl.ok false ∨ 29 < hlit ∨ 29 < hdist then none
          else match readLens cl (hlit + 257 + hdist + 1) (hlit + hdist + 258) [] bs with
            | none => none
            | some (lens, bs) =>
              let lit := huffOf (lens.take (hlit + 257))
              let dist := huffOf (lens.drop (hlit + 257))
              if lens.getD 256 0 = 0 ∨ !lit.ok true ∨ !dist.ok true then none else some (lit, dist, bs)

/-- The codes of a block with the fixed tables. -/
def fixedLit : Huff := huffOf (List.replicate 144 8 ++ List.replicate 112 9 ++ List.replicate 24 7 ++ List.replicate 8 8)
def fixedDist : Huff := huffOf (List.replicate 32 5)

/-- Takes k whole bytes. -/
def takeStored : Nat → List Bool → Array Byte → Option (List Bool × Array Byte)
  | 0, bs, out => some (bs, out)
  | k + 1, bs, out =>
    match takeNum 8 bs with
    | none => none
    | some (v, bs) => takeStored k bs (out.push (BitVec.ofNat 8 v))

/-- The blocks of a stream, at most n: what is left of the stream behind the last, and the bytes. The stream counts a whole number of
bytes, so that the bits left say how far a block has come in its byte. -/
def inflateBlocks : Nat → List Bool → Array Byte → Option (List Bool × Array Byte)
  | 0, _, _ => none
  | n + 1, bs, out =>
    match takeNum 1 bs with
    | none => none
    | some (final, bs) =>
      match takeNum 2 bs with
      | none => none
      | some (typ, bs) =>
        let block : Option (List Bool × Array Byte) := match typ with
          | 0 =>
            match takeNum 16 (bs.drop (bs.length % 8)) with
            | none => none
            | some (len, bs) =>
              match takeNum 16 bs with
              | none => none
              | some (com, bs) => if len + com = 0xFFFF then takeStored len bs out else none
          | 1 => inflateCodes fixedLit fixedDist (bs.length + 1) bs out
          | 2 =>
            match dynamicCodes bs with
            | none => none
            | some (lit, dist, bs) => inflateCodes lit dist (bs.length + 1) bs out
          | _ => none
        match block with
        | none => none
        | some (bs, out) => if final = 1 then some (bs, out) else inflateBlocks n bs out

/-- The plaintext of a raw DEFLATE stream (R357): none where it is malformed, or where a byte is left behind its last block. -/
def inflate (bs : List Byte) : Option (List Byte) :=
  match inflateBlocks (8 * bs.length + 1) (bitsOf bs) #[] with
  | none => none
  | some (rest, out) => if rest.length < 8 then some out.toList else none

/-! ### RSA-3072 (R365, R390, R450, R453, R454; RFC 8017) -/

/-- b^e mod m over the n low bits of e. -/
def powModBits : Nat → Nat → Nat → Nat → Nat → Nat
  | 0, _, _, _, acc => acc
  | n + 1, b, e, m, acc => powModBits n (b * b % m) (e / 2) m (if e % 2 = 1 then acc * b % m else acc)

def powMod (b e m : Nat) : Nat := powModBits 3072 (b % m) e m (1 % m)

/-- The mask generation function over SHA-256. -/
def mgf1 (seed : List Byte) (len : Nat) : List Byte :=
  ((List.range ((len + 31) / 32)).flatMap (fun c => sha256 (seed ++ beBytes 4 c))).take len

/-- H of an encoded message of PSS: eight zeros, the message's hash, the salt. -/
def pssHash (msg salt : List Byte) : List Byte := sha256 (List.replicate 8 0 ++ sha256 msg ++ salt)

/-- The data block behind the zeros: 1, then the salt. -/
def pssBlock (salt : List Byte) : List Byte := List.replicate (350 - salt.length) 0 ++ 1 :: salt

/-- The first bit of a block of 384 bytes is no part of the encoded message. -/
def clearTop (bs : List Byte) : List Byte := match bs with | b :: bs => (b &&& 0x7F) :: bs | [] => []

/-- RSASSA-PSS verification with SHA-256 under the fused firmware signing key. -/
def rsaVerify (msg signature : List Byte) : Bool :=
  let (m, e) := Config.firmwareKey
  let s := beNat signature
  let em := beBytes 384 (powMod s e m)
  let masked := em.take 351
  let h := (em.drop 351).take 32
  let db := clearTop (xorBytes masked (mgf1 h 351))
  let salt := db.drop (351 - Config.saltLength)
  decide (signature.length = 384 ∧ s < m ∧ Config.saltLength ≤ 350) && em.drop 383 == [0xBC] &&
    !((masked.headD 0).getLsbD 7) && db == pssBlock salt && h == pssHash msg salt

/-- The encoding that RSASSA-PKCS1-v1_5 gives a message under SHA-256: 00 01, ones, 00, the name of the hash and the hash. -/
def pkcs1Block (msg : List Byte) : List Byte :=
  let info : List Byte := [0x30, 0x31, 0x30, 0x0D, 0x06, 0x09, 0x60, 0x86, 0x48, 0x01, 0x65, 0x03, 0x04, 0x02, 0x01, 0x05, 0x00, 0x04, 0x20]
  [0x00, 0x01] ++ List.replicate 330 0xFF ++ [0x00] ++ info ++ sha256 msg

/-- A signature of the touchmark signing key under TPM_ALG_RSASSA_3072, which is RSASSA-PKCS1-v1_5, and SHA-256 (R453, R454). -/
def touchmarkSign (msg : List Byte) : List Byte :=
  let (m, d) := Config.signingKey
  beBytes 384 (powMod (beNat (pkcs1Block msg)) d m)

/-- RSA-OAEP decryption with SHA-256 and the empty label under the touchmark wrapping key (R365): none where it does not decrypt. -/
def unwrapKey (c : List Byte) : Option (List Byte) :=
  let (m, d) := Config.wrappingKey
  let em := beBytes 384 (powMod (beNat c) d m)
  let masked := em.drop 33
  let seed := xorBytes ((em.drop 1).take 32) (mgf1 masked 32)
  let db := xorBytes masked (mgf1 seed 351)
  match (db.drop 32).dropWhile (· == 0) with
  | b :: msg => if c.length = 384 ∧ beNat c < m ∧ em.headD 0 = 0 ∧ db.take 32 = sha256 [] ∧ b = 1 then some msg else none
  | [] => none

end Sys2Proof.Machine
end

