-- ==== Sys2Proof/Decode.lean ====
section
/-!
DEFINITION. The 64-bit instruction words of the control core (R180, R182, R208, R218, R229, R230): one layout per field
map, read in both directions. No row of the table of operations spells a command by bits, so `decodeTableWord` answers none.
-/

namespace Sys2Proof

/-- Joins fields, most significant first, each kept to its width. -/
def packBits : List (Nat × Nat) → Nat
  | [] => 0
  | (w, v) :: fs => (v % 2 ^ w) * 2 ^ (fs.map (·.1)).sum + packBits fs

/-- Cuts a number into fields of the given widths, most significant first. -/
def unpackBits : List Nat → Nat → List Nat
  | [], _ => []
  | w :: ws, n => n / 2 ^ ws.sum % 2 ^ w :: unpackBits ws n

def bitNat (b : Bool) : Nat := if b then 1 else 0
def natBit (n : Nat) : Bool := n == 1

/-- The 56 bits below the opcode, most significant field first; reserved bits are zero. -/
def fmtRBits (x : FmtR) : List (Nat × Nat) :=
  [(6, x.sd.toNat), (6, x.sa.toNat), (6, x.sb.toNat), (6, x.sc.toNat), (32, x.imm.toNat)]

/-- The record of a word's fields; none where a reserved bit is set. -/
def fmtROf (n : Nat) : Option FmtR :=
  match unpackBits [6, 6, 6, 6, 32] n with
  | [a0, a1, a2, a3, a4] => some ⟨BitVec.ofNat 6 a0, BitVec.ofNat 6 a1, BitVec.ofNat 6 a2, BitVec.ofNat 6 a3, BitVec.ofNat 32 a4⟩
  | _ => none

/-- The 56 bits below the opcode, most significant field first; reserved bits are zero. -/
def fmtIBits (x : FmtI) : List (Nat × Nat) :=
  [(6, x.sd.toNat), (6, x.sa.toNat), (44, x.imm.toNat)]

/-- The record of a word's fields; none where a reserved bit is set. -/
def fmtIOf (n : Nat) : Option FmtI :=
  match unpackBits [6, 6, 44] n with
  | [a0, a1, a2] => some ⟨BitVec.ofNat 6 a0, BitVec.ofNat 6 a1, BitVec.ofNat 44 a2⟩
  | _ => none

/-- The 56 bits below the opcode, most significant field first; reserved bits are zero. -/
def fmtLBits (x : FmtL) : List (Nat × Nat) :=
  [(6, x.sd.toNat), (24, x.count.toNat), (16, x.body.toNat), (10, 0)]

/-- The record of a word's fields; none where a reserved bit is set. -/
def fmtLOf (n : Nat) : Option FmtL :=
  match unpackBits [6, 24, 16, 10] n with
  | [a0, a1, a2, a3] => if a3 = 0 then some ⟨BitVec.ofNat 6 a0, BitVec.ofNat 24 a1, BitVec.ofNat 16 a2⟩ else none
  | _ => none

/-- The 56 bits below the opcode, most significant field first; reserved bits are zero. -/
def fmtPBits (x : FmtP) : List (Nat × Nat) :=
  [(3, x.pd.toNat), (3, x.pa.toNat), (3, x.pb.toNat), (3, 0), (6, x.sd.toNat), (6, x.sa.toNat), (32, x.imm.toNat)]

/-- The record of a word's fields; none where a reserved bit is set. -/
def fmtPOf (n : Nat) : Option FmtP :=
  match unpackBits [3, 3, 3, 3, 6, 6, 32] n with
  | [a0, a1, a2, a3, a4, a5, a6] => if a3 = 0 then some ⟨BitVec.ofNat 3 a0, BitVec.ofNat 3 a1, BitVec.ofNat 3 a2, BitVec.ofNat 6 a4, BitVec.ofNat 6 a5, BitVec.ofNat 32 a6⟩ else none
  | _ => none

/-- The 56 bits below the opcode, most significant field first; reserved bits are zero. -/
def fmtCBits (x : FmtC) : List (Nat × Nat) :=
  [(12, x.ctr.toNat), (3, x.cond.toNat), (1, bitNat x.immf), (24, x.val.toNat), (16, x.tmo.toNat)]

/-- The record of a word's fields; none where a reserved bit is set. -/
def fmtCOf (n : Nat) : Option FmtC :=
  match unpackBits [12, 3, 1, 24, 16] n with
  | [a0, a1, a2, a3, a4] => some ⟨BitVec.ofNat 12 a0, BitVec.ofNat 3 a1, natBit a2, BitVec.ofNat 24 a3, BitVec.ofNat 16 a4⟩
  | _ => none

/-- The 56 bits below the opcode, most significant field first; reserved bits are zero. -/
def fmtSBits (x : FmtS) : List (Nat × Nat) :=
  [(12, x.ctr.toNat), (3, x.vx.toNat), (4, x.vy.toNat), (1, bitNat x.immf), (24, x.val.toNat), (12, 0)]

/-- The record of a word's fields; none where a reserved bit is set. -/
def fmtSOf (n : Nat) : Option FmtS :=
  match unpackBits [12, 3, 4, 1, 24, 12] n with
  | [a0, a1, a2, a3, a4, a5] => if a5 = 0 then some ⟨BitVec.ofNat 12 a0, BitVec.ofNat 3 a1, BitVec.ofNat 4 a2, natBit a3, BitVec.ofNat 24 a4⟩ else none
  | _ => none

/-- The 56 bits below the opcode, most significant field first; reserved bits are zero. -/
def fmtHBits (x : FmtH) : List (Nat × Nat) :=
  [(4, x.cls.toNat), (8, x.lead.toNat), (44, 0)]

/-- The record of a word's fields; none where a reserved bit is set. -/
def fmtHOf (n : Nat) : Option FmtH :=
  match unpackBits [4, 8, 44] n with
  | [a0, a1, a2] => if a2 = 0 then some ⟨BitVec.ofNat 4 a0, BitVec.ofNat 8 a1⟩ else none
  | _ => none

/-- The 56 bits below the opcode, most significant field first; reserved bits are zero. -/
def fmtMBits (x : FmtM) : List (Nat × Nat) :=
  [(6, x.sa.toNat), (6, x.sb.toNat), (12, x.ctrR.toNat), (12, x.ctrD.toNat), (1, bitNat x.enR), (1, bitNat x.enD), (18, x.len.toNat)]

/-- The record of a word's fields; none where a reserved bit is set. -/
def fmtMOf (n : Nat) : Option FmtM :=
  match unpackBits [6, 6, 12, 12, 1, 1, 18] n with
  | [a0, a1, a2, a3, a4, a5, a6] => some ⟨BitVec.ofNat 6 a0, BitVec.ofNat 6 a1, BitVec.ofNat 12 a2, BitVec.ofNat 12 a3, natBit a4, natBit a5, BitVec.ofNat 18 a6⟩
  | _ => none

/-- The 56 bits below the opcode, most significant field first; reserved bits are zero. -/
def fmtMloadBits (x : FmtMload) : List (Nat × Nat) :=
  [(2, x.eng.toNat), (6, x.sa.toNat), (6, x.sb.toNat), (6, x.sc.toNat), (4, x.fmt.toNat), (1, bitNat x.mx), (2, x.pieces.toNat), (8, x.k1.toNat), (6, x.n1.toNat), (15, 0)]

/-- The record of a word's fields; none where a reserved bit is set. -/
def fmtMloadOf (n : Nat) : Option FmtMload :=
  match unpackBits [2, 6, 6, 6, 4, 1, 2, 8, 6, 15] n with
  | [a0, a1, a2, a3, a4, a5, a6, a7, a8, a9] => if a9 = 0 then some ⟨BitVec.ofNat 2 a0, BitVec.ofNat 6 a1, BitVec.ofNat 6 a2, BitVec.ofNat 6 a3, BitVec.ofNat 4 a4, natBit a5, BitVec.ofNat 2 a6, BitVec.ofNat 8 a7, BitVec.ofNat 6 a8⟩ else none
  | _ => none

/-- The 56 bits below the opcode, most significant field first; reserved bits are zero. -/
def fmtMstrBits (x : FmtMstr) : List (Nat × Nat) :=
  [(2, x.eng.toNat), (6, x.sa.toNat), (6, x.sb.toNat), (6, x.sc.toNat), (4, x.fmtA.toNat), (1, bitNat x.mxA), (4, x.fmtS.toNat), (1, bitNat x.mxS), (3, x.tile.toNat), (1, bitNat x.begin), (11, x.m1.toNat), (6, x.n1.toNat), (2, x.pieces.toNat), (3, 0)]

/-- The record of a word's fields; none where a reserved bit is set. -/
def fmtMstrOf (n : Nat) : Option FmtMstr :=
  match unpackBits [2, 6, 6, 6, 4, 1, 4, 1, 3, 1, 11, 6, 2, 3] n with
  | [a0, a1, a2, a3, a4, a5, a6, a7, a8, a9, a10, a11, a12, a13] => if a13 = 0 then some ⟨BitVec.ofNat 2 a0, BitVec.ofNat 6 a1, BitVec.ofNat 6 a2, BitVec.ofNat 6 a3, BitVec.ofNat 4 a4, natBit a5, BitVec.ofNat 4 a6, natBit a7, BitVec.ofNat 3 a8, natBit a9, BitVec.ofNat 11 a10, BitVec.ofNat 6 a11, BitVec.ofNat 2 a12⟩ else none
  | _ => none

/-- The 56 bits below the opcode, most significant field first; reserved bits are zero. -/
def fmtMdrainBits (x : FmtMdrain) : List (Nat × Nat) :=
  [(2, x.eng.toNat), (6, x.sa.toNat), (6, x.sb.toNat), (6, x.sc.toNat), (3, x.tile.toNat), (8, x.r1.toNat), (6, x.n1.toNat), (4, x.fmt.toNat), (1, bitNat x.mx), (2, x.rmode.toNat), (1, bitNat x.sat), (1, bitNat x.rule), (6, x.sd.toNat), (4, 0)]

/-- The record of a word's fields; none where a reserved bit is set. -/
def fmtMdrainOf (n : Nat) : Option FmtMdrain :=
  match unpackBits [2, 6, 6, 6, 3, 8, 6, 4, 1, 2, 1, 1, 6, 4] n with
  | [a0, a1, a2, a3, a4, a5, a6, a7, a8, a9, a10, a11, a12, a13] => if a13 = 0 then some ⟨BitVec.ofNat 2 a0, BitVec.ofNat 6 a1, BitVec.ofNat 6 a2, BitVec.ofNat 6 a3, BitVec.ofNat 3 a4, BitVec.ofNat 8 a5, BitVec.ofNat 6 a6, BitVec.ofNat 4 a7, natBit a8, BitVec.ofNat 2 a9, natBit a10, natBit a11, BitVec.ofNat 6 a12⟩ else none
  | _ => none

/-- The 56 bits below the opcode, most significant field first; reserved bits are zero. -/
def fmtMewBits (x : FmtMew) : List (Nat × Nat) :=
  [(2, x.eng.toNat), (6, x.sa.toNat), (6, x.sb.toNat), (6, x.sc.toNat), (4, x.fmtA.toNat), (4, x.fmtB.toNat), (16, x.l1.toNat), (12, 0)]

/-- The record of a word's fields; none where a reserved bit is set. -/
def fmtMewOf (n : Nat) : Option FmtMew :=
  match unpackBits [2, 6, 6, 6, 4, 4, 16, 12] n with
  | [a0, a1, a2, a3, a4, a5, a6, a7] => if a7 = 0 then some ⟨BitVec.ofNat 2 a0, BitVec.ofNat 6 a1, BitVec.ofNat 6 a2, BitVec.ofNat 6 a3, BitVec.ofNat 4 a4, BitVec.ofNat 4 a5, BitVec.ofNat 16 a6⟩ else none
  | _ => none

/-- The 56 bits below the opcode, most significant field first; reserved bits are zero. -/
def fmtVBits (x : FmtV) : List (Nat × Nat) :=
  [(5, x.vd.toNat), (5, x.va.toNat), (5, x.vb.toNat), (5, x.vc.toNat), (3, x.pr.toNat), (1, bitNat x.zero), (2, x.g.toNat), (2, x.mode.toNat), (1, bitNat x.scb), (6, x.ss.toNat), (21, x.opx.toNat)]

/-- The record of a word's fields; none where a reserved bit is set. -/
def fmtVOf (n : Nat) : Option FmtV :=
  match unpackBits [5, 5, 5, 5, 3, 1, 2, 2, 1, 6, 21] n with
  | [a0, a1, a2, a3, a4, a5, a6, a7, a8, a9, a10] => some ⟨BitVec.ofNat 5 a0, BitVec.ofNat 5 a1, BitVec.ofNat 5 a2, BitVec.ofNat 5 a3, BitVec.ofNat 3 a4, natBit a5, BitVec.ofNat 2 a6, BitVec.ofNat 2 a7, natBit a8, BitVec.ofNat 6 a9, BitVec.ofNat 21 a10⟩
  | _ => none

/-- The 56 bits below the opcode, most significant field first; reserved bits are zero. -/
def fmtVMBits (x : FmtVM) : List (Nat × Nat) :=
  [(5, x.vr.toNat), (6, x.sa.toNat), (4, x.fmt.toNat), (3, x.pr.toNat), (1, bitNat x.zero), (2, x.g.toNat), (2, x.mode.toNat), (2, x.rmode.toNat), (1, bitNat x.sat), (1, bitNat x.rule), (1, bitNat x.mx), (6, x.ssc.toNat), (6, x.sti.toNat), (6, x.six.toNat), (10, 0)]

/-- The record of a word's fields; none where a reserved bit is set. -/
def fmtVMOf (n : Nat) : Option FmtVM :=
  match unpackBits [5, 6, 4, 3, 1, 2, 2, 2, 1, 1, 1, 6, 6, 6, 10] n with
  | [a0, a1, a2, a3, a4, a5, a6, a7, a8, a9, a10, a11, a12, a13, a14] => if a14 = 0 then some ⟨BitVec.ofNat 5 a0, BitVec.ofNat 6 a1, BitVec.ofNat 4 a2, BitVec.ofNat 3 a3, natBit a4, BitVec.ofNat 2 a5, BitVec.ofNat 2 a6, BitVec.ofNat 2 a7, natBit a8, natBit a9, natBit a10, BitVec.ofNat 6 a11, BitVec.ofNat 6 a12, BitVec.ofNat 6 a13⟩ else none
  | _ => none

/-- The 56 bits below the opcode, most significant field first; reserved bits are zero. -/
def fmtVBBits (x : FmtVB) : List (Nat × Nat) :=
  [(5, x.vr.toNat), (6, x.sa.toNat), (6, x.sn.toNat), (6, x.scap.toNat), (6, x.sov.toNat), (3, x.pr.toNat), (2, x.g.toNat), (2, x.mode.toNat), (20, 0)]

/-- The record of a word's fields; none where a reserved bit is set. -/
def fmtVBOf (n : Nat) : Option FmtVB :=
  match unpackBits [5, 6, 6, 6, 6, 3, 2, 2, 20] n with
  | [a0, a1, a2, a3, a4, a5, a6, a7, a8] => if a8 = 0 then some ⟨BitVec.ofNat 5 a0, BitVec.ofNat 6 a1, BitVec.ofNat 6 a2, BitVec.ofNat 6 a3, BitVec.ofNat 6 a4, BitVec.ofNat 3 a5, BitVec.ofNat 2 a6, BitVec.ofNat 2 a7⟩ else none
  | _ => none

/-- The 56 bits below the opcode, most significant field first; reserved bits are zero. -/
def fmtFlagsBits (x : FmtFlags) : List (Nat × Nat) :=
  [(6, x.sd.toNat), (8, x.mask.toNat), (42, 0)]

/-- The record of a word's fields; none where a reserved bit is set. -/
def fmtFlagsOf (n : Nat) : Option FmtFlags :=
  match unpackBits [6, 8, 42] n with
  | [a0, a1, a2] => if a2 = 0 then some ⟨BitVec.ofNat 6 a0, BitVec.ofNat 8 a1⟩ else none
  | _ => none

/-- The 56 bits below the opcode, most significant field first; reserved bits are zero. -/
def fmtVstatBits (x : FmtVstat) : List (Nat × Nat) :=
  [(3, x.sel.toNat), (6, x.sa.toNat), (47, 0)]

/-- The record of a word's fields; none where a reserved bit is set. -/
def fmtVstatOf (n : Nat) : Option FmtVstat :=
  match unpackBits [3, 6, 47] n with
  | [a0, a1, a2] => if a2 = 0 then some ⟨BitVec.ofNat 3 a0, BitVec.ofNat 6 a1⟩ else none
  | _ => none

/-- The opcode of an instruction (R180). -/
def opcodeOf : IsaOp → Nat
  | .nop => 0x00
  | .stend => 0x01
  | .jobend => 0x02
  | .commit => 0x03
  | .slotpat _ => 0x04
  | .loop _ => 0x05
  | .rdspec _ => 0x06
  | .add _ => 0x08
  | .sub _ => 0x09
  | .mul _ => 0x0A
  | .and _ => 0x0B
  | .or _ => 0x0C
  | .xor _ => 0x0D
  | .shl _ => 0x0E
  | .shr _ => 0x0F
  | .sra _ => 0x10
  | .min _ => 0x11
  | .max _ => 0x12
  | .minu _ => 0x13
  | .maxu _ => 0x14
  | .cmp _ => 0x15
  | .sel _ => 0x16
  | .li _ => 0x18
  | .lih _ => 0x19
  | .lds _ => 0x1A
  | .sts _ => 0x1B
  | .pand _ => 0x20
  | .por _ => 0x21
  | .pxor _ => 0x22
  | .pandn _ => 0x23
  | .pfirst _ => 0x24
  | .pcnt _ => 0x25
  | .scadd _ => 0x40
  | .scsub _ => 0x41
  | .wait _ => 0x42
  | .signal _ => 0x43
  | .hint _ => 0x48
  | .mcopy _ => 0x60
  | .calarm _ => 0x61
  | .gather _ => 0x62
  | .scatter _ => 0x63
  | .nsend _ => 0x80
  | .nrecv _ => 0x81
  | .ncoll _ => 0x82
  | .mload _ => 0xA0
  | .mstr _ => 0xA1
  | .mstrt _ => 0xA2
  | .mdrain _ => 0xA3
  | .mew _ => 0xA4
  | .vadd _ => 0xC0
  | .vsub _ => 0xC1
  | .vmul _ => 0xC2
  | .vfma _ => 0xC3
  | .vmin _ => 0xC4
  | .vmax _ => 0xC5
  | .vcmp _ => 0xC6
  | .vsel _ => 0xC7
  | .vand _ => 0xC8
  | .vor _ => 0xC9
  | .vxor _ => 0xCA
  | .vshl _ => 0xCB
  | .vshr _ => 0xCC
  | .vsra _ => 0xCD
  | .vsgn _ => 0xCE
  | .vcvt _ => 0xCF
  | .vrnd _ => 0xD0
  | .vtr _ => 0xD1
  | .vred _ => 0xD2
  | .vcpr _ => 0xD3
  | .vxpd _ => 0xD4
  | .vld _ => 0xD5
  | .vst _ => 0xD6
  | .vcpst _ => 0xD7
  | .vxpld _ => 0xD8
  | .vstat _ => 0xD9
  | .flags _ => 0xDA

/-- The fields of an instruction below its opcode. -/
def bitsOf : IsaOp → List (Nat × Nat)
  | .nop => [(56, 0)]
  | .stend => [(56, 0)]
  | .jobend => [(56, 0)]
  | .commit => [(56, 0)]
  | .slotpat x => fmtIBits x
  | .loop x => fmtLBits x
  | .rdspec x => fmtIBits x
  | .add x => fmtRBits x
  | .sub x => fmtRBits x
  | .mul x => fmtRBits x
  | .and x => fmtRBits x
  | .or x => fmtRBits x
  | .xor x => fmtRBits x
  | .shl x => fmtRBits x
  | .shr x => fmtRBits x
  | .sra x => fmtRBits x
  | .min x => fmtRBits x
  | .max x => fmtRBits x
  | .minu x => fmtRBits x
  | .maxu x => fmtRBits x
  | .cmp x => fmtRBits x
  | .sel x => fmtRBits x
  | .li x => fmtIBits x
  | .lih x => fmtIBits x
  | .lds x => fmtIBits x
  | .sts x => fmtIBits x
  | .pand x => fmtPBits x
  | .por x => fmtPBits x
  | .pxor x => fmtPBits x
  | .pandn x => fmtPBits x
  | .pfirst x => fmtPBits x
  | .pcnt x => fmtPBits x
  | .scadd x => fmtCBits x
  | .scsub x => fmtCBits x
  | .wait x => fmtCBits x
  | .signal x => fmtSBits x
  | .hint x => fmtHBits x
  | .mcopy x => fmtMBits x
  | .calarm x => fmtMBits x
  | .gather x => fmtMBits x
  | .scatter x => fmtMBits x
  | .nsend x => fmtMBits x
  | .nrecv x => fmtMBits x
  | .ncoll x => fmtMBits x
  | .mload x => fmtMloadBits x
  | .mstr x => fmtMstrBits x
  | .mstrt x => fmtMstrBits x
  | .mdrain x => fmtMdrainBits x
  | .mew x => fmtMewBits x
  | .vadd x => fmtVBits x
  | .vsub x => fmtVBits x
  | .vmul x => fmtVBits x
  | .vfma x => fmtVBits x
  | .vmin x => fmtVBits x
  | .vmax x => fmtVBits x
  | .vcmp x => fmtVBits x
  | .vsel x => fmtVBits x
  | .vand x => fmtVBits x
  | .vor x => fmtVBits x
  | .vxor x => fmtVBits x
  | .vshl x => fmtVBits x
  | .vshr x => fmtVBits x
  | .vsra x => fmtVBits x
  | .vsgn x => fmtVBits x
  | .vcvt x => fmtVBits x
  | .vrnd x => fmtVBits x
  | .vtr x => fmtVBits x
  | .vred x => fmtVBits x
  | .vcpr x => fmtVBits x
  | .vxpd x => fmtVBits x
  | .vld x => fmtVMBits x
  | .vst x => fmtVMBits x
  | .vcpst x => fmtVBBits x
  | .vxpld x => fmtVBBits x
  | .vstat x => fmtVstatBits x
  | .flags x => fmtFlagsBits x

/-- The 64-bit word of an instruction. -/
def encodeWord (op : IsaOp) : DWord :=
  BitVec.ofNat 64 (packBits ((8, opcodeOf op) :: bitsOf op))

/-- The instruction an opcode and its 56 lower bits spell; none for a reserved opcode or a set reserved bit (R180). -/
def decodeFields (opc n : Nat) : Option IsaOp :=
  match opc with
  | 0x00 => if n = 0 then some .nop else none
  | 0x01 => if n = 0 then some .stend else none
  | 0x02 => if n = 0 then some .jobend else none
  | 0x03 => if n = 0 then some .commit else none
  | 0x04 => (fmtIOf n).map .slotpat
  | 0x05 => (fmtLOf n).map .loop
  | 0x06 => (fmtIOf n).map .rdspec
  | 0x08 => (fmtROf n).map .add
  | 0x09 => (fmtROf n).map .sub
  | 0x0A => (fmtROf n).map .mul
  | 0x0B => (fmtROf n).map .and
  | 0x0C => (fmtROf n).map .or
  | 0x0D => (fmtROf n).map .xor
  | 0x0E => (fmtROf n).map .shl
  | 0x0F => (fmtROf n).map .shr
  | 0x10 => (fmtROf n).map .sra
  | 0x11 => (fmtROf n).map .min
  | 0x12 => (fmtROf n).map .max
  | 0x13 => (fmtROf n).map .minu
  | 0x14 => (fmtROf n).map .maxu
  | 0x15 => (fmtROf n).map .cmp
  | 0x16 => (fmtROf n).map .sel
  | 0x18 => (fmtIOf n).map .li
  | 0x19 => (fmtIOf n).map .lih
  | 0x1A => (fmtIOf n).map .lds
  | 0x1B => (fmtIOf n).map .sts
  | 0x20 => (fmtPOf n).map .pand
  | 0x21 => (fmtPOf n).map .por
  | 0x22 => (fmtPOf n).map .pxor
  | 0x23 => (fmtPOf n).map .pandn
  | 0x24 => (fmtPOf n).map .pfirst
  | 0x25 => (fmtPOf n).map .pcnt
  | 0x40 => (fmtCOf n).map .scadd
  | 0x41 => (fmtCOf n).map .scsub
  | 0x42 => (fmtCOf n).map .wait
  | 0x43 => (fmtSOf n).map .signal
  | 0x48 => (fmtHOf n).map .hint
  | 0x60 => (fmtMOf n).map .mcopy
  | 0x61 => (fmtMOf n).map .calarm
  | 0x62 => (fmtMOf n).map .gather
  | 0x63 => (fmtMOf n).map .scatter
  | 0x80 => (fmtMOf n).map .nsend
  | 0x81 => (fmtMOf n).map .nrecv
  | 0x82 => (fmtMOf n).map .ncoll
  | 0xA0 => (fmtMloadOf n).map .mload
  | 0xA1 => (fmtMstrOf n).map .mstr
  | 0xA2 => (fmtMstrOf n).map .mstrt
  | 0xA3 => (fmtMdrainOf n).map .mdrain
  | 0xA4 => (fmtMewOf n).map .mew
  | 0xC0 => (fmtVOf n).map .vadd
  | 0xC1 => (fmtVOf n).map .vsub
  | 0xC2 => (fmtVOf n).map .vmul
  | 0xC3 => (fmtVOf n).map .vfma
  | 0xC4 => (fmtVOf n).map .vmin
  | 0xC5 => (fmtVOf n).map .vmax
  | 0xC6 => (fmtVOf n).map .vcmp
  | 0xC7 => (fmtVOf n).map .vsel
  | 0xC8 => (fmtVOf n).map .vand
  | 0xC9 => (fmtVOf n).map .vor
  | 0xCA => (fmtVOf n).map .vxor
  | 0xCB => (fmtVOf n).map .vshl
  | 0xCC => (fmtVOf n).map .vshr
  | 0xCD => (fmtVOf n).map .vsra
  | 0xCE => (fmtVOf n).map .vsgn
  | 0xCF => (fmtVOf n).map .vcvt
  | 0xD0 => (fmtVOf n).map .vrnd
  | 0xD1 => (fmtVOf n).map .vtr
  | 0xD2 => (fmtVOf n).map .vred
  | 0xD3 => (fmtVOf n).map .vcpr
  | 0xD4 => (fmtVOf n).map .vxpd
  | 0xD5 => (fmtVMOf n).map .vld
  | 0xD6 => (fmtVMOf n).map .vst
  | 0xD7 => (fmtVBOf n).map .vcpst
  | 0xD8 => (fmtVBOf n).map .vxpld
  | 0xD9 => (fmtVstatOf n).map .vstat
  | 0xDA => (fmtFlagsOf n).map .flags
  | _ => none

/-- The instruction a 64-bit word spells; none where it spells none. -/
def decodeWord (w : DWord) : Option IsaOp :=
  decodeFields (w.toNat / 2 ^ 56) (w.toNat % 2 ^ 56)

/-- The command that a word spells by the bits of the table of operations: its rows give no bits, so no word spells one. -/
def decodeTableWord (_nbits _w : Nat) : Option Instr := none

end Sys2Proof
end

