-- ==== Sys2Proof/Machine/Formats.lean ====
section
/-!
DEFINITION. Number formats (spec/04_formats.md): exact magnitudes, decoding, the one rounding of R96, FP32
addition, Microscaling blocks and seeded rounding. Every function that raises numeric flags (R93) answers the
flags beside its result; the caller ORs them into the flag word of the issuing stream.
-/

namespace Sys2Proof.Machine

open Sys2Proof

/-! ### Numeric flags (R93) -/

def flNX : Flg := 0x01
def flUF : Flg := 0x02
def flOF : Flg := 0x04
def flDZ : Flg := 0x08
def flNV : Flg := 0x10
def flZI : Flg := 0x20
def flNF : Flg := 0x40

/-! ### Exact nonnegative magnitudes -/

/-- The exact magnitude `m * 2^e`. Every magnitude the arithmetic of R96 to R172 meets has this form. -/
structure Dy where
  m : Nat
  e : Int
deriving DecidableEq, Repr

/-- `m * 2^s`, rounded down to an integer. -/
def shiftFloor (m : Nat) (s : Int) : Nat :=
  if 0 ≤ s then m <<< s.toNat else m >>> (-s).toNat

def Dy.zero : Dy := ⟨0, 0⟩
def Dy.ofNat (n : Nat) : Dy := ⟨n, 0⟩
/-- `2^k`. -/
def Dy.pow2 (k : Int) : Dy := ⟨1, k⟩
def Dy.mul (x y : Dy) : Dy := ⟨x.m * y.m, x.e + y.e⟩
/-- `x * 2^k`. -/
def Dy.scale (x : Dy) (k : Int) : Dy := ⟨x.m, x.e + k⟩
/-- `floor_log2` of R96, for a nonzero magnitude. -/
def Dy.floorLog2 (x : Dy) : Int := (Nat.log2 x.m : Int) + x.e
/-- `floor_r (x / 2^k)` of R96. -/
def Dy.floorUnits (x : Dy) (k : Int) : Nat := shiftFloor x.m (x.e - k)
/-- `x` is a multiple of `2^k`. -/
def Dy.isMultiple (x : Dy) (k : Int) : Bool :=
  decide (k ≤ x.e) || x.m % 2 ^ (k - x.e).toNat == 0
def Dy.lt (x y : Dy) : Bool :=
  let k := min x.e y.e
  decide (x.m <<< (x.e - k).toNat < y.m <<< (y.e - k).toNat)
def Dy.le (x y : Dy) : Bool := !(y.lt x)
/-- Equality of values. -/
def Dy.same (x y : Dy) : Bool := x.le y && y.le x

/-- An exact signed value `n * 2^e`. -/
structure Sd where
  n : Int
  e : Int
deriving DecidableEq, Repr

def Sd.ofDy (neg : Bool) (x : Dy) : Sd := ⟨if neg then -(x.m : Int) else x.m, x.e⟩
def Sd.mag (x : Sd) : Dy := ⟨x.n.natAbs, x.e⟩
def Sd.isNeg (x : Sd) : Bool := decide (x.n < 0)
def Sd.add (x y : Sd) : Sd :=
  let k := min x.e y.e
  ⟨x.n * 2 ^ (x.e - k).toNat + y.n * 2 ^ (y.e - k).toNat, k⟩
def Sd.lt (x y : Sd) : Bool :=
  let k := min x.e y.e
  decide (x.n * 2 ^ (x.e - k).toNat < y.n * 2 ^ (y.e - k).toNat)
/-- Floor to an integer. -/
def Sd.floor (x : Sd) : Int :=
  if 0 ≤ x.e then x.n * 2 ^ x.e.toNat else x.n / 2 ^ (-x.e).toNat
/-- The integer nearest to the value, ties to even (`rint` of R172). -/
def Sd.rint (x : Sd) : Int :=
  if 0 ≤ x.e then x.n * 2 ^ x.e.toNat
  else
    let d : Int := 2 ^ (-x.e).toNat
    let q := x.n / d
    let r := x.n % d
    if 2 * r > d || (2 * r == d && q % 2 == 1) then q + 1 else q

end Sys2Proof.Machine

namespace Sys2Proof

/-! ### The formats (R85 to R89) -/

/-- The 4-bit format code of R85. -/
def Fmt.code : Fmt → BitVec 4
  | .fp32 => 0x0 | .fp19 => 0x1 | .bf16 => 0x2 | .fp16 => 0x3 | .e4m3 => 0x4 | .e5m2 => 0x5
  | .e3m2 => 0x6 | .e2m3 => 0x7 | .e2m1 => 0x8 | .e8m0 => 0x9 | .int32 => 0xA | .int16 => 0xB
  | .int8 => 0xC | .uint8 => 0xD | .int4 => 0xE

/-- The format of a 4-bit code; code 0xF names none (R85). -/
def Fmt.ofCode (c : BitVec 4) : Option Fmt :=
  match c.toNat with
  | 0 => some .fp32 | 1 => some .fp19 | 2 => some .bf16 | 3 => some .fp16 | 4 => some .e4m3
  | 5 => some .e5m2 | 6 => some .e3m2 | 7 => some .e2m3 | 8 => some .e2m1 | 9 => some .e8m0
  | 10 => some .int32 | 11 => some .int16 | 12 => some .int8 | 13 => some .uint8 | 14 => some .int4
  | _ => none

/-- The rounding mode of a 2-bit code; code 3 names none (R95). -/
def RMode.ofCode (c : BitVec 2) : Option RMode :=
  match c.toNat with
  | 0 => some .rne | 1 => some .rtz | 2 => some .seed | _ => none

/-- Exponent bits E (R87). E8M0 and the integers have none here. -/
def Fmt.ew : Fmt → Nat
  | .fp32 => 8 | .fp19 => 8 | .bf16 => 8 | .fp16 => 5 | .e4m3 => 4 | .e5m2 => 5 | .e3m2 => 3
  | .e2m3 => 2 | .e2m1 => 2 | _ => 0

/-- Fraction bits M (R87). -/
def Fmt.mw : Fmt → Nat
  | .fp32 => 23 | .fp19 => 10 | .bf16 => 7 | .fp16 => 10 | .e4m3 => 3 | .e5m2 => 2 | .e3m2 => 2
  | .e2m3 => 3 | .e2m1 => 1 | _ => 0

/-- Exponent bias (R87). -/
def Fmt.bias : Fmt → Int
  | .fp32 => 127 | .fp19 => 127 | .bf16 => 127 | .fp16 => 15 | .e4m3 => 7 | .e5m2 => 15
  | .e3m2 => 3 | .e2m3 => 1 | .e2m1 => 1 | _ => 0

/-- Unbiased exponent of the largest finite value (R87). -/
def Fmt.emax : Fmt → Int
  | .fp32 => 127 | .fp19 => 127 | .bf16 => 127 | .fp16 => 15 | .e4m3 => 8 | .e5m2 => 15
  | .e3m2 => 4 | .e2m3 => 2 | .e2m1 => 2 | _ => 0

/-- Largest finite value (R87): the largest significand at `emax`; E4M3 stops one short of it, at 448. -/
def Fmt.maxf (f : Fmt) : Machine.Dy :=
  match f with
  | .e4m3 => ⟨14, 5⟩
  | _ => ⟨2 ^ (f.mw + 1) - 1, f.emax - f.mw⟩

/-- Formats with infinities (R87). -/
def Fmt.hasInf : Fmt → Bool
  | .fp32 | .fp19 | .bf16 | .fp16 | .e5m2 => true
  | _ => false

/-- The floating formats of R87. -/
def Fmt.isFloat : Fmt → Bool
  | .fp32 | .fp19 | .bf16 | .fp16 | .e4m3 | .e5m2 | .e3m2 | .e2m3 | .e2m1 => true
  | _ => false

/-- The integer formats of R89. -/
def Fmt.isInt : Fmt → Bool
  | .int32 | .int16 | .int8 | .uint8 | .int4 => true
  | _ => false

/-- Stored width in bits (R85). -/
def Fmt.width : Fmt → Nat
  | .fp32 | .fp19 | .int32 => 32
  | .bf16 | .fp16 | .int16 => 16
  | .e4m3 | .e5m2 | .e8m0 | .int8 | .uint8 => 8
  | .e3m2 | .e2m3 => 6
  | .e2m1 | .int4 => 4

/-- Smallest and largest integer (R89). -/
def Fmt.imin : Fmt → Int
  | .int32 => -2147483648 | .int16 => -32768 | .int8 => -128 | .int4 => -8 | _ => 0
def Fmt.imax : Fmt → Int
  | .int32 => 2147483647 | .int16 => 32767 | .int8 => 127 | .uint8 => 255 | .int4 => 7 | _ => 0

/-- The canonical NaN (R87). The formats with no NaN have none; their code here is never asked for. -/
def Fmt.cnan : Fmt → Word
  | .fp32 | .fp19 => 0x7FC00000
  | .bf16 => 0x7FC0
  | .fp16 => 0x7E00
  | .e4m3 => 0x7F
  | .e5m2 => 0x7E
  | _ => 0

end Sys2Proof

namespace Sys2Proof.Machine

/-! ### Decoding (R96, R99) -/

/-- Class of a decoded value. -/
inductive Cls
  | fin | inf | nan
deriving DecidableEq, Repr

/-- The record `fval` of R96. -/
structure FVal where
  cls : Cls
  neg : Bool
  mag : Dy
deriving DecidableEq, Repr

def FVal.nan : FVal := ⟨.nan, false, Dy.zero⟩
def FVal.isZero (v : FVal) : Bool := v.cls == .fin && v.mag.m == 0
/-- `sv` of R98: the signed value of a finite `fval`. -/
def FVal.sv (v : FVal) : Sd := Sd.ofDy v.neg v.mag

/-- Bits `[lo + n - 1 : lo]` of a word, as a number. -/
def bitsAt (w : Nat) (lo n : Nat) : Nat := (w >>> lo) % 2 ^ n

/-- `is_nan` of R96. -/
def isNanFields (f : Fmt) (e m : Nat) : Bool :=
  match f with
  | .fp32 | .fp19 | .bf16 | .fp16 | .e5m2 => e == 2 ^ f.ew - 1 && m != 0
  | .e4m3 => e == 15 && m == 7
  | _ => false

/-- `decode_float` of R96. -/
def decodeFloat (f : Fmt) (b : Word) : FVal :=
  let w := if f = .fp19 then b.toNat >>> 13 else b.toNat
  let s := bitsAt w (f.ew + f.mw) 1 == 1
  let e := bitsAt w f.mw f.ew
  let m := bitsAt w 0 f.mw
  if isNanFields f e m then FVal.nan
  else if f.hasInf && e == 2 ^ f.ew - 1 then ⟨.inf, s, Dy.zero⟩
  else if e = 0 then ⟨.fin, s, ⟨m, 1 - f.bias - f.mw⟩⟩
  else ⟨.fin, s, ⟨2 ^ f.mw + m, (e : Int) - f.bias - f.mw⟩⟩

/-- A value of E8M0 (R88): 2^(e-127), or NaN for 0xFF. -/
def decodeE8M0 (b : Word) : FVal :=
  if b.toNat % 256 = 255 then FVal.nan else ⟨.fin, false, Dy.pow2 ((b.toNat % 256 : Nat) - 127)⟩

/-- The integer an integer format's bits stand for (R85, R89). -/
def decodeInt (f : Fmt) (b : Word) : Int :=
  match f with
  | .int32 => b.toInt
  | .int16 => (b.truncate 16).toInt
  | .int8 => (b.truncate 8).toInt
  | .uint8 => ((b.truncate 8).toNat : Int)
  | .int4 => (b.truncate 4).toInt
  | _ => 0

/-- `enc(f, x)` of R96: two's complement at the width of `f`. -/
def encInt (f : Fmt) (x : Int) : Word := BitVec.ofNat 32 ((BitVec.ofInt f.width x).toNat)

/-- `decode_operand` of R111: the block scale applied (R99). -/
def decodeOperand (f : Fmt) (b : Word) (scale : Option Byte) : FVal :=
  let v := decodeFloat f b
  match scale with
  | none => v
  | some x =>
    if x = 0xFF then FVal.nan
    else if v.cls = .fin then ⟨.fin, v.neg, v.mag.scale ((x.toNat : Int) - 127)⟩ else v

/-! ### Packing (R96) -/

/-- Places sign, exponent and fraction fields in the format's container. -/
def packFields (f : Fmt) (neg : Bool) (e m : Nat) : Word :=
  let w := (if neg then 2 ^ (f.ew + f.mw) else 0) + e * 2 ^ f.mw + m
  BitVec.ofNat 32 (if f = .fp19 then w <<< 13 else w)

/-- `pack(f, neg, m)` of R96, for an exactly representable magnitude. -/
def packFloat (f : Fmt) (neg : Bool) (x : Dy) : Word :=
  if x.m = 0 then packFields f neg 0 0
  else
    let emin : Int := 1 - f.bias
    let e := x.floorLog2
    if e < emin then packFields f neg 0 (x.floorUnits (emin - f.mw))
    else packFields f neg (e + f.bias).toNat (x.floorUnits (e - f.mw) - 2 ^ f.mw)

/-- `pack_inf(f, neg)` of R96. -/
def packInf (f : Fmt) (neg : Bool) : Word := packFields f neg (2 ^ f.ew - 1) 0

/-! ### Rounding (R96) -/

/-- `round_q` of R96 with quantum 2^k: the result in units of the quantum. -/
def roundUnits (x : Dy) (k : Int) (mode : RMode) (r : Word) : Nat :=
  let lo := x.floorUnits k
  if x.isMultiple k then lo
  else
    let den := 2 ^ (k - x.e).toNat
    let num := x.m % den
    match mode with
    | .rtz => lo
    | .rne => if 2 * num > den || (2 * num == den && lo % 2 == 1) then lo + 1 else lo
    | .seed => if num * 2 ^ 32 / den > r.toNat then lo + 1 else lo

/-- `round_float` of R96. -/
def roundFloat (f : Fmt) (v : FVal) (mode : RMode) (sat flush : Bool) (r : Word) : Word × Flg :=
  match v.cls with
  | .nan => (f.cnan, flNF)
  | .inf =>
    if f.hasInf then (packInf f v.neg, flNF)
    else if sat then (packFloat f v.neg f.maxf, flNV)
    else (f.cnan, flNV ||| flNF)
  | .fin =>
    if v.mag.m = 0 then (packFloat f v.neg Dy.zero, 0)
    else
      let emin : Int := 1 - f.bias
      let k := max v.mag.floorLog2 emin - f.mw
      let m : Dy := ⟨roundUnits v.mag k mode r, k⟩
      let inexact := !(v.mag.isMultiple k)
      let nx := if inexact then flNX else 0
      if f.maxf.lt m then
        if sat then (packFloat f v.neg f.maxf, flOF ||| flNX)
        else if f.hasInf then (packInf f v.neg, flOF ||| flNX ||| flNF)
        else (f.cnan, flOF ||| flNX ||| flNF)
      else
        let tiny := m.lt (Dy.pow2 emin)
        let uf := if tiny && inexact then flUF else 0
        if flush && tiny && m.m != 0 then (packFloat f v.neg Dy.zero, nx ||| uf ||| flUF ||| flNX)
        else (packFloat f v.neg m, nx ||| uf)

/-- `round_int` of R96. -/
def roundInt (f : Fmt) (v : FVal) (mode : RMode) (r : Word) : Word × Flg :=
  match v.cls with
  | .nan => (0, flNV)
  | .inf => (encInt f (if v.neg then f.imin else f.imax), flNV)
  | .fin =>
    let u : Int := roundUnits v.mag 0 mode r
    let nx := if v.mag.isMultiple 0 then 0 else flNX
    let x := if v.neg then -u else u
    if f.imax < x then (encInt f f.imax, nx ||| flNV)
    else if x < f.imin then (encInt f f.imin, nx ||| flNV)
    else (encInt f x, nx)

/-- An exact integer as an `fval` (integer-to-floating conversion, R97). -/
def FVal.ofInt (x : Int) : FVal := ⟨.fin, decide (x < 0), Dy.ofNat x.natAbs⟩

/-- Conversion of FP32 bits to an E8M0 code (R102). -/
def toE8M0 (v : FVal) : Word × Flg :=
  match v.cls with
  | .fin =>
    if v.mag.m = 0 then (0, flUF)
    else
      let e := v.mag.floorLog2
      let c := min (max e (-127)) 127
      let nx := if v.mag.same (Dy.pow2 c) then 0 else flNX
      let uf := if e < -127 then flUF else 0
      (BitVec.ofInt 32 (c + 127), nx ||| uf)
  | _ => (0xFF, flNF)

/-! ### FP32 arithmetic (R98) -/

/-- `round_rne_fp32` of R98. -/
def roundRneFp32 (v : FVal) : Word × Flg := roundFloat .fp32 v .rne false true 0

/-- The rounding of arithmetic in a computing format, FP32 or BF16 (R98, R163): RNE, no saturation, flush. -/
def roundArith (f : Fmt) (v : FVal) : Word × Flg := roundFloat f v .rne false true 0

/-- Exact signed sum of two finite values rounded once, with the zero-sum sign of R92. -/
def roundSum (f : Fmt) (x y : FVal) : Word × Flg :=
  let t := x.sv.add y.sv
  if t.n = 0 then (packFloat f (x.neg && y.neg) Dy.zero, 0)
  else roundArith f ⟨.fin, t.isNeg, t.mag⟩

/-- Addition of two decoded values in a computing format; at FP32 this is `add_fp32_rne` of R98. -/
def addVals (f : Fmt) (x y : FVal) : Word × Flg :=
  if x.cls = .nan ∨ y.cls = .nan then (f.cnan, flNF)
  else if x.cls = .inf ∧ y.cls = .inf ∧ x.neg ≠ y.neg then (f.cnan, flNV ||| flNF)
  else if x.cls = .inf then (packInf f x.neg, flNF)
  else if y.cls = .inf then (packInf f y.neg, flNF)
  else roundSum f x y

/-- `add_fp32_rne` of R98. -/
def addFp32 (a b : Word) : Word × Flg := addVals .fp32 (decodeFloat .fp32 a) (decodeFloat .fp32 b)

/-! ### Seeded rounding (R103) -/

/-- `mix64` of R103. -/
def mix64 (x : DWord) : DWord :=
  let x := (x ^^^ (x >>> 30)) * 0xBF58476D1CE4E5B9
  let x := (x ^^^ (x >>> 27)) * 0x94D049BB133111EB
  x ^^^ (x >>> 31)

/-- `seed_bits` of R103. The index is taken modulo 2^48, its width there. -/
def seedBits (seed step : DWord) (tensor : Word) (index : Nat) : Word :=
  let h := mix64 (seed ^^^ 0x9E3779B97F4A7C15)
  let h := mix64 (h ^^^ step)
  let h := mix64 (h ^^^ (tensor ++ (0 : Word)))
  let h := mix64 (h ^^^ BitVec.ofNat 64 (index % 2 ^ 48))
  (h >>> 32).truncate 32

/-! ### Microscaling blocks (R99 to R101) -/

/-- One step of rule 1's search (R100): does the largest element overflow at scale exponent `e`? -/
def mxOverflows (f : Fmt) (amax : Dy) (e : Int) : Bool :=
  let x := amax.scale (-e)
  let k := x.floorLog2 - f.mw
  f.maxf.lt ⟨roundUnits x k .rne 0, k⟩

/-- Rule 1 of R100 (FIT): raise the scale while the largest element overflows. `n` bounds the search. -/
def mxFit (f : Fmt) (amax : Dy) : Nat → Int → Int
  | 0, e => e
  | n + 1, e => if mxOverflows f amax e then mxFit f amax n (e + 1) else e

/-- `mx_scale` of R100 over the values of one block (padding zeros need not be listed). -/
def mxScale (f : Fmt) (xs : List FVal) (rule1 : Bool) : Byte :=
  if xs.any (fun v => v.cls != .fin) then 0xFF
  else
    let amax := xs.foldl (fun a v => if a.lt v.mag then v.mag else a) Dy.zero
    if amax.m = 0 then 0x00
    else
      let e := amax.floorLog2 - f.emax
      let e := if rule1 then mxFit f amax 4 e else e
      BitVec.ofInt 8 (min (max e (-127)) 127 + 127)

/-- Rounds each element of a block at scale code `x` (R100); `r i` is the seed word of element `i`. -/
def mxElems (f : Fmt) (x : Byte) (mode : RMode) (r : Nat → Word) : Nat → List FVal → List Word × Flg
  | _, [] => ([], 0)
  | i, v :: vs =>
    let (b, fl) := roundFloat f ⟨.fin, v.neg, v.mag.scale (127 - (x.toNat : Int))⟩ mode true false (r i)
    let (bs, fls) := mxElems f x mode r (i + 1) vs
    (b :: bs, fl ||| fls)

/-- `mx_encode` of R100: the scale, the element codes and the flags. -/
def mxEncode (f : Fmt) (xs : List FVal) (rule1 : Bool) (mode : RMode) (r : Nat → Word) :
    Byte × List Word × Flg :=
  let x := mxScale f xs rule1
  if x = 0xFF then
    (0xFF, xs.map (fun _ => 0), (if xs.any (fun v => v.cls == .inf) then flNV else 0) ||| flNF)
  else
    let (bs, fl) := mxElems f x mode r 0 xs
    (x, bs, fl)

end Sys2Proof.Machine
end

