-- ==== Sys2Proof/Machine/Accum.lean ====
section
/-!
DEFINITION. Block-aligned accumulation, split FP32, integer accumulation, the Z5 summation order, canonical trees,
lane multiply-add and the residue check (spec/05_accumulation.md, R34, R144, R152, R153, R162).
-/

namespace Sys2Proof.Machine

open Sys2Proof

/-! ### Products (R111) -/

/-- One operand element as read: its encoding and, in an MX tensor, its block scale. -/
structure El where
  bits : Word
  scale : Option Byte
deriving DecidableEq, Repr

/-- The record `pval` of R111. -/
structure PVal where
  cls : Cls
  neg : Bool
  mag : Dy
  zi : Bool
deriving DecidableEq, Repr

/-- `mul_term` of R111. -/
def mulTerm (x y : FVal) : PVal :=
  if x.cls = .nan ∨ y.cls = .nan then ⟨.nan, false, Dy.zero, false⟩
  else if x.cls = .inf ∨ y.cls = .inf then
    if x.isZero || y.isZero then ⟨.nan, false, Dy.zero, true⟩
    else ⟨.inf, x.neg != y.neg, Dy.zero, false⟩
  else ⟨.fin, x.neg != y.neg, x.mag.mul y.mag, false⟩

/-- `term` of R111. -/
def termOf (fa fb : Fmt) (p : El × El) : PVal :=
  mulTerm (decodeOperand fa p.1.bits p.1.scale) (decodeOperand fb p.2.bits p.2.scale)

/-! ### The block sum (R110, R112) -/

/-- The window W of R110 for two floating operand formats: that of the wider. -/
def windowOf (fa fb : Fmt) : Int :=
  let w := max fa.width fb.width
  if 16 ≤ w then 40 else if w = 8 then 32 else 24

/-- The largest product exponent of a block, over its nonzero products. -/
def blockTop (ts : List PVal) : Option Int :=
  ts.foldl (fun o t =>
    if t.mag.m = 0 then o
    else match o with
      | none => some t.mag.floorLog2
      | some e => some (max e t.mag.floorLog2)) none

/-- The aligned integer sum `s` of R112 with quantum 2^k. -/
def blockInt (ts : List PVal) (k : Int) : Int :=
  ts.foldl (fun s t => if t.neg then s - (t.mag.floorUnits k : Int) else s + t.mag.floorUnits k) 0

/-- `baa_block` of R112. -/
def baaBlock (ts : List PVal) (w : Int) : Word × Flg :=
  let zi := if ts.any (fun t => t.zi) then flZI ||| flNV else 0
  let nan := ts.any (fun t => t.cls == .nan)
  let ninf := ts.any (fun t => t.cls == .inf && t.neg)
  let pinf := ts.any (fun t => t.cls == .inf && !t.neg)
  let both := if pinf && ninf then flNV else 0
  if nan || (pinf && ninf) then (0x7FC00000, zi ||| both ||| flNF)
  else if pinf || ninf then (packInf .fp32 ninf, zi ||| flNF)
  else
    match blockTop ts with
    | none => (packFloat .fp32 (ts.all (fun t => t.neg)) Dy.zero, zi)
    | some e =>
      let k := e - w
      let s := blockInt ts k
      if s = 0 then (0, zi)
      else
        let (b, fl) := roundRneFp32 ⟨.fin, decide (s < 0), ⟨s.natAbs, k⟩⟩
        (b, zi ||| fl)

/-! ### Blocks and their order (R108, R115 to R117) -/

/-- Cuts a list into blocks of 64 (R108); `fuel` at least the number of blocks. -/
def blocksOf {α : Type} : Nat → List α → List (List α)
  | 0, _ => []
  | _, [] => []
  | n + 1, x :: xs => (x :: xs).take 64 :: blocksOf n ((x :: xs).drop 64)

/-- The blocks of a list of terms. -/
def blocks64 {α : Type} (xs : List α) : List (List α) := blocksOf (xs.length / 64 + 1) xs

/-- Addition of two INT32 values that saturates and raises OF when it clips (`add_i32_sat` of R125, R117). -/
def addI32Sat (x y : Word) : Word × Flg :=
  let t := x.toInt + y.toInt
  if 2147483647 < t then (0x7FFFFFFF, flOF)
  else if t < -2147483648 then (0x80000000, flOF)
  else (BitVec.ofInt 32 t, 0)

/-- The addition that joins block sums and partials: FP32 or INT32. -/
def accAdd (int : Bool) (x y : Word) : Word × Flg := if int then addI32Sat x y else addFp32 x y

/-- Block sums enter an accumulator one at a time; an empty accumulator takes the first unchanged (R115). -/
def accFold (int : Bool) : Option Word → List (Word × Flg) → Option Word × Flg
  | acc, [] => (acc, 0)
  | none, (s, f) :: ss =>
    let (r, fl) := accFold int (some s) ss
    (r, f ||| fl)
  | some a, (s, f) :: ss =>
    let (v, g) := accAdd int a s
    let (r, fl) := accFold int (some v) ss
    (r, f ||| g ||| fl)

/-- The exact sum of an integer block (R117), which fits in 32 bits. -/
def intBlock (fa fb : Fmt) (ps : List (El × El)) : Word × Flg :=
  (BitVec.ofInt 32 (ps.foldl (fun s p => s + decodeInt fa p.1.bits * decodeInt fb p.2.bits) 0), 0)

/-! ### Split FP32 (R118 to R120) -/

/-- Pieces `i`, `i + 1`, … of a remaining magnitude; piece numbers at or beyond `n` are zero (R118). -/
def pieceMags (n : Nat) : Nat → Nat → Dy → List Dy
  | 0, _, _ => []
  | fuel + 1, i, r =>
    if i < n ∧ r.m ≠ 0 then
      let k := max r.floorLog2 (-126) - 7
      let u := r.floorUnits k
      let rest := (Sd.ofDy false r).add (Sd.ofDy true ⟨u, k⟩)
      ⟨u, k⟩ :: pieceMags n fuel (i + 1) rest.mag
    else Dy.zero :: pieceMags n fuel (i + 1) r

/-- `split_pieces` of R118 for a finite value. -/
def splitPieces (x : FVal) (n : Nat) : List FVal :=
  (pieceMags n 3 0 x.mag).map (fun m => ⟨.fin, x.neg, m⟩)

/-- Piece `i` of a value. -/
def splitPiece (x : FVal) (n i : Nat) : FVal := (splitPieces x n).getD i ⟨.fin, x.neg, Dy.zero⟩

/-- `split_term` of R120. -/
def splitTerm (xa xb : Word) (i j n : Nat) : PVal :=
  let x := decodeFloat .fp32 xa
  let y := decodeFloat .fp32 xb
  if x.cls ≠ .fin ∨ y.cls ≠ .fin then
    if i = 0 ∧ j = 0 then mulTerm x y else ⟨.fin, false, Dy.zero, false⟩
  else mulTerm (splitPiece x n i) (splitPiece y n j)

/-- The pass order of R119. -/
def splitPasses (n : Nat) : List (Nat × Nat) :=
  if n = 2 then [(1, 0), (0, 1), (0, 0)]
  else [(2, 0), (1, 1), (0, 2), (1, 0), (0, 1), (0, 0)]

/-! ### One dot product (R115, R117, R120, R34) -/

/-- The summation order in force (R32). -/
inductive SumOrder
  | canonical
  | z5 (cores : Nat)
deriving DecidableEq, Repr

/-- Block sums of one run of blocks, in the order in which they enter the accumulator. `pieces` is 0 for a plain
instruction, else the piece count of a split instruction. -/
def blockSums (fa fb : Fmt) (pieces : Nat) (bs : List (List (El × El))) : List (Word × Flg) :=
  if fa.isInt then bs.map (intBlock fa fb)
  else if pieces = 0 then bs.map (fun b => baaBlock (b.map (termOf fa fb)) (windowOf fa fb))
  else (splitPasses pieces).flatMap (fun ij =>
    bs.map (fun b => baaBlock (b.map (fun p => splitTerm p.1.bits p.2.bits ij.1 ij.2 pieces)) 56))

/-- The runs of blocks of the C Z5 cores (R34): `per` blocks each, empty runs left out. -/
def z5Runs {α : Type} (per : Nat) : Nat → List α → List (List α)
  | 0, _ => []
  | _, [] => []
  | c + 1, x :: xs => (x :: xs).take per :: z5Runs per c ((x :: xs).drop per)

/-- The value and flags of one output element: `acc` is absent where the instruction begins an accumulation. -/
def dotElem (ord : SumOrder) (fa fb : Fmt) (pieces : Nat) (acc : Option Word) (ps : List (El × El)) : Word × Flg :=
  let bs := blocks64 ps
  match ord with
  | .canonical =>
    let (r, f) := accFold fa.isInt acc (blockSums fa fb pieces bs)
    (r.getD 0, f)
  | .z5 c =>
    let per := (bs.length + c - 1) / c
    let parts := (z5Runs per c bs).map (fun run =>
      let (v, f) := accFold fa.isInt none (blockSums fa fb pieces run)
      (v.getD 0, f))
    let (r, f) := accFold fa.isInt acc parts
    (r.getD 0, f)

/-- The first zero-times-infinity term of a block: its index (R121). A split instruction meets them in pass (0,0). -/
def firstZi (fa fb : Fmt) (pieces : Nat) (b : List (El × El)) : Option Nat :=
  if fa.isInt then none
  else b.findIdx? (fun p =>
    (if pieces = 0 then termOf fa fb p else splitTerm p.1.bits p.2.bits 0 0 pieces).zi)

/-! ### Element-wise products and lane arithmetic (R144, R162, R163) -/

/-- `ew_product` of R144. -/
def ewProduct (fa fb : Fmt) (xa xb : Word) : Word × Flg :=
  let p := mulTerm (decodeFloat fa xa) (decodeFloat fb xb)
  if p.zi then (0x7FC00000, flNV ||| flNF)
  else match p.cls with
    | .nan => (0x7FC00000, flNF)
    | .inf => (packInf .fp32 p.neg, flNF)
    | .fin => roundRneFp32 ⟨.fin, p.neg, p.mag⟩

/-- Fused multiply-add with one rounding in a computing format; at FP32 this is `fma_fp32` of R162, at BF16 the
fused multiply-add of R163. -/
def fmaVals (f : Fmt) (x y z : FVal) : Word × Flg :=
  let p := mulTerm x y
  if p.zi then (f.cnan, flNV ||| flNF)
  else if p.cls = .nan ∨ z.cls = .nan then (f.cnan, flNF)
  else if p.cls = .inf ∧ z.cls = .inf ∧ p.neg ≠ z.neg then (f.cnan, flNV ||| flNF)
  else if p.cls = .inf then (packInf f p.neg, flNF)
  else if z.cls = .inf then (packInf f z.neg, flNF)
  else roundSum f ⟨.fin, p.neg, p.mag⟩ z

/-- `fma_fp32` of R162. -/
def fmaFp32 (a b c : Word) : Word × Flg :=
  fmaVals .fp32 (decodeFloat .fp32 a) (decodeFloat .fp32 b) (decodeFloat .fp32 c)

/-- `mul_fp32` of R162: adding −0 keeps the product's sign. -/
def mulFp32 (a b : Word) : Word × Flg := fmaFp32 a b 0x80000000

/-! ### Canonical trees (R124, R125) -/

/-- `combine` of R125, over the addition of the operation. -/
def combineNode (cmb : Word → Word → Word × Flg) : Option Word → Option Word → Option Word × Flg
  | none, y => (y, 0)
  | x, none => (x, 0)
  | some x, some y =>
    let (v, f) := cmb x y
    (some v, f)

/-- One level of the tree: neighbours combine in pairs. -/
def treeLevel (cmb : Word → Word → Word × Flg) : List (Option Word) → List (Option Word) × Flg
  | x :: y :: rest =>
    let (n, f) := combineNode cmb x y
    let (ns, fs) := treeLevel cmb rest
    (n :: ns, f ||| fs)
  | xs => (xs, 0)

/-- Levels until one node is left; `fuel` at least the number of levels. -/
def treeLevels (cmb : Word → Word → Word × Flg) : Nat → List (Option Word) → Option Word × Flg
  | 0, ns => (ns.headD none, 0)
  | fuel + 1, ns =>
    match ns with
    | [] => (none, 0)
    | [x] => (x, 0)
    | _ =>
      let (ns', f) := treeLevel cmb ns
      let (r, g) := treeLevels cmb fuel ns'
      (r, f ||| g)

/-- The least `k` with `n <= 2^k`. -/
def levelsFor (n : Nat) : Nat := if n ≤ 1 then 0 else Nat.log2 (n - 1) + 1

/-- The root of the tree over the contributions of one element, padded with absent shards to a power of two. -/
def treeRoot (cmb : Word → Word → Word × Flg) (cs : List (Option Word)) : Option Word × Flg :=
  let k := levelsFor cs.length
  treeLevels cmb (k + 1) (cs ++ List.replicate (2 ^ k - cs.length) none)

/-- The value at the end of a combining operation: +0 or 0 where every contribution is absent, and the canonical
NaN for every NaN of an FP32 tree (R125). -/
def treeEnd (int : Bool) (o : Option Word) : Word :=
  match o with
  | none => 0
  | some v => if !int && (decodeFloat .fp32 v).cls == .nan then 0x7FC00000 else v

/-- `tree_reduce` of R125. -/
def treeReduce (int : Bool) (cs : List (Option Word)) : Word × Flg :=
  let (r, f) := treeRoot (accAdd int) cs
  (treeEnd int r, f)

/-- The chain of a collective in Z5 order (R34): ascending shard index, absent ones skipped. -/
def chainReduce (int : Bool) (cs : List (Option Word)) : Word × Flg :=
  let (r, f) := accFold int none (cs.filterMap (fun o => o.map (fun v => (v, 0))))
  (treeEnd int r, f)

/-! ### The residue check (R152, R153) -/

def m31 : Nat := 2 ^ 31 - 1

/-- Sign, significand and exponent of the least significant bit of a finite value of a format, scaled by 2^x (R152). -/
def sigVal (f : Fmt) (v : FVal) (x : Int) : Bool × Nat × Int :=
  if v.mag.m = 0 then (v.neg, 0, 0)
  else
    let u := max (v.mag.floorLog2 - x) (1 - f.bias) - f.mw + x
    (v.neg, v.mag.floorUnits u, u)

/-- `sig_parts` of R152: sign, significand and exponent of its least significant bit. -/
def sigParts (f : Fmt) (e : El) : Bool × Nat × Int :=
  sigVal f (decodeOperand f e.bits e.scale) (match e.scale with
    | none => 0
    | some s => (s.toNat : Int) - 127)

/-- The significand of a product and the exponent of its least significant bit. -/
def sigMul (a b : Bool × Nat × Int) : Bool × Nat × Int := (a.1 != b.1, a.2.1 * b.2.1, a.2.2 + b.2.2)

/-- The significands and exponents of a term's product. -/
def sigProduct (fa fb : Fmt) (p : El × El) : Bool × Nat × Int := sigMul (sigParts fa p.1) (sigParts fb p.2)

/-- The same of a term of a split pass: the pieces of R118, which are BF16 values, stand in place of the operands. -/
def sigSplit (n i j : Nat) (p : El × El) : Bool × Nat × Int :=
  sigMul (sigVal .bf16 (splitPiece (decodeFloat .fp32 p.1.bits) n i) 0) (sigVal .bf16 (splitPiece (decodeFloat .fp32 p.2.bits) n j) 0)

/-- The exponent of the largest product. -/
def sigTop (ts : List (Bool × Nat × Int)) : Option Int :=
  ts.foldl (fun (o : Option Int) t =>
    if t.2.1 = 0 then o
    else
      let e := (Nat.log2 t.2.1 : Int) + t.2.2
      match o with
      | none => some e
      | some x => some (max x e)) none

/-- The residue that the products of a finite block predict, `residue_predict` of R152. -/
def residueOf (ts : List (Bool × Nat × Int)) (w : Int) : Nat :=
  match sigTop ts with
  | none => 0
  | some e =>
    let base := e - w - 24
    let r := ts.foldl (fun (r : Int) t =>
      if t.2.1 ≠ 0 ∧ base ≤ t.2.2 then
        let v : Int := ((t.2.1 % m31 : Nat) : Int) * 2 ^ ((t.2.2 - base) % 31).toNat
        if t.1 then r - v else r + v
      else r) 0
    (r % (m31 : Int)).toNat

/-- `residue_predict` of R152 for a finite floating block. -/
def residuePredict (fa fb : Fmt) (ps : List (El × El)) (w : Int) : Nat := residueOf (ps.map (sigProduct fa fb)) w

/-- The prediction for an integer block (R152). -/
def residuePredictInt (fa fb : Fmt) (ps : List (El × El)) : Nat :=
  ((ps.foldl (fun (s : Int) p => s + decodeInt fa p.1.bits * decodeInt fb p.2.bits) 0) % (m31 : Int)).toNat

/-- `residue_observed` of R152. -/
def residueObserved (s g : Int) : Nat := ((s * 2 ^ 24 + g) % (m31 : Int)).toNat

/-- The guard sum g of R152 over a block's terms, each with the exponent of its product's least significant bit, for a top exponent `e`. -/
def guardSum (ts : List (PVal × Bool × Nat × Int)) (e w : Int) : Int :=
  ts.foldl (fun (g : Int) t =>
    if t.1.mag.m ≠ 0 ∧ e - w - 24 ≤ t.2.2.2 then
      let v : Int := (t.1.mag.floorUnits (e - w - 24) : Int) - (t.1.mag.floorUnits (e - w) : Int) * 2 ^ 24
      if t.1.neg then g - v else g + v
    else g) 0

/-- The residue that the array delivers for a finite block where nothing is wrong (R152). -/
def residueSound (ts : List (PVal × Bool × Nat × Int)) (w : Int) : Nat :=
  match blockTop (ts.map (·.1)) with
  | none => 0
  | some e => residueObserved (blockInt (ts.map (·.1)) (e - w)) (guardSum ts e w)

/-- An infinite, invalid or NaN term takes the block out of the residue check (R153). -/
def blockFinite (ts : List PVal) : Bool := ts.all (fun t => t.cls == .fin)

/-- The class code of R155 that the operand encodings of a block predict (R153): 0 finite, 1 with the sign in
bit [3] for −0 alone, 2 and 3 for the infinities, 4 for NaN. -/
def classPredict (ts : List PVal) : Nat :=
  let ninf := ts.any (fun t => t.cls == .inf && t.neg)
  let pinf := ts.any (fun t => t.cls == .inf && !t.neg)
  if ts.any (fun t => t.cls == .nan) || (ninf && pinf) then 4
  else if pinf then 2
  else if ninf then 3
  else if ts.all (fun t => t.mag.m == 0 && t.neg) then 9
  else 0

end Sys2Proof.Machine
end

