-- ==== Sys2Proof/Machine/State.lean ====
section
/-!
DEFINITION. The state of the block, as plain data: everything spec/ gives the device, and the queue of commands that
wait.
-/

namespace Sys2Proof.Machine

open Sys2Proof

/-- A sparse table: strictly rising keys, no entry equal to the table's default. `Machine/Mem.lean` holds its two
operations; every memory and every array of registers of the device is one. -/
abbrev Tbl (α : Type) := List (Nat × α)

/-! ### One core -/

/-- A wait that holds a stream (R195): counter, condition, operand and timeout in stroke periods. -/
structure WaitRec where
  ctr : Nat
  cond : Nat
  operand : Word
  tmo : Nat
deriving DecidableEq, Repr

/-- What a stream is doing (R70, R71, R176). -/
inductive Phase
  /-- Issuing in its slots. -/
  | run
  /-- Held by a WAIT whose condition has not been met. -/
  | waiting (w : WaitRec)
  /-- STEND issued; nothing more until the next boundary (R186). -/
  | ended
  /-- Halted for the rest of the job: by JOBEND, or by a timeout or a fetch beyond the store (R78, R181, R187). -/
  | halted (jobend : Bool)
deriving DecidableEq, Repr

/-- One nested loop of a stream (R190): word indices of the first and last body words, count, current iteration and
index scalar. -/
structure LoopFrame where
  first : Nat
  last : Nat
  count : Nat
  iter : Nat
  sd : Nat
deriving DecidableEq, Repr

/-- The registers one stream owns (R158). -/
structure StreamSt where
  /-- Program counter, a word index; 32 bits (R181). -/
  pc : Word
  /-- s1 to s63, 64 bits each; s0 has no storage (R158). -/
  sreg : Tbl DWord
  /-- p1 to p7, 1,024 bits each; p0 has no storage (R158). -/
  preg : Tbl (BitVec 1024)
  /-- v0 to v31, 64 words each, word `w` of register `r` at key 64 r + w (R159). -/
  vreg : Tbl Word
  /-- Numeric flag word (R93). -/
  flags : Flg
  /-- Flags raised by instructions issued after a FLAGS that still waits, with their issue numbers (R229). -/
  lateFlags : List (Nat × Flg)
  /-- Nested loops, innermost first, at most four (R190). -/
  loops : List LoopFrame
  phase : Phase
deriving DecidableEq, Repr

/-- Side bits of a granule of core memory (R247). -/
structure Gran where
  v : Bool
  gen : BitVec 4
  left : BitVec 4
deriving DecidableEq, Repr

/-- Generation state of a region (R248). -/
structure RgnGen where
  wg : BitVec 4
  rpF : BitVec 4
  rpB : BitVec 4
  rpU : BitVec 4
deriving DecidableEq, Repr

/-- Element format of an accumulator tile (R140). -/
inductive TileFmt
  | none | fp32 | int32
deriving DecidableEq, Repr

/-- One matrix engine: its stationary tile and accumulator tiles (R131, R140). -/
structure Engine where
  /-- Format tag; `none` after job start (R131). -/
  tag : Option Fmt
  mx : Bool
  pieces : Nat
  k : Nat
  n : Nat
  /-- Stationary element (kk, c) at key 256 c + kk: its encoding as loaded. The piece planes of a split tile are a function
  of it (R118). -/
  elems : Tbl Word
  /-- Scale of MX block m of column c at key 8 c + m. -/
  scales : Tbl Byte
  /-- Element (row, col) of tile t at key 16384 t + 64 row + col (R140). -/
  tiles : Tbl Word
  /-- Element format of each tile. -/
  tileFmt : Tbl TileFmt
deriving DecidableEq, Repr

/-- A block that a residue or class check has read (R155): its place in the order of block, row and column, its capture words, and the two
values. -/
structure ResHit where
  block : Nat
  row : Nat
  col : Nat
  cls : Bool
  cap0 : Nat
  cap1 : Nat
  observed : Nat
  predicted : Nat
  tile : Nat
deriving DecidableEq, Repr

/-- How far a held instruction has come (R142, R201, R216, R249): rows, groups or granules it is done with; what its accesses since then have
delivered, the last one first; the flags, the zero-times-infinity blocks and the checked blocks of what it has done. -/
structure Progress where
  pos : Nat
  log : List (List Byte)
  /-- Its count among those that have reached the head of their engine's queue in the stroke (R383), once it has. -/
  ord : Option Nat
  fl : Flg
  ziCount : Nat
  /-- The first such block in the order of R121: block, row, output, and its capture words. -/
  ziFirst : Option (Nat × Nat × Nat × List Nat)
  res : List ResHit
deriving DecidableEq, Repr

/-- An instruction as issued: its stream, its place in the core's issue order, the step and stroke in force, the scalar and predicate
registers of the stream as they stood at issue (operands are read at issue, R165, R208), the faulty blocks that come with it, and how
far it has come. -/
structure Issue where
  st : Stream
  op : IsaOp
  seq : Nat
  step : DWord
  stroke : DWord
  sreg : Tbl DWord
  preg : Tbl (BitVec 1024)
  errs : List BlockErr
  prog : Progress
deriving DecidableEq, Repr

/-- An armed ticket (R202): buffer reference, whether the reference is in range, completion counter, the stream that armed it. -/
structure Ticket where
  buf : DWord
  ok : Bool
  ctr : Option Nat
  st : Stream
deriving DecidableEq, Repr

/-- A narrow-path request of GATHER or SCATTER (R203, R279) whose rows are still to be moved. -/
structure NarrowReq where
  scatter : Bool
  table : Nat
  /-- Row indices in list order. -/
  idx : List Word
  /-- The packed rows of a SCATTER, as read from core memory; empty for GATHER. -/
  data : List Byte
  /-- Core-memory reference of the packed rows. -/
  ref : DWord
  refOk : Bool
  /-- Grains already served, with what a GATHER has of them: grain g of row r of a table of m grains a row has number m r + g. -/
  got : List (Nat × List Byte)
  ctr : Option Nat
  st : Stream
deriving DecidableEq, Repr

/-- The first lockstep mismatch of a stroke (R175, R383): stream, what the capture words hold of it, and the issue ordinal. -/
structure LockHit where
  stream : Nat
  cap0 : Word
  copy0 : Word
  copy1 : Word
  pc : Word
  ordinal : Nat
deriving DecidableEq, Repr

/-- Physical core: everything that moves with a virtual position at a rotation (R41, R234), and the work in progress. -/
structure Core where
  /-- 24 MiB of core memory by byte offset (R183, R497). -/
  cm : List Host.Cell
  /-- Valid bit, generation tag and reads-left count of each granule (R247). -/
  gran : Tbl Gran
  /-- WG and RP of each region (R248). -/
  rgn : Tbl RgnGen
  /-- Instruction store, 16,384 words (R181). -/
  istore : Tbl DWord
  f : StreamSt
  b : StreamSt
  u : StreamSt
  /-- Sync counters 0 to 4095 (R76). -/
  ctr : Tbl Word
  /-- Sum of the additions to each counter since job start (R369). -/
  added : Tbl Nat
  /-- ME0 to ME3. -/
  eng : Tbl Engine
  /-- Slot pattern in force and the one SLOTPAT has set for the next stroke (R69, R189). -/
  slots : BitVec 16
  nextSlots : Option (BitVec 16)
  /-- Instructions whose access, queue or target unit holds them, in issue order (R184, R200, R249). -/
  held : List Issue
  /-- Issue number of the next instruction. -/
  seq : Nat
  /-- Armed tickets by number (R202). -/
  tickets : Tbl (Option Ticket)
  /-- Landing buffer: read data that reached an unarmed ticket, with its granule index (R202). -/
  landing : List (Nat × Nat × List Byte)
  /-- Narrow-path requests in progress, in queue order (R203). -/
  narrow : List NarrowReq
  /-- COMMITs issued in the current stroke (R188). -/
  commits : Nat
  /-- First lockstep mismatch of the current stroke, waiting for the boundary, and the last cycle of it that has been counted (R175). -/
  lockHit : Option LockHit
  lockCycle : Option Word
deriving DecidableEq, Repr

/-! ### The on-die network -/

/-- An item in transit between cores of the device (R197, R201). -/
inductive Item
  /-- One 64-byte granule for an offset of the destination core's memory. -/
  | granule (off : Nat) (bytes : List Byte)
  /-- A counter update of a network signal or a delivery (R197, R201). -/
  | counter (ctr : Nat) (d : Word)
  /-- An update of a counter of position `v` as an MU update, once the items before it have landed (R206). -/
  | done (v ctr : Nat)
  /-- The result and trailers of a collective of a step are in place for its core number `k` (R206, R501). -/
  | written (coll : Word) (step : DWord) (k : Nat)
  /-- The included-set bitmaps of a collective are in place for its core number `k`; the result and trailers follow (R314). -/
  | mapped (coll : Word) (step : DWord) (k : Nat)
deriving DecidableEq, Repr

/-- The command an operation belongs to: its tag and opcode (R445). -/
structure CmdRef where
  tag : Word
  opcode : Nat
deriving DecidableEq, Repr

/-! ### HBM3E and the bulk tier (spec/11_memory.md) -/

/-- How a stored codeword stands (R275, R279, R282): as its memory does, never written since training or the loss; written with check bytes
over the address (a >> 6) and of the class it had; or with check bytes that fail, and which of its bytes have been rewritten since. -/
inductive CwMark
  | asIs
  | code (cw : Nat) (correct : Bool)
  | bad (fresh : Nat)
deriving DecidableEq, Repr

/-- One logical HBM channel (R261, R264). -/
structure Chan where
  phys : Nat
  /-- The position whose calendar serves it (R266): the pseudo-channel that backed it when N was fixed, or, where that one was
  replaced at BOOT, the one a reserve stands in for. -/
  home : Nat
  /-- A physical pseudo-channel backs it (R283). -/
  backed : Bool
  /-- The reserve it is being copied onto (R281). -/
  migrating : Option Nat
  /-- Codewords the migration has copied (R281). -/
  copied : Nat
  /-- The copy is complete and HBM_LMAP switches at the next boundary (R281). -/
  migrated : Bool
  /-- Its contents were lost: the first of the free values that stand for them (R282, R286). -/
  lost : Option Nat
  /-- How codeword k stands. -/
  mark : Tbl CwMark
deriving DecidableEq, Repr

/-- Status of a physical pseudo-channel (R284) and its calendar (R265, R270). -/
structure PcSt where
  ceCnt : BitVec 16
  ueCnt : BitVec 8
  fail : Bool
  trainFail : Bool
  /-- The channel stopped responding in the stroke in progress; it is replaced at the next boundary (R282). -/
  lost : Bool
  /-- Cycles by which it runs behind its calendar (R270), and whether 0x0407 has been raised in this stroke. -/
  lag : Nat
  lagTold : Bool
  /-- Job stroke number whose segment it runs, the word index of the next run entry, and how many data slots of that entry and of
  the segment have run. -/
  stroke : DWord
  entry : Nat
  used : Nat
  ran : Nat
  /-- Codewords of each bank that the scrub has taken in the pass under way (R273). -/
  scrub : Tbl Nat
deriving DecidableEq, Repr

/-- A stack (R284). -/
structure StackSt where
  temp : BitVec 8
  stage : BitVec 2
  /-- Stage the last reading asks for, taken at the next boundary. -/
  want : BitVec 2
  out : Bool
  trained : Bool
  /-- A retrain command has come, and its training runs (R286, R290). -/
  retraining : Bool
deriving DecidableEq, Repr

/-- A ticket-table entry of a core (R267). -/
structure TicketDef where
  bulk : Bool
  write : Bool
  addr : Nat
  len : Nat
deriving DecidableEq, Repr

/-- A narrow-path table of a core (R277): base, grains per row, rows. -/
structure NarrowDef where
  base : Nat
  grains : Nat
  rows : Nat
deriving DecidableEq, Repr

/-- Read data on its way to a core (R268). -/
structure Delivery where
  pc : Nat
  bulk : Bool
  core : Nat
  ticket : Nat
  grain : Nat
  bytes : List Byte
deriving DecidableEq, Repr

/-- The memories outside the die. -/
structure MemSt where
  /-- HBM bytes, by logical channel and offset in it: key 2,500,000,000 l + offset (R262). -/
  hbm : List Host.Cell
  /-- Bulk bytes, by channel and offset: key 2^37 l + offset (R288). -/
  bulk : List Host.Cell
  /-- How the bulk codewords stand: key of the first byte / 64 (R275, R288). -/
  blkMarks : Tbl CwMark
  /-- Logical channels in service N (R261). -/
  nLc : Nat
  chans : Tbl Chan
  pcs : Tbl PcSt
  stks : Tbl StackSt
  /-- Calendar memory, 64 KiB for each pseudo-channel, and after them for each bulk channel: key 65,536 p + offset (R266). -/
  cal : List Host.Cell
  /-- First word of segment s of channel p: key 256 p + s (R266). -/
  segs : Tbl Nat
  /-- The sequence table (R266). -/
  seqTab : List Nat
  /-- Ticket tables: key 1,024 v + ticket (R267). -/
  ticketDefs : Tbl (Option TicketDef)
  /-- Codewords of each ticket's run already moved on each channel: key 512 (1,024 v + ticket) + channel (R267). -/
  moved : Tbl Nat
  /-- Narrow-path tables: key 64 v + table (R277). -/
  narrowDefs : Tbl (Option NarrowDef)
  /-- Read data in flight (R268). -/
  deliveries : List Delivery
deriving DecidableEq, Repr

/-! ### Fabric ports, Igsum transport and collectives (spec/12_fabric.md) -/

/-- A port's link state (R293 to R295, R305). -/
structure PortSt where
  up : Bool
  keepalive : Bool
  llr : Bool
  /-- The spare lane in use: none, or the lane it replaces (0 or 1). -/
  spare : Option Nat
  /-- A retrain onto the spare is in progress. -/
  retraining : Bool
  /-- Frames sent so far, which number them, and how often each has been retransmitted (R305). -/
  txCount : Nat
  tries : Tbl Nat
  /-- Traffic classes a pause frame holds: bit t (R296). -/
  paused : BitVec 8
deriving DecidableEq, Repr

/-- A packet on the wire: the port, the frame's number on it, its Ethernet, IP and UDP headers (R296), the packet. -/
structure SentFrame where
  port : Nat
  frame : Nat
  hdr : List Byte
  pkt : Pkt
deriving DecidableEq, Repr

/-- A packet kept until it is acknowledged (R306): resends that count towards the limit. -/
structure Retained where
  pkt : Pkt
  port : Nat
  resends : Nat
  /-- Field of the sending core, whose retained store holds it. -/
  field : Nat
  /-- A NACK of reason 4 waits for IGS_RTO.BACKOFF. -/
  backoff : Bool
deriving DecidableEq, Repr

/-- An armed receive (R205). -/
structure RecvArm where
  core : Nat
  st : Stream
  dst : DWord
  dstOk : Bool
  len : Nat
  status : DWord
  ctr : Option Nat
deriving DecidableEq, Repr

/-- Hardware state of a flow context (R303). -/
structure FlowSt where
  nextSeq : Word
  retained : List Retained
  /-- Every packet below this SEQ has been received. -/
  rxNext : Word
  /-- Packets received and not yet taken into a complete message, by SEQ. -/
  rxq : List Pkt
  /-- SEQs at or above `rxNext` that have been received. -/
  rxGot : List Nat
  /-- Packets received since the last ACK, whether one of them carried CE, and the epoch of the last one (R298). -/
  sinceAck : Nat
  ce : Bool
  ep : Word
  /-- SEQs for which a gap NACK has been sent. -/
  gapTold : List Nat
  arms : List RecvArm
  /-- Complete DATA messages that wait for a receive, oldest first: tag, sender, bytes (R309). -/
  waiting : List (Word × Nat × List Byte)
  /-- Packets of the next epoch (R326). -/
  early : List Pkt
  /-- Send rate in Gb/s times 4,096 after a cut; none at the full rate of the allowed ports (R308). -/
  rate : Option Nat
  /-- Elapsed time of the last cut. -/
  cutAt : Option DWord
  /-- The peer's hallmark was refused for the epoch (R321). -/
  refused : Bool
  /-- A packet has been accepted, and the job stroke number of the last. -/
  heard : Bool
  lastHeard : DWord
deriving DecidableEq, Repr

/-- One node of a collective held at a root or at its contributor (R127, R312). -/
structure CNode where
  shard : Nat
  level : Nat
  src : Nat
  nf : Bool
  bytes : List Byte
  /-- Marked unobtainable: it never arrived (R307). -/
  unobtainable : Bool
  /-- Field whose retained store holds an own contribution (R306). -/
  field : Nat
deriving DecidableEq, Repr

/-- One core's part in a collective (R206): where its result goes. -/
structure CollCore where
  core : Nat
  st : Stream
  result : DWord
  /-- Root scratch, and its granules (R310, R312). -/
  scratch : DWord
  scratchG : Nat
  bitmap : DWord
  ctr : Option Nat
  /-- Its result and trailers have been sent to its memory, and are in place (R206). -/
  sent : Bool
  placed : Bool
deriving DecidableEq, Repr

/-- This device's run of a collective as contributor and receiver (R312 to R315). -/
structure CollRun where
  coll : Word
  step : DWord
  epoch : Word
  cores : List CollCore
  /-- Nodes of own cores that wait for the rest of a run of R127. -/
  waiting : List CNode
  /-- Shards of own contributions refused by NACK of reason 2 or 3 (R315). -/
  refused : List Nat
  /-- Contributions not yet released (R306, R315). -/
  nodes : List CNode
  /-- A contribution kept from the previous step for the late lane, with its step (R315). -/
  late : List CNode
  lateStep : DWord
  /-- Result segments received, by number. -/
  segs : Tbl (List Byte)
  /-- Segments whose trailer has come. -/
  trailers : List Nat
  /-- Included sets of the lanes, as decided: bit j for shard j. -/
  incl : Option Nat
  lateIncl : Option Nat
  nf : Bool
  incomplete : Bool
  /-- The outcome is known: every segment this device takes, and the trailer. -/
  done : Bool
deriving DecidableEq, Repr

/-- A segment root (R312, R313): key data of the segment, the nodes it holds, what it has reported and been told. -/
structure RootRun where
  coll : Word
  step : DWord
  seg : Nat
  stage : Nat
  group : Nat
  lane : Nat
  /-- The deadline counts from this core's own NCOLL (R316). -/
  started : Bool
  nodes : List CNode
  reported : Bool
  decided : Option Nat
  sent : Bool
  /-- Taken over as the segment's backup (R319). -/
  backup : Bool
  /-- The shards that the trailer of a segment sent names as included (R313, R314). -/
  incl : Option Nat
  /-- A coordinator that has taken over and asked for reports (R319). -/
  coord : Option Nat
deriving DecidableEq, Repr

/-- The coordinator of a stage and lane (R312, R317): reports by segment, and the decision. -/
structure CoordRun where
  coll : Word
  step : DWord
  stage : Nat
  group : Nat
  lane : Nat
  /-- Bitmaps by segment; bit N set where a backup has taken the segment and no report counts (R319). -/
  reports : Tbl (Option Nat)
  decided : Option Nat
deriving DecidableEq, Repr

/-- A vote received for a step (R300, R334). -/
structure VoteRec where
  member : Nat
  replica : Nat
  step : DWord
  verdict : Nat
  broken : Bool
  lastStep : DWord
  digest : DWord
deriving DecidableEq, Repr

/-- Ports, flows, collectives. -/
structure FabSt where
  ports : Tbl PortSt
  /-- The spare lane of field k is taken (R294). -/
  spareUsed : Tbl Bool
  /-- Frames sent, oldest first. -/
  sent : List SentFrame
  flows : Tbl FlowSt
  /-- IGS table memory: member table, flow contexts, collective table, root and shard tables (R302, R303, R311). -/
  table : List Host.Cell
  colls : List CollRun
  roots : List RootRun
  coords : List CoordRun
  /-- Hallmark of the current epoch and of the one before (R322). -/
  hallmark : List Byte
  prevHallmark : List Byte
  /-- Peers reported silent (R327). -/
  silent : List Nat
deriving DecidableEq, Repr

/-! ### Steps, votes, ledger (spec/13_training_runs.md) -/

/-- A ledger entry (R346): type, byte 1, and the bytes 4 to 31 it fills. -/
structure LedgerEntry where
  typ : Nat
  b1 : Nat
  body : List Byte
deriving DecidableEq, Repr

/-- What a ledger record holds beside its computed fields (R345). -/
structure LedgerRec where
  step : DWord
  stroke : DWord
  strokes : Nat
  entries : List LedgerEntry
  localV : Nat
  jobV : Nat
  skip : Bool
  trace : Nat
  ls : Word
  lsNext : Word
  loss : Word
  sumsq : Word
  nf : Word
  epoch : Word
  energy : DWord
  digest : List Byte
deriving DecidableEq, Repr

/-- Job start parameters (R348). -/
structure JobParams where
  firstStep : DWord
  replay : Bool
  trace : Nat
  ledgerBase : DWord
  ledgerSize : Nat
  replayBase : DWord
  replaySize : Nat
  /-- Replica of each member, as the host-memory table gave it. -/
  replicas : Tbl Nat
  coord : Nat
  backup : Nat
  restore : Bool
deriving DecidableEq, Repr

/-- The job verdict of a step (R334). -/
structure JobVerdict where
  step : DWord
  skip : Bool
  reasons : Nat
  excluded : List Nat
  /-- DIGEST_SPLIT entries (R397), as sent. -/
  splits : List (List Byte)
  /-- Every member enters DRAIN (R381, R397). -/
  drain : Bool
deriving DecidableEq, Repr

/-- The step in progress and the step machinery. -/
structure StepSt where
  /-- Job stroke number of the step's first stroke (R345). -/
  firstStroke : DWord
  /-- Codes of the step's events that bear on the verdict: 0x0505 or 0x050B; any other of severity STEP, FENCE or
  REPLACE (R333). -/
  hmEvent : Bool
  stepEvent : Bool
  /-- NF of a trailer written in the step, and how many collectives had it (R333, R341). -/
  nfTrailers : Nat
  normNf : Bool
  /-- Loss recorded: position of the core and value (R230). -/
  loss : Option (Nat × Word)
  nfCount : Word
  sumsq : Option Word
  /-- State regions the step has written (R332). -/
  wrote : List Nat
  /-- Ledger entries gathered for the step's record. -/
  entries : List LedgerEntry
  localV : Nat
  votedStep : Option DWord
  votes : List VoteRec
  verdict : Option JobVerdict
  /-- The verdict this device sent last, and the members whose message of it has failed and is still owed (R307). -/
  lastVerdict : Option JobVerdict
  owed : List Nat
  /-- This replica is broken, with the collective that broke it, 0 for a core event (R349, R380). -/
  broken : Option Word
  /-- Replicas whose WITHDRAW has arrived in the step. -/
  withdrawn : List Nat
  /-- Exclusion set of the epoch and of the last verdict (R350, R351). -/
  epochExcl : List Nat
  lastExcl : List Nat
  /-- Records written, oldest first, and the one still to be written (R345). -/
  ledger : List LedgerRec
  pendingRec : Option LedgerRec
  /-- The replay ring's records read ahead (R347). -/
  replayRecs : List LedgerRec
  lastDigest : List Byte
  lastStep : DWord
  committed : Bool
  /-- Committed steps since job start, and whether the band references exist (R341). -/
  commits : Nat
  /-- Consecutive steps that the loss and the norm band have held (R342). -/
  lossRun : Nat
  normRun : Nat
  lrefSet : Bool
  nrefSet : Bool
  energy : DWord
deriving DecidableEq, Repr

/-! ### Weight loads (spec/14_weights.md) -/

/-- A swage-table entry (R361), its fields as written. -/
structure SwageEnt where
  tensor : Word
  srcFmt : Nat
  dstFmt : Nat
  layout : Nat
  mx : Bool
  sat : Bool
  rule : Bool
  rmode : Nat
  layer : Option Nat
  rows : Nat
  cols : Nat
  srcOfs : Nat
  bulk : Bool
  dst : Nat
  scaleDst : Nat
  tileK : Nat
deriving DecidableEq, Repr

/-- A load descriptor with the tables it names (R356 to R361). -/
structure LoadDesc where
  id : Word
  enc : Bool
  defl : Bool
  replace : Bool
  fenceAt : Bool
  srcBulk : Bool
  readerDest : Bool
  chunkLog : Nat
  reader : Nat
  chunks : Nat
  first : Nat
  src : Nat
  nonce : List Byte
  seed : DWord
  stage : Nat
  stageLen : Nat
  plainLen : Nat
  fenceAdmit : Nat
  dir : List (Nat × Nat × Word)
  tree : List (Nat × Nat × List Nat)
  swage : List SwageEnt
deriving DecidableEq, Repr

/-- One load in progress or ended (R355 to R371). `LoadDesc` is the descriptor with the tables it names. -/
structure LoadRun where
  desc : LoadDesc
  /-- The command's completion is still owed: its ring identifier. -/
  cmd : Option CmdRef
  /-- Content key of an encrypted load, held in the SEC block (R365). -/
  key : List Byte
  /-- Stored bytes of the packets of chunks received so far: granule offset g of chunk c at key 2^20 c + g (R359). -/
  parts : Tbl (List Byte)
  /-- Chunks the reader has sent: the next one it reads (R359). -/
  next : Nat
  /-- Where in the staging region a chunk that must wait has its place, and the chunks whose stored form lies there (R356, R369). -/
  places : List (Nat × Nat)
  staged : List Nat
  /-- Stored form of the chunks that the swage has taken; the load keeps it for elements that reach into another chunk (R366; log
  entry 153). -/
  taken : List (Nat × List Byte)
  /-- Chunks written. -/
  written : List Nat
  /-- The load has failed, has been aborted, or has completed. -/
  failed : Bool
  aborted : Bool
  complete : Bool
  /-- Completion registered in the stroke in progress (R82). -/
  registered : Bool
deriving DecidableEq, Repr

/-- A seal (R367): the load that set it, tier bulk, first byte, length. -/
structure Seal where
  load : Word
  bulk : Bool
  first : Nat
  len : Nat
deriving DecidableEq, Repr

/-- The load machinery. -/
structure LoadSt where
  loads : List LoadRun
  /-- The replacement fence is closed (R368). -/
  fenceClosed : Bool
  /-- Permits the device has added since job start (R368). -/
  permitsAdded : Nat
  /-- ADMITTED as frozen at the close of the fence. -/
  frozen : Option Nat
  /-- Layers written by the replacement in progress. -/
  layersDone : List Nat
  seals : List Seal
deriving DecidableEq, Repr

/-! ### Integrity (spec/15_integrity.md) -/

/-- An assay record (R383, R387), word by word, with its outcome. -/
structure AssayRec where
  pcore : Nat
  v : Nat
  kind : Nat
  unit : Nat
  stream : Nat
  outcome : Nat
  stroke : Word
  ordinal : Word
  locator : Word
  locator2 : Word
  primary : Word
  checker : Word
  replay : Word
deriving DecidableEq, Repr

/-- Assay (R384 to R387). -/
structure AsySt where
  recs : List AssayRec
  /-- Cores beyond the eighth that fired a check in the step (R384). -/
  ninth : List Nat
  /-- ASY_STAT.STATE. -/
  st : Nat
  step : DWord
  limit : Nat
  /-- Outcomes UPSTREAM since power-on (R402). -/
  upstream : Nat
deriving DecidableEq, Repr

/-- A fence-list entry (R388): core, the TARGET code of the unit, outcome, powered minutes at the fence, the full packs the core has
passed since, and whether it has returned. -/
structure FenceEntry where
  core : Nat
  unit : Nat
  outcome : Nat
  min : Nat
  passed : List Nat
  returned : Bool
deriving DecidableEq, Repr

/-- A row or column repair in the fence list (R149): core, engine, whether the axis is that of the columns, and the physical position
that is to be mapped out. -/
structure Repair where
  core : Nat
  me : Nat
  col : Bool
  pos : Nat
deriving DecidableEq, Repr

/-- A pack of the pack image (R390). -/
structure Pack where
  target : Nat
  mode : Nat
  cycles : Nat
  digest : List Byte
deriving DecidableEq, Repr

/-- A test pack image installed (R391). -/
structure PackImage where
  version : Nat
  packs : List Pack
  image : List Byte
deriving DecidableEq, Repr

/-- Role of a physical core (R41, R44). -/
inductive Role
  | disabled | active | spare | fenced | underTest
deriving DecidableEq, Repr

/-- How a test runs (R392 to R394). -/
inductive TestKind
  | full | pause
deriving DecidableEq, Repr

/-- A burnish test under way, with the host command that ordered it. -/
structure TestRun where
  core : Nat
  kind : TestKind
  /-- The one pack a BURNISH_RUN names. -/
  pack : Option Nat
  cmd : Option CmdRef
  /-- The test belongs to stage 5 of BOOT (R432). -/
  boot : Bool
  /-- The packs of the image in force at its start: it finishes on them (R403). -/
  set : List Pack
  /-- It has ended: the role its core takes at the next boundary (R41). -/
  outcome : Option Role
deriving DecidableEq, Repr

/-- A rotation under way in a field (R393): the core that leaves, the spare that takes over, and whether the copy is complete. -/
structure Rotation where
  field : Nat
  old : Nat
  new : Nat
  copied : Bool
deriving DecidableEq, Repr

/-- Burnish (R390 to R395) and the replacement request (R402). -/
structure BrnSt where
  packs : PackImage
  /-- An image installed and not yet in force (R391). -/
  nextPacks : Option PackImage
  tests : List TestRun
  rotations : List Rotation
  /-- Cores that have fallen due and have not been tested since, oldest first. -/
  due : List Nat
  /-- Due cores deferred (0x0622 raised), and past DEFER_MAX (0x0623 raised). -/
  deferred : List Nat
  overdue : List Nat
  /-- Powered minutes of the last full pass of each core, plus one; 0 for never (R392). -/
  lastPass : Tbl Nat
  /-- Cores held in a PAUSE slice (R394). -/
  paused : List Nat
  fences : List FenceEntry
  /-- Repairs recorded in the fence list, and those that the last BOOT took into the spare maps (R149). -/
  repairs : List Repair
  mapped : List Repair
  /-- Powered minutes of failed tests (R402). -/
  fails : List Nat
  /-- Whole minutes of powered time before the last power-on reset, as the firmware counts them (R388). -/
  before : Nat
  /-- A position has no holder (R389). -/
  fieldEmpty : Bool
  /-- 0x0650 waits for the exit from RUN (R402). -/
  replPending : Bool
deriving DecidableEq, Repr

/-- A suspect of the blame table (R401). -/
structure Suspect where
  member : Nat
  reporters : List Nat
  lastGasp : Bool
  lastHeard : Word
deriving DecidableEq, Repr

/-! ### Power and temperature (spec/16_power.md) -/

/-- A pace notice held (R414). -/
structure PaceNote where
  target : Nat
  current : Nat
  cap : Nat
  stroke : DWord
deriving DecidableEq, Repr

/-- A hint in force (R415): the step it asks for, and the device strokes opened by the first and the last boundary at which it
does. -/
structure HintSt where
  kq : Nat
  lo : Nat
  sp : Nat
deriving DecidableEq, Repr

/-- What delays clock edges (R416, R420, R422). -/
structure StretchSrc where
  /-- Fields whose droop detectors have fired. -/
  droop : List Nat
  vrAlert : Bool
  slack : Bool
  /-- Tj has reached 105 °C and not yet fallen below 102 °C. -/
  tj : Bool
deriving DecidableEq, Repr

/-- The power controller (R405 to R423). Powers are in milliwatts, energies in picojoules. -/
structure PwrSt where
  /-- Step in force (R407). -/
  k : Nat
  /-- The higher voltage of step k - 1 is commanded; the clock follows at the next boundary (R408). -/
  rising : Bool
  kt : Nat
  limiter : Nat
  kc : Nat
  kd : Nat
  kj : Nat
  hint : Option HintSt
  /-- The hint handed over in the stroke in progress: class and LEAD (R199). -/
  hintIn : Option (Nat × Nat)
  /-- PWR_CAP as written and not yet copied (R410). -/
  capShadow : Option Word
  /-- F in force (R419). -/
  planish : Nat
  /-- Boundaries in a row with kt below k (R409), and with Tj below TJ_WARN - 3 (R422). -/
  upRun : Nat
  coolRun : Nat
  /-- Strokes in a row with stretched time above 10 %, and below 2 % (R417). -/
  stretchRun : Nat
  calmRun : Nat
  stretch : StretchSrc
  stretching : Bool
  /-- Energy of the stroke in progress. -/
  strokePj : Nat
  /-- Energy of the step and since power-on, below the units of their registers. -/
  stepPj : Nat
  totalPj : Nat
  telemetryLost : Bool
  /-- Telemetry was lost in the stroke in progress, so its energy is not known (R423). -/
  strokeLost : Bool
  /-- 0x0701 raised in the job, 0x0703 raised in the stroke. -/
  capTold : Bool
  vrTold : Bool
  /-- TRIM by step, in units of 2.5 mV, and the steps whose limit has been told (R420). -/
  trim : Tbl Nat
  trimTold : List Nat
  /-- Steps whose trim is held at 0 after a slack event. -/
  trimHold : List Nat
  tj : Nat
  tjWarnTold : Bool
  tripped : Bool
  /-- Clocks stopped after THERMTRIP_N went unanswered (R492). -/
  clocksStopped : Bool
  /-- Pace notices held, by sender (R414). -/
  paces : Tbl (Option PaceNote)
  /-- Value of the last pace notice sent (R413). -/
  paceSent : Nat
  /-- The last last-gasp record of PG_WARN_N or of the junction: its reason, and when (R493). -/
  gasp : Option (Nat × DWord)
deriving DecidableEq, Repr

/-! ### Management (spec/17_management.md to 20_package.md) -/

/-- The device states of R428. -/
inductive DevState
  | off | standby | boot | ready | run | drain | quarantine | recovery
deriving DecidableEq, Repr

/-- An event record (R477). -/
structure EvtRec where
  elapsed : DWord
  jobStroke : BitVec 48
  code : Nat
  sev : Nat
  job : Bool
  forced : Bool
  block : Nat
  inst : Nat
  page : Nat
  object : Word
  waiter : Word
  detail : Word
deriving DecidableEq, Repr

/-- A completion (R445). -/
structure Cpl where
  tag : Word
  opcode : Nat
  phase : Nat
  status : Nat
  jobStroke : DWord
  devStroke : DWord
  result : DWord
deriving DecidableEq, Repr

/-- A staging transfer under way (R444). -/
structure StageOp where
  cmd : CmdRef
  toDevice : Bool
  target : Word
  dev : Nat
  host : DWord
  len : Nat
deriving DecidableEq, Repr

/-- An operation whose completion registered in the stroke in progress or that has ended (R82). -/
structure EndedOp where
  cmd : CmdRef
  /-- STATUS and RESULT of its ending completion (R445). -/
  status : Nat
  result : DWord
  /-- Marked complete at order 2 of a boundary. -/
  marked : Bool
  /-- It had been aborted. -/
  aborted : Bool
deriving DecidableEq, Repr

/-- The command ring as the device holds it (R64 to R67, R445, R446). -/
structure RingSt where
  /-- Fetched entries not yet applied, in ring order, each with the mark that it arrived late (R66). -/
  entries : List (RingEntry × Bool)
  /-- Producer index of the last sample. -/
  prodIdx : Nat
  /-- Entries asked for and not yet arrived (R64). -/
  asked : Nat
  /-- Completions held for want of room, oldest first (R446). -/
  held : List Cpl
  /-- Completions written to the completion ring, oldest first. -/
  written : List Cpl
  stages : List StageOp
  ended : List EndedOp
  /-- Firmware images accepted and being written, oldest first (R451), with their commands. -/
  fwWrite : List (List Byte × Option CmdRef)
  /-- STANDBY has been applied and waits for staging to end, or is being entered; a wake has arrived meanwhile (R458). -/
  standbyWait : Bool
  standbyEntry : Bool
  wake : Bool
deriving DecidableEq, Repr

/-- The SPI NOR's contents beside test packs and fence list (R435, R439). -/
structure NorSt where
  firmware : List Byte
  /-- Persistent log, oldest first. -/
  log : List EvtRec
  /-- Board description: permitted MCTP peer addresses (R436). -/
  peers : List Word
  /-- Certificate chains by slot (R453, R454). -/
  certs : List (Nat × List Byte)
  /-- Board description: BLK_CFG for the bulk tier that is fitted (R287). -/
  bulkCfg : Word
  /-- Trained settings of the memories, which BOOT reuses when they pass verification (R290). -/
  training : List Byte
  /-- A reset has cut off the write of an image, which the area holds in part (R458). -/
  torn : Bool
deriving DecidableEq, Repr

/-- Fused values (R6, R148, R242, R407, R432, R450, R453). -/
structure Fuses where
  stepping : BitVec 8
  activeCores : BitVec 8
  ldtVer : BitVec 8
  ldtCap : BitVec 8
  disabled : List Nat
  vfuse : List Nat
  minSvn : Nat
deriving DecidableEq, Repr

/-- A physical core's role, the position it holds or, when fenced, held last, and its power gate (R44, R472). -/
structure RoleSt where
  role : Role
  /-- Virtual position v = vy × 8 + vx. -/
  v : Nat
  gated : Bool
deriving DecidableEq, Repr

/-- States of the IEEE 1149.1 TAP controller (R494). -/
inductive Tap
  | reset | idle | selDr | capDr | shDr | ex1Dr | pauDr | ex2Dr | updDr
  | selIr | capIr | shIr | ex1Ir | pauIr | ex2Ir | updIr
deriving DecidableEq, Repr

/-- The instructions of R494. -/
inductive JtagOp
  | bypass | idcode | samplePreload | extest | clamp | highz
deriving DecidableEq, Repr

/-- The JTAG port: TAP state, instruction, shift registers, boundary register, TDO. -/
structure JtagSt where
  tap : Tap
  op : JtagOp
  ir : List Bool
  dr : List Bool
  bsr : List Bool
  tdo : Bool
deriving DecidableEq, Repr

/-- What an SPDM request is answered with (R454, R455). -/
inductive SpdmResp
  | version (minor : Nat)
  | capabilities (cert chal meas measSig keyEx psk secured mutAuth : Bool)
  | algorithms (rsa3072 sha256 : Bool)
  | digests (d : List (Nat × List Byte))
  | certificate (slot off : Nat) (bytes : List Byte) (remaining : Nat)
  | challengeAuth (slot : Nat) (nonce summary : List Byte) (signature : List Byte)
  | measurements (blocks : List (Nat × List Byte)) (nonce : List Byte) (signature : Option (List Byte))
  | error
deriving DecidableEq, Repr

/-- A message the device has sent out of band: an answer on the management port or on DOE, an MCTP answer, an ARP answer, a
link-layer request, an MSI-X message. -/
inductive OutMsg
  | spdm (r : SpdmResp)
  | mctp (v : Option Word)
  | arp (port : Nat) (mac : BitVec 48)
  | nd (port : Nat) (mac : BitVec 48)
  | linkRetry (port frame : Nat)
  | msix (vec : Nat)
  | avs (mv4 : Nat)
  | hostWrite (addr : DWord) (bytes : List Byte)
deriving DecidableEq, Repr

/-- The measurement values as of the last boundary (R455). -/
structure MeasSt where
  fw : List Byte
  version : Nat
  svn : Nat
  minSvn : Nat
  packs : List Byte
  part : Word
  fences : List FenceEntry
  repairs : List Repair
  manifest : List Byte
  hallmark : List Byte
  repl : Word
  state : Word
deriving DecidableEq, Repr

/-- Management subsystem, log, pins, JTAG. -/
structure MgmtSt where
  dev : DevState
  /-- Stage of R432 reached. -/
  bootStage : Nat
  degraded : Bool
  /-- Nanoseconds since power-on reset (R437). -/
  elapsed : DWord
  /-- MSS_WALL: the note, with the elapsed times at which notes took effect (R438). -/
  wall : List (DWord × DWord)
  /-- Management ring of 8,192 records, oldest first (R439). -/
  ring : List EvtRec
  /-- Records written to the host log ring, oldest first, and the mark that some were dropped (R439). -/
  hostLog : List EvtRec
  dropped : Bool
  nor : NorSt
  /-- Firmware that runs: its image, VERSION, SVN. -/
  fwImage : List Byte
  fwVersion : Nat
  fwSvn : Nat
  /-- Recovery buffer in BAR2 (R452). -/
  recovery : List Host.Cell
  /-- What the device has sent out of band, oldest first. -/
  out : List OutMsg
  /-- What the last register or window read returned. -/
  readback : List Byte
  /-- Pins. -/
  pwrgood : Bool
  resetN : Bool
  spiWpN : Bool
  thermtripN : Bool
  strapRcv : Bool
  jtag : JtagSt
  meas : MeasSt
  /-- Algorithms have been negotiated (R454). -/
  spdmAlg : Bool
  /-- GET_CAPABILITIES has been answered in the exchange that has not come to its algorithms yet. -/
  spdmCaps : Bool
  /-- The messages of the SPDM exchange that signatures cover (R454): up to the algorithms, of digests and certificates, of measurements. -/
  spdmStart : List Byte
  spdmCerts : List Byte
  spdmMeas : List Byte
deriving DecidableEq, Repr

/-! ### Strokes, the job, and the whole block -/

/-- Items on their way over the on-die network (R201): source and destination position, travel time, the stream and opcode
that sent them, and the items still to land, in order. -/
structure Flight where
  src : Nat
  dst : Nat
  travel : Nat
  st : Stream
  opc : Nat
  items : List Item
deriving DecidableEq, Repr

/-- Why the boundary in progress is held (R324, R335, R345, R501, R352). -/
inductive HoldAt
  | no
  /-- At order 4 for collectives and links of the step (R501). -/
  | colls
  /-- At order 4 for the job verdict (R335). -/
  | verdict
  /-- At order 4 for room in the ledger ring (R345). -/
  | ledger
  /-- At order 6 for the drain of the old epoch (R324). -/
  | epoch
  /-- In the first stroke of a restore epoch (R352). -/
  | restore
  /-- A replayed step waits for its ledger record (R347). -/
  | replay
deriving DecidableEq, Repr

/-- What the routers' delay taps are computed from (R239): the LDT version selected, and the positions with their holders. -/
structure Taps where
  ver : Nat
  places : List (Nat × Nat)
deriving DecidableEq, Repr

/-- Stroke machinery (R55 to R74). -/
structure StrokeSt where
  /-- Exponent n in force, and the one written for the next boundary (R56). -/
  n : Nat
  devStroke : DWord
  jobStroke : DWord
  step : DWord
  /-- Cycle 2^n has been reached with a late stream, under STRETCH (R72). -/
  stretched : Bool
  hung : Bool
  /-- The device enters DRAIN at the next boundary. -/
  drainNext : Bool
  /-- Drain work is finished, or has been abandoned: the device leaves DRAIN at the next boundary (R429). -/
  drained : Bool
  /-- The boundary in progress is held: where, and what was observed of it. -/
  hold : HoldAt
  obs : Option BoundaryObs
  /-- Job stroke number that events carry while a boundary is in progress: that of the stroke it closes (R478). -/
  closing : Option DWord
  /-- The boundary in progress closes a step. -/
  closes : Bool
  /-- Instructions of engine queues and of streams issued in the stroke: key 8 p + unit, units 0 to 3 the engines, 5 to 7 the streams
  F, B, U (R378, R383). -/
  ordinals : Tbl Nat
  /-- Core and code, or code and object, of events raised in the stroke under a once-per-stroke rule. -/
  told : List (Nat × Nat)
  /-- Strokes closed in the step (R345). -/
  strokes : Nat
  /-- Position and stream of the last stroke-end issued (R72). -/
  lastEnd : Option (Nat × Stream)
  /-- What the routers' delay taps were last computed from (R239). -/
  taps : Taps
deriving DecidableEq, Repr

/-- The job (R348, R385, R447). -/
structure JobSt where
  /-- A job or an assay job is present. -/
  present : Bool
  assay : Bool
  assayLimit : Nat
  params : JobParams
  image : ImageInfo
  programHash : List Byte
  /-- Its completion has been marked (R83), or it has been aborted. -/
  complete : Bool
  aborted : Bool
  cmd : Option CmdRef
  grid : Nat × Nat
  traceCopy : Bool
  traceBase : DWord
  traceSize : DWord
  /-- Result copies written at trace level 2: collective, step, bytes (R31). -/
  traceOut : List (Word × DWord × List Byte)
deriving DecidableEq, Repr

/-- A SET_SETTING that waits for its step (R28, R444): device stroke of its application, step, register, value. -/
structure Setting where
  since : DWord
  step : DWord
  reg : Nat
  page : Word
  off : Word
  val : Word
deriving DecidableEq, Repr

/-- A layout epoch applied and not yet begun (R324). -/
structure EpochReq where
  epoch : Word
  restore : Bool
  refs : HostRefs
deriving DecidableEq, Repr

/-- Layout epochs and twin restore (R324, R351, R352). -/
structure EpochSt where
  cur : Word
  req : Option EpochReq
  settings : List Setting
  /-- Restore in progress: which twin serves this member (0 the first, 1 the fallback), and the pair; none where it restores nothing. -/
  restoring : Option (Nat × Nat × Nat)
  /-- Bytes of restored state received: of region r from the first twin at key r, from the fallback at 32 + r. -/
  restored : Tbl (List Byte)
  leftOut : Bool
  /-- At the coordinator, the restoring members that have not reported; and the word that all have (R352). -/
  awaiting : List Nat
  released : Bool
deriving DecidableEq, Repr

/-- The whole block. -/
structure State where
  /-- Commands that wait, first in first out. -/
  pending : List Instr
  fuses : Fuses
  /-- Register words of BAR0 by offset (R461); a word not listed reads its reset value. -/
  regs : Tbl Word
  /-- HI words latched by a read of LO: key 2^28 path + offset of LO (R471). -/
  latches : Tbl (Option Word)
  /-- LO words written and held for the write of HI, by the same key (R471). -/
  loHeld : Tbl (Option Word)
  mgmt : MgmtSt
  stroke : StrokeSt
  job : JobSt
  epoch : EpochSt
  ring : RingSt
  roles : Tbl RoleSt
  cores : Tbl Core
  flights : List Flight
  stp : StepSt
  mem : MemSt
  fab : FabSt
  load : LoadSt
  asy : AsySt
  brn : BrnSt
  blame : List Suspect
  /-- Suspects for which a blame record has been sent in the epoch (R399). -/
  blamed : List Nat
  pwr : PwrSt
  /-- Free values drawn so far (the model's own field). -/
  free : Nat
deriving DecidableEq, Repr

/-! ### What stops a step -/

/-- Accesses to addresses that do not exist. -/
inductive Fault
  /-- A register access beyond the 32 MiB of BAR0 (R441), raised by REGISTER_WRITE, REGISTER_LO_READ and the register rows of
  their own; safe: the manual gives no such access. -/
  | outsideBar0
  /-- A window access beyond the 256 MiB of BAR2 (R441), raised by BAR2_READ and BAR2_WRITE; safe. -/
  | outsideBar2
deriving DecidableEq, Repr

/-- Commands the model does not carry out. -/
inductive Refusal
  /-- A row without a meaning; no arm of `exec` answers it. Safe. -/
  | notModelled (mnemonic : String)
deriving DecidableEq, Repr

/-! ### Reset -/

/-- Fuses of an FZ7-128 of stepping B0 with no disabled core (DESIGN CHOICE, log entry 2: R2 allows four parts). -/
def Fuses.z7b128 : Fuses :=
  ⟨0xB0, 0x80, 2, 0x04, [], (List.range 16).map (fun k => 800 - 16 * k), 0⟩

def JobParams.none : JobParams := ⟨0, false, 0, 0, 0, 0, 0, [], 0, 0, false⟩
def ImageInfo.empty : ImageInfo := ⟨18, [], [], [], [], [], [], [], 0⟩

def MgmtSt.reset : MgmtSt :=
  { dev := .boot, bootStage := 0, degraded := false, elapsed := 0, wall := [], ring := [], hostLog := [], dropped := false,
    nor := ⟨[], [], [], [], 0x40, [], false⟩, fwImage := [], fwVersion := 0, fwSvn := 0, recovery := [], out := [], readback := [],
    pwrgood := true, resetN := true, spiWpN := false, thermtripN := true, strapRcv := false,
    jtag := ⟨.reset, .idcode, [], [], [], false⟩,
    meas := ⟨[], 0, 0, 0, [], 0, [], [], [], [], 0, 0⟩, spdmAlg := false, spdmCaps := false, spdmStart := [], spdmCerts := [], spdmMeas := [] }

def StrokeSt.reset : StrokeSt :=
  { n := 18, devStroke := 0, jobStroke := 0, step := 0, stretched := false, hung := false, drainNext := false, drained := false,
    hold := .no, obs := none, closing := none, closes := false, ordinals := [], told := [], strokes := 0,
    lastEnd := none, taps := ⟨0, []⟩ }

def JobSt.reset : JobSt :=
  { present := false, assay := false, assayLimit := 0, params := JobParams.none, image := ImageInfo.empty,
    programHash := [], complete := false, aborted := false, cmd := none, grid := (0, 0),
    traceCopy := false, traceBase := 0, traceSize := 0, traceOut := [] }

def EpochSt.reset : EpochSt := ⟨0, none, [], none, [], false, [], false⟩
def RingSt.reset : RingSt := ⟨[], 0, 0, [], [], [], [], [], false, false, false⟩

def StepSt.reset : StepSt :=
  { firstStroke := 0, hmEvent := false, stepEvent := false, nfTrailers := 0, normNf := false, loss := none, nfCount := 0,
    sumsq := none, wrote := [], entries := [], localV := 0, votedStep := none, votes := [],
    verdict := none, lastVerdict := none, owed := [], broken := none, withdrawn := [], epochExcl := [], lastExcl := [], ledger := [], pendingRec := none,
    replayRecs := [], lastDigest := [], lastStep := 0, committed := false, commits := 0, lossRun := 0, normRun := 0, lrefSet := false,
    nrefSet := false, energy := 0 }

def MemSt.reset : MemSt :=
  { hbm := [], bulk := [], blkMarks := [], nLc := 0, chans := [], pcs := [], stks := [], cal := [], segs := [], seqTab := [],
    ticketDefs := [], moved := [], narrowDefs := [], deliveries := [] }

def FabSt.reset : FabSt :=
  { ports := [], spareUsed := [], sent := [], flows := [], table := [], colls := [], roots := [], coords := [],
    hallmark := [], prevHallmark := [], silent := [] }

def BrnSt.reset : BrnSt :=
  { packs := ⟨0, [], []⟩, nextPacks := none, tests := [], rotations := [], due := [], deferred := [], overdue := [],
    lastPass := [], paused := [], fences := [], repairs := [], mapped := [], fails := [], before := 0, fieldEmpty := false, replPending := false }

def PwrSt.reset : PwrSt :=
  { k := 0, rising := false, kt := 0, limiter := 0, kc := 0, kd := 0, kj := 0, hint := none, hintIn := none,
    capShadow := none, planish := 16, upRun := 0, coolRun := 0, stretchRun := 0, calmRun := 0,
    stretch := ⟨[], false, false, false⟩, stretching := false, strokePj := 0, stepPj := 0,
    totalPj := 0, telemetryLost := false, strokeLost := false, capTold := false, vrTold := false, trim := [],
    trimTold := [], trimHold := [], tj := 0, tjWarnTold := false, tripped := false,
    clocksStopped := false, paces := [], paceSent := 0, gasp := none }

/-- The block right after power-on reset, before stage 0 of BOOT (R431, R432): every register at its reset value, every queue
empty. Fuses and the board's SPI NOR keep what they hold; here an FZ7-128-B0 with a blank NOR (log entry 2). -/
def State.reset : State :=
  { pending := [], fuses := Fuses.z7b128, regs := [], latches := [], loHeld := [], mgmt := MgmtSt.reset,
    stroke := StrokeSt.reset, job := JobSt.reset, epoch := EpochSt.reset, ring := RingSt.reset, roles := [], cores := [],
    flights := [], stp := StepSt.reset, mem := MemSt.reset, fab := FabSt.reset, load := ⟨[], false, 0, none, [], []⟩,
    asy := ⟨[], [], 0, 0, 0, 0⟩, brn := BrnSt.reset, blame := [], blamed := [], pwr := PwrSt.reset, free := 0 }

end Sys2Proof.Machine
end

