-- ==== Sys2Proof/Machine/Mem.lean ====
section
/-!
DEFINITION. Sparse tables: the one canonical form of every memory and register array of the device, and its two
operations. A key that is not listed reads as the table's default; writing the default removes the entry.
-/

namespace Sys2Proof.Machine

open Sys2Proof

/-- The value at a key. -/
def tget {α : Type} (d : α) : Tbl α → Nat → α
  | [], _ => d
  | (j, v) :: t, k => if k = j then v else tget d t k

/-- Removes a key, wherever it stands. -/
def tdel {α : Type} : Tbl α → Nat → Tbl α
  | [], _ => []
  | (j, v) :: t, k => if k = j then tdel t k else (j, v) :: tdel t k

/-- Inserts or replaces a key, keeping the keys in rising order. -/
def tput {α : Type} : Tbl α → Nat → α → Tbl α
  | [], k, v => [(k, v)]
  | (j, w) :: t, k, v =>
    if k < j then (k, v) :: (j, w) :: t
    else if k = j then (k, v) :: t
    else (j, w) :: tput t k v

/-- Writes a key; the default is not listed. -/
def tset {α : Type} [DecidableEq α] (d : α) (t : Tbl α) (k : Nat) (v : α) : Tbl α :=
  if v = d then tdel t k else tput t k v

/-- The canonical form: keys strictly rising, no entry equal to the default. -/
def twf {α : Type} [DecidableEq α] (d : α) : Tbl α → Bool
  | [] => true
  | [(_, v)] => decide (v ≠ d)
  | (j, v) :: (k, w) :: t => decide (j < k) && decide (v ≠ d) && twf d ((k, w) :: t)

/-- A byte of a memory. What nothing has written reads as 0 (DESIGN CHOICE, log entry 1). -/
def byteAt (m : List Host.Cell) (a : Nat) : Byte := tget 0 m a

/-- Writes one byte. -/
def setByte (m : List Host.Cell) (a : Nat) (b : Byte) : List Host.Cell := tset 0 m a b

/-- `n` bytes from an address up. -/
def bytesAt (m : List Host.Cell) (a : Nat) : Nat → List Byte
  | 0 => []
  | n + 1 => byteAt m a :: bytesAt m (a + 1) n

/-- Writes bytes from an address up. -/
def setBytes (m : List Host.Cell) (a : Nat) : List Byte → List Host.Cell
  | [] => m
  | b :: bs => setBytes (setByte m a b) (a + 1) bs

/-- The canonical form of a byte memory. -/
abbrev memWf (m : List Host.Cell) : Prop := twf (0 : Byte) m = true

end Sys2Proof.Machine
end

