-- ==== Sys2Proof/Machine/Ops.lean ====
section
/-!
DEFINITION. The named operations one core's instructions are built from: registers of a stream, sync counters,
core-memory references, HANDOFF accesses. An instruction changes its core and asks the rest of the device for
effects (`Fx`), which `Machine/Issue.lean` carries out.
-/

namespace Sys2Proof.Machine

open Sys2Proof

/-! ### Defaults of a core's tables -/

def gran0 : Gran := ⟨false, 0, 0⟩
def rgn0 : RgnGen := ⟨0, 0, 0, 0⟩
def engine0 : Engine := ⟨none, false, 0, 0, 0, [], [], [], []⟩
def stream0 : StreamSt := ⟨0, [], [], [], 0, [], [], .run⟩

/-! ### What an instruction may read beside its core -/

/-- A region-table entry in use (R252): its number, first and last granule, READERS, TYPED and FMT. -/
structure Region where
  idx : Nat
  base : Nat
  last : Nat
  readers : BitVec 4
  typed : Bool
  fmt : BitVec 4
deriving DecidableEq, Repr

/-- The core's place in the job and the run-dependent values of R21. -/
structure Ctx where
  vx : Nat
  vy : Nat
  gridW : Nat
  gridH : Nat
  /-- Virtual travel time t of R241 to each position v. -/
  travel : List Nat
  stroke : DWord
  step : DWord
  seed : DWord
  order : SumOrder
  committed : Bool
  lossScale : Word
  /-- The core's shard table (R191, R233). -/
  shards : List DWord
  /-- The entries in use of the core's region table, ascending. -/
  rgns : List Region
  /-- Granules of each of the core's tickets (R267), by ticket number. -/
  ticketLens : Tbl Nat
deriving DecidableEq, Repr

def Ctx.self (x : Ctx) : Nat := x.vy * 8 + x.vx

/-! ### Effects outside the core -/

/-- What an instruction asks of the rest of the device. -/
inductive Fx
  /-- An event of the core: code, ID field of the object identifier, waiter identifier, detail, and the capture words its page
  takes with it. -/
  | ev (code id waiter detail : Nat) (caps : List Nat)
  /-- Flags raised, for NUM_FLAG_SUM (R94). -/
  | flags (f : Flg)
  /-- Items sent to a position over the on-die network with travel time t, landing in order (R201). -/
  | flight (dst t : Nat) (st : Stream) (op : Nat) (items : List Item)
  | hint (cls lead : Nat)
  /-- A stroke-end (R72, R186). -/
  | ended (st : Stream)
  | vstat (sel : Nat) (v : Word)
  | narrow (r : NarrowReq)
  /-- A ticket has been armed (R202). -/
  | armed (ticket : Nat)
  /-- NSEND, NRECV and NCOLL (R204 to R206): the descriptor as read (none where its reference is faulty), and the data. -/
  | nsend (st : Stream) (desc : Option (List Byte)) (data : List Byte) (ref : Nat)
  | nrecv (st : Stream) (desc : Option (List Byte)) (dst : DWord) (len : Nat) (ctrD : Option Nat) (ref : Nat)
  | ncoll (st : Stream) (step : DWord) (desc : Option (List Byte)) (data : List Byte) (ctrD : Option Nat) (ref : Nat)
  /-- Adds to a cycle counter of an engine page (R157) or of the VE page (R179). -/
  | meWork (eng n : Nat)
  | meWave (eng n : Nat)
  | mePlan (eng n : Nat)
  | veBusy (n : Nat)
  /-- Blocks that held a ZI term, and the first of them (R121 to R123): engine, count, capture words. -/
  | zi (eng count : Nat) (waiter : Nat) (caps : List Nat)
  /-- Blocks of a matrix instruction that a fault has touched, with what the residue check saw of them (R152, R153, R155): engine, stream,
  ordinal, issuing stroke. -/
  | residue (eng : Nat) (st : Stream) (ord : Nat) (stroke : DWord) (hits : List ResHit)
deriving DecidableEq, Repr

/-- An instruction that nothing has been done of. -/
def prog0 : Progress := ⟨0, [], none, 0, 0, none, []⟩

/-- One try of an instruction: its core, the effects so far, the data of the accesses that earlier tries have made since the last row
taken, how far it has come, the rows it may take (R142), and whether it may finish (R143). -/
structure Run where
  c : Core
  fx : List Fx
  old : List (List Byte) := []
  prog : Progress := prog0
  lim : Option Nat := none
  fin : Bool := true
deriving DecidableEq, Repr

/-- A first try. -/
def Run.fresh (c : Core) : Run := { c := c, fx := [] }

/-- A try of a held instruction goes on where the last one stood. -/
def Run.again (c : Core) (g : Progress) (lim : Option Nat) (fin : Bool) : Run :=
  ⟨c, [], g.log.reverse, { g with log := [] }, lim, fin⟩

/-- One access (R249): it stands where an earlier try has made it; else `go` makes it, or the instruction is held here. -/
def Run.access (r : Run) (go : Option (List Byte × Run)) : Except Run (List Byte × Run) :=
  match r.old with
  | bs :: old => .ok (bs, { r with old := old, prog := { r.prog with log := bs :: r.prog.log } })
  | [] => match go with
    | none => .error r
    | some (bs, r) => .ok (bs, { r with prog := { r.prog with log := bs :: r.prog.log } })

/-- A row, group or granule is done with (R142, R216). -/
def Run.rowDone (r : Run) : Run := { r with prog := { r.prog with pos := r.prog.pos + 1, log := [] } }

/-- The next row may be taken (R142). -/
def Run.mayTake (r : Run) : Bool := match r.lim with | none => true | some n => decide (r.prog.pos < n)

def Run.emit (r : Run) (e : Fx) : Run := { r with fx := r.fx ++ [e] }

/-- ME_RES_CAP0 of a block (R155). -/
def resCap0 (tile row col lane : Nat) (cls filler trans split : Bool) : Nat :=
  tile + 2 ^ 8 * row + 2 ^ 16 * col + 2 ^ 22 * lane + bitNat cls * 2 ^ 24 + bitNat filler * 2 ^ 25 + bitNat trans * 2 ^ 26 +
  bitNat split * 2 ^ 27 + 2 ^ 31

/-! ### Streams and their registers (R158) -/

def Core.stream (c : Core) : Stream → StreamSt
  | .f => c.f | .b => c.b | .u => c.u

def Core.setStream (c : Core) (st : Stream) (x : StreamSt) : Core :=
  match st with
  | .f => { c with f := x } | .b => { c with b := x } | .u => { c with u := x }

/-- Reads a scalar of a register file; s0 reads 0. -/
def sget (t : Tbl DWord) (n : Nat) : DWord := if n = 0 then 0 else tget 0 t n
/-- Reads a predicate; p0 reads all ones. -/
def pget (t : Tbl (BitVec 1024)) (n : Nat) : BitVec 1024 := if n = 0 then BitVec.allOnes 1024 else tget 0 t n

/-- Writes a scalar; a write to s0 is ignored. -/
def StreamSt.setS (x : StreamSt) (n : Nat) (v : DWord) : StreamSt :=
  if n = 0 then x else { x with sreg := tset 0 x.sreg n v }
/-- Writes a predicate; a write to p0 is ignored. -/
def StreamSt.setP (x : StreamSt) (n : Nat) (v : BitVec 1024) : StreamSt :=
  if n = 0 then x else { x with preg := tset 0 x.preg n v }
/-- Word `w` of vector register `r`, counted from the start of a group: word 64 r + w. -/
def StreamSt.vword (x : StreamSt) (k : Nat) : Word := tget 0 x.vreg k
def StreamSt.setVword (x : StreamSt) (k : Nat) (v : Word) : StreamSt := { x with vreg := tset 0 x.vreg k v }

def Run.setS (r : Run) (st : Stream) (n : Nat) (v : DWord) : Run :=
  { r with c := r.c.setStream st ((r.c.stream st).setS n v) }
def Run.setP (r : Run) (st : Stream) (n : Nat) (v : BitVec 1024) : Run :=
  { r with c := r.c.setStream st ((r.c.stream st).setP n v) }

/-- Scalar and predicate of an issue, as captured. -/
def Issue.s (i : Issue) (n : BitVec 6) : DWord := sget i.sreg n.toNat
def Issue.p (i : Issue) (n : BitVec 3) : BitVec 1024 := pget i.preg n.toNat

/-! ### Core-memory references (R183) -/

def refOff (a : DWord) : Nat := (a.extractLsb' 0 25).toNat
def refVx (a : DWord) : Nat := (a.extractLsb' 25 3).toNat
def refVy (a : DWord) : Nat := (a.extractLsb' 28 4).toNat
def refSelf (a : DWord) : Bool := a.getLsbD 32
def cmBytes : Nat := 0x1800000

/-- `cm_ok` of R183. -/
def cmOk (x : Ctx) (a : DWord) (bytes : Nat) (own : Bool) (align : Nat) : Bool :=
  if (a.extractLsb' 33 31).toNat ≠ 0 then false
  else if refOff a % align ≠ 0 ∨ cmBytes < refOff a + bytes then false
  else if refSelf a then true
  else if x.gridW ≤ refVx a ∨ x.gridH ≤ refVy a then false
  else if own && (refVx a != x.vx || refVy a != x.vy) then false
  else true

/-- The virtual position a reference names. -/
def refPos (x : Ctx) (a : DWord) : Nat := if refSelf a then x.self else refVy a * 8 + refVx a

/-- Event 0x0910 ADDR_RANGE of an instruction (R207). -/
def Run.addrRange (r : Run) (i : Issue) (detail : Nat) : Run :=
  r.emit (.ev 0x0910 (opcodeOf i.op) i.st.codeNat detail [])

/-! ### Valid bits and generation tags (R247 to R251, R499) -/

/-- The region entry that governs a granule: the lowest index that covers it (R248). -/
def regionOf (x : Ctx) (g : Nat) : Option Region := x.rgns.find? (fun e => decide (e.base ≤ g ∧ g ≤ e.last))

def RgnGen.rp (r : RgnGen) : Stream → BitVec 4
  | .f => r.rpF | .b => r.rpB | .u => r.rpU

def RgnGen.bumpRp (r : RgnGen) (st : Stream) : RgnGen :=
  match st with
  | .f => { r with rpF := r.rpF + 1 } | .b => { r with rpB := r.rpB + 1 } | .u => { r with rpU := r.rpU + 1 }

/-- `hw_write` of R249 on one granule: none where the writer is held. -/
def hwWrite (x : Ctx) (g : Nat) (lastByte : Bool) (c : Core) : Option Core :=
  match regionOf x g with
  | none => some c
  | some e =>
    let q := tget gran0 c.gran g
    if q.v then none
    else if lastByte then
      let w := tget rgn0 c.rgn e.idx
      let c := { c with gran := tset gran0 c.gran g ⟨true, w.wg, e.readers⟩ }
      some (if g = e.last then { c with rgn := tset rgn0 c.rgn e.idx { w with wg := w.wg + 1 } } else c)
    else some c

/-- `hw_read` of R249 on one granule: none where the reader is held; else whether the read is stale, with the event words of
R250. -/
def hwRead (x : Ctx) (st : Stream) (g : Nat) (c : Core) : Option (Core × Option (Region × Nat × Nat)) :=
  match regionOf x g with
  | none => some (c, none)
  | some e =>
    let q := tget gran0 c.gran g
    if q.v then
      let w := tget rgn0 c.rgn e.idx
      let left := q.left - 1
      let c := { c with gran := tset gran0 c.gran g ⟨left != 0, q.gen, left⟩ }
      let c := if g = e.last then { c with rgn := tset rgn0 c.rgn e.idx (w.bumpRp st) } else c
      some (c, if q.gen = w.rp st then none else some (e, q.gen.toNat, (w.rp st).toNat))
    else none

/-- The granules an access of `len` bytes at offset `off` spans. -/
def granules (off len : Nat) : List Nat :=
  if len = 0 then [] else List.range' (off / 64) ((off + len - 1) / 64 - off / 64 + 1)

/-- The first TYPED region an access of format `f` meets whose format differs (R499). -/
def typedClash (x : Ctx) (f : Fmt) (off len : Nat) : Option Region :=
  (granules off len).findSome? (fun g =>
    match regionOf x g with
    | some e => if e.typed && e.fmt != f.code then some e else none
    | none => none)

/-- Event 0x0901 FORMAT_TAG (R256). -/
def Run.formatTag (r : Run) (i : Issue) (eng declared heldFmt cond : Nat) : Run :=
  r.emit (.ev 0x0901 (opcodeOf i.op + 256 * eng) i.st.codeNat (declared + 16 * heldFmt + 256 * cond) [])

/-- Reads the granules of one access in ascending order; none where the access is held whole (R249). The answer lists the
stale granules. -/
def readGranules (x : Ctx) (st : Stream) : List Nat → Core → Option (Core × List (Nat × Region × Nat × Nat))
  | [], c => some (c, [])
  | g :: gs, c =>
    match hwRead x st g c with
    | none => none
    | some (c, s) =>
      match readGranules x st gs c with
      | none => none
      | some (c, ss) => some (c, match s with | none => ss | some (e, a, b) => (g, e, a, b) :: ss)

/-- Writes the side bits of one access's granules; none where the access is held whole. -/
def writeGranules (x : Ctx) (off len : Nat) : List Nat → Core → Option Core
  | [], c => some c
  | g :: gs, c =>
    match hwWrite x g (decide (64 * g + 63 < off + len)) c with
    | none => none
    | some c => writeGranules x off len gs c

/-- Event 0x0902 GEN_STALE with the CMB captures (R250, R252). -/
def staleFx (st : Stream) (s : Nat × Region × Nat × Nat) (stroke : DWord) : Fx :=
  let (g, e, found, want) := s
  .ev 0x0902 e.idx st.codeNat (found + 16 * want + 256 * (g - e.base))
    [e.idx + 64 * st.codeNat + 256 * found + 4096 * want + 0x80000000, g - e.base, stroke.toNat % 2 ^ 32]

/-- Zeroes the bytes of stale granules in the data of an access at `off` (R250). -/
def maskStale (off : Nat) (stale : List Nat) (bs : List Byte) : List Byte :=
  bs.zipIdx.map (fun p => if stale.contains ((off + p.2) / 64) then 0 else p.1)

/-- One read access of the issuing core's own memory: the data, with zeros for stale granules; zeros with event 0x0901 where
a TYPED region holds another format. -/
def Run.read (r : Run) (x : Ctx) (i : Issue) (f : Option Fmt) (eng : Nat) (off len : Nat) : Except Run (List Byte × Run) :=
  r.access (match f.bind (fun f => typedClash x f off len) with
  | some e => some (List.replicate len 0,
      r.formatTag i eng ((f.map (fun f => f.code.toNat)).getD 0) e.fmt.toNat 6)
  | none =>
    match readGranules x i.st (granules off len) r.c with
    | none => none
    | some (c, ss) =>
      let bs := maskStale off (ss.map (·.1)) (bytesAt c.cm off len)
      some (bs, ss.foldl (fun r s => r.emit (staleFx i.st s x.stroke)) { r with c := c }))

/-- One write access of the issuing core's own memory. `bs` gives each byte, or none where the byte keeps its value. -/
def writeBytes (m : List Host.Cell) (a : Nat) : List (Option Byte) → List Host.Cell
  | [] => m
  | none :: bs => writeBytes m (a + 1) bs
  | some b :: bs => writeBytes (setByte m a b) (a + 1) bs

def Run.write (r : Run) (x : Ctx) (i : Issue) (f : Option Fmt) (eng : Nat) (off : Nat) (bs : List (Option Byte)) :
    Except Run Run :=
  (r.access (match f.bind (fun f => typedClash x f off bs.length) with
  | some e => some ([], r.formatTag i eng ((f.map (fun f => f.code.toNat)).getD 0) e.fmt.toNat 6)
  | none =>
    (writeGranules x off bs.length (granules off bs.length) r.c).map
      (fun c => ([], { r with c := { c with cm := writeBytes c.cm off bs } })))).map (·.2)

/-! ### Sync counters (R76, R77) -/

/-- The add of R76 with the event of R77: the waiter is the SOURCE of R474 (1 F, 2 B, 3 U, 4 MU, 5 network; R483). -/
def Run.ctrAdd (r : Run) (ctr : Nat) (d : Word) (waiter : Nat) : Run :=
  let v := tget 0 r.c.ctr ctr
  let n := v.toNat + d.toNat
  let c := { r.c with added := tset 0 r.c.added ctr (tget 0 r.c.added ctr + d.toNat) }
  if 0xFFFFFFFF < n then
    Run.emit { r with c := { c with ctr := tset 0 c.ctr ctr 0xFFFFFFFF } } (.ev 0x0201 ctr waiter v.toNat [])
  else { r with c := { c with ctr := tset 0 c.ctr ctr (BitVec.ofNat 32 n) } }

/-- The subtract of R76 with the event of R77. -/
def Run.ctrSub (r : Run) (ctr : Nat) (d : Word) (waiter : Nat) : Run :=
  let v := tget 0 r.c.ctr ctr
  if v.toNat < d.toNat then
    Run.emit { r with c := { r.c with ctr := tset 0 r.c.ctr ctr 0 } } (.ev 0x0202 ctr waiter v.toNat [])
  else { r with c := { r.c with ctr := tset 0 r.c.ctr ctr (v - d) } }

/-- A counter update named by EN_R or EN_D: adds 1 where enabled. -/
def Run.ctrUp (r : Run) (ctr : Option Nat) (waiter : Nat) : Run :=
  match ctr with
  | none => r
  | some k => r.ctrAdd k 1 waiter

def enCtr (en : Bool) (k : BitVec 12) : Option Nat := if en then some k.toNat else none

/-- The condition of a wait on a counter value (R195). -/
def waitHolds (cond : Nat) (v k : Word) : Bool :=
  if cond = 1 then v == k else decide (k.toNat ≤ v.toNat)

/-- The operand of format C or S: an immediate, or bits [31:0] of a scalar (R182). -/
def ctrOperand (i : Issue) (immf : Bool) (val : BitVec 24) : Word :=
  if immf then val.zeroExtend 32 else (sget i.sreg (val.toNat % 64)).truncate 32

end Sys2Proof.Machine
end

