-- ==== Sys2Proof/Machine/Flags.lean ====
section
/-!
DEFINITION. The numeric flags of a stream (R93, R94, R229): how an instruction raises them.
-/

namespace Sys2Proof.Machine

open Sys2Proof

/-- A FLAGS of the stream that waits, issued before number `seq`. -/
def flagsWaits (c : Core) (st : Stream) (seq : Nat) : Bool :=
  c.held.any (fun h => h.st == st && decide (h.seq < seq) && match h.op with | .flags _ => true | _ => false)

/-- ORs flags raised by instruction `i` into its stream's word, or beside it where an earlier FLAGS has not read yet. -/
def Run.raiseFlags (r : Run) (i : Issue) (f : Flg) : Run :=
  if f = 0 then r
  else
    let x := r.c.stream i.st
    let x' := if flagsWaits r.c i.st i.seq then { x with lateFlags := x.lateFlags ++ [(i.seq, f)] }
      else { x with flags := x.flags ||| f }
    Run.emit { r with c := r.c.setStream i.st x' } (.flags f)

end Sys2Proof.Machine
end

