-- ==== Sys2Proof/Machine/RegTable.lean ====
section
/-!
DEFINITION. The register pages of BAR0 (R461 to R464) and every register of every page: one row for each register or
array, with its fields, their access codes, reset values and ranges, as the tables of spec/ give them. Fields whose reset is
`boot` or `fused` stand at 0 here; BOOT and the views of `Machine/Regs.lean` give their values. Bits no row names are
reserved.
-/

namespace Sys2Proof.Machine

open Sys2Proof

/-- The blocks of R461 and R462. -/
inductive Blk
  | pci | mss | sec | log | stk | num | noc | hbm | blk | igs | asy | brn | pwr | thm | fab | core | cc | ve | mu | cmb | syn | me
deriving DecidableEq, Repr

/-- BLOCK codes (R461, R462). -/
def Blk.code : Blk → Nat
  | .pci => 0x14
  | .mss => 0x13
  | .sec => 0x15
  | .log => 0x16
  | .stk => 0x1
  | .num => 0x2
  | .noc => 0x9
  | .hbm => 0xA
  | .blk => 0xB
  | .igs => 0xD
  | .asy => 0xF
  | .brn => 0x10
  | .pwr => 0x11
  | .thm => 0x12
  | .fab => 0xC
  | .core => 0x3
  | .cc => 0x6
  | .ve => 0x5
  | .mu => 0x7
  | .cmb => 0x8
  | .syn => 0xE
  | .me => 0x4

/-- The access codes of R468. -/
inductive Acc
  | ro | rw | rwl | w1c | w1p | wo
deriving DecidableEq, Repr

/-- A field: lowest bit, width, access code, reset value, and the range of values it takes (R469). -/
structure RField where
  lsb : Nat
  wid : Nat
  acc : Acc
  rst : Nat
  lo : Nat
  hi : Nat
deriving DecidableEq, Repr

/-- Half of a 64-bit value held in two words (R471). -/
inductive Half
  | none | lo | hi
deriving DecidableEq, Repr

/-- A register, or an array of `cnt` registers `stride` bytes apart. -/
structure RegRow where
  name : String
  page : Nat
  off : Nat
  stride : Nat
  cnt : Nat
  half : Half
  fields : List RField
deriving DecidableEq, Repr

/-- A field that takes every value of its width. -/
def rf (lsb wid : Nat) (acc : Acc) (rst : Nat) : RField := ⟨lsb, wid, acc, rst, 0, 2 ^ wid - 1⟩

def rows_pci0 : List RegRow :=
  [⟨"PCI_RING_BASE_LO", 0, 0x100, 8, 1, .lo, [rf 0 32 .rw 0x0]⟩,
   ⟨"PCI_RING_BASE_HI", 0, 0x104, 8, 1, .hi, [rf 0 32 .rw 0x0]⟩,
   ⟨"PCI_RING_CFG", 0, 0x108, 4, 1, .none, [⟨0, 4, .rw, 0x0, 0, 8⟩, rf 4 1 .rw 0x0]⟩,
   ⟨"PCI_RING_PI_LO", 0, 0x10C, 8, 1, .lo, [rf 0 32 .rw 0x0]⟩,
   ⟨"PCI_RING_PI_HI", 0, 0x110, 8, 1, .hi, [rf 0 32 .rw 0x0]⟩,
   ⟨"PCI_RING_CI", 0, 0x114, 4, 1, .none, [rf 0 12 .ro 0x0]⟩,
   ⟨"PCI_CPL_BASE_LO", 0, 0x118, 8, 1, .lo, [rf 0 32 .rw 0x0]⟩,
   ⟨"PCI_CPL_BASE_HI", 0, 0x11C, 8, 1, .hi, [rf 0 32 .rw 0x0]⟩,
   ⟨"PCI_CPL_CFG", 0, 0x120, 4, 1, .none, [⟨0, 4, .rw, 0x0, 0, 8⟩, rf 4 3 .rw 0x0]⟩,
   ⟨"PCI_CPL_PI", 0, 0x124, 4, 1, .none, [rf 0 12 .ro 0x0]⟩,
   ⟨"PCI_CPL_CI", 0, 0x128, 4, 1, .none, [rf 0 12 .rw 0x0]⟩,
   ⟨"PCI_BAR2_SEL", 0, 0x12C, 4, 1, .none, [rf 0 4 .rw 0x0, rf 4 8 .rw 0x0, rf 12 20 .rw 0x0]⟩]

def rows_pci1 : List RegRow :=
  [⟨"PCI_WAKE", 0, 0x130, 4, 1, .none, [rf 0 1 .w1p 0x0]⟩,
   ⟨"PCI_RECOVERY", 0, 0x134, 4, 1, .none, [rf 0 1 .w1p 0x0, rf 1 1 .ro 0x0]⟩]

def rows_pci : List RegRow := rows_pci0 ++ rows_pci1

def rows_mss : List RegRow :=
  [⟨"MSS_STATE", 0, 0x100, 4, 1, .none, [rf 0 4 .ro 0x2, rf 4 1 .ro 0x0, rf 5 1 .ro 0x0, rf 8 3 .ro 0x0]⟩,
   ⟨"MSS_ELAPSED_LO", 0, 0x108, 8, 1, .lo, [rf 0 32 .ro 0x0]⟩,
   ⟨"MSS_ELAPSED_HI", 0, 0x10C, 8, 1, .hi, [rf 0 32 .ro 0x0]⟩,
   ⟨"MSS_WALL_LO", 0, 0x110, 8, 1, .lo, [rf 0 32 .rw 0x0]⟩,
   ⟨"MSS_WALL_HI", 0, 0x114, 8, 1, .hi, [rf 0 32 .rw 0x0]⟩,
   ⟨"MSS_FW", 0, 0x118, 4, 1, .none, [rf 0 32 .ro 0x0]⟩]

def rows_sec : List RegRow :=
  [⟨"SEC_HALLMARK", 0, 0x100, 4, 8, .none, [rf 0 32 .ro 0x0]⟩,
   ⟨"SEC_SVN", 0, 0x120, 4, 1, .none, [rf 0 8 .ro 0x0, rf 8 8 .ro 0x0]⟩,
   ⟨"SEC_SEALS", 0, 0x124, 4, 1, .none, [rf 0 7 .ro 0x0]⟩]

def rows_log : List RegRow :=
  [⟨"LOG_BASE_LO", 0, 0x100, 8, 1, .lo, [rf 0 32 .rw 0x0]⟩,
   ⟨"LOG_BASE_HI", 0, 0x104, 8, 1, .hi, [rf 0 32 .rw 0x0]⟩,
   ⟨"LOG_CFG", 0, 0x108, 4, 1, .none, [⟨0, 5, .rw, 0x0, 4, 20⟩, ⟨5, 3, .rw, 0x0, 0, 4⟩, rf 8 3 .rw 0x1, rf 11 1 .rw 0x0]⟩,
   ⟨"LOG_PI", 0, 0x10C, 4, 1, .none, [rf 0 32 .ro 0x0]⟩,
   ⟨"LOG_CI", 0, 0x110, 4, 1, .none, [rf 0 32 .rw 0x0]⟩,
   ⟨"LOG_DROP", 0, 0x114, 4, 1, .none, [rf 0 32 .ro 0x0]⟩]

def rows_stk0 : List RegRow :=
  [⟨"STK_PART", 0, 0x100, 4, 1, .none, [rf 0 8 .ro 0x0, rf 8 8 .ro 0x0, rf 16 8 .ro 0x0]⟩,
   ⟨"STK_SPARE", 0, 0x104, 4, 1, .none, [rf 0 8 .ro 0x0, rf 8 8 .ro 0x0, rf 16 8 .ro 0x0, rf 24 8 .ro 0x0]⟩,
   ⟨"STK_FENCED", 0, 0x108, 4, 1, .none, [rf 0 8 .ro 0x0, rf 8 8 .ro 0x0, rf 16 8 .ro 0x0, rf 24 8 .ro 0x0]⟩,
   ⟨"STK_CORE_MAP", 0, 0x200, 4, 144, .none, [rf 0 3 .ro 0x0, rf 4 3 .ro 0x0, rf 8 4 .ro 0x0]⟩,
   ⟨"STK_STROKE_CFG", 1, 0x100, 4, 1, .none, [⟨0, 5, .rwl, 0x12, 14, 22⟩, rf 8 1 .rwl 0x0, rf 16 8 .rwl 0x40]⟩,
   ⟨"STK_DEV_STROKE_LO", 1, 0x108, 8, 1, .lo, [rf 0 32 .ro 0x0]⟩,
   ⟨"STK_DEV_STROKE_HI", 1, 0x10C, 8, 1, .hi, [rf 0 32 .ro 0x0]⟩,
   ⟨"STK_JOB_STROKE_LO", 1, 0x110, 8, 1, .lo, [rf 0 32 .ro 0x0]⟩,
   ⟨"STK_JOB_STROKE_HI", 1, 0x114, 8, 1, .hi, [rf 0 32 .ro 0x0]⟩,
   ⟨"STK_STEP_LO", 1, 0x118, 8, 1, .lo, [rf 0 32 .ro 0x0]⟩,
   ⟨"STK_STEP_HI", 1, 0x11C, 8, 1, .hi, [rf 0 32 .ro 0x0]⟩,
   ⟨"STK_OVR_CNT", 1, 0x120, 4, 1, .none, [rf 0 32 .ro 0x0]⟩]

def rows_stk1 : List RegRow :=
  [⟨"STK_OVR_MAX", 1, 0x124, 4, 1, .none, [rf 0 32 .ro 0x0]⟩,
   ⟨"STK_OVR_CYC_LO", 1, 0x128, 8, 1, .lo, [rf 0 32 .ro 0x0]⟩,
   ⟨"STK_OVR_CYC_HI", 1, 0x12C, 8, 1, .hi, [rf 0 32 .ro 0x0]⟩,
   ⟨"STK_GRID", 2, 0x100, 4, 1, .none, [rf 0 4 .rwl 0x0, rf 8 5 .rwl 0x0]⟩,
   ⟨"STK_PLACE", 2, 0x200, 4, 128, .none, [rf 0 8 .rwl 0x0, rf 31 1 .rwl 0x0]⟩,
   ⟨"STK_VOTE_CFG", 3, 0x100, 4, 1, .none, [rf 0 16 .rwl 0x100]⟩,
   ⟨"STK_LS_CFG", 3, 0x104, 4, 1, .none, [rf 0 8 .rwl 0x8F, rf 8 8 .rwl 0x7F, rf 16 8 .rwl 0x9F, rf 24 4 .rwl 0xB, rf 28 1 .rwl 0x1]⟩,
   ⟨"STK_LS_STAT", 3, 0x108, 4, 1, .none, [rf 0 8 .ro 0x0, rf 8 16 .ro 0x0]⟩,
   ⟨"STK_CLIP", 3, 0x10C, 4, 1, .none, [rf 0 32 .rwl 0x0]⟩,
   ⟨"STK_BAND_CFG", 3, 0x110, 4, 1, .none, [rf 0 1 .rwl 0x0, ⟨1, 2, .rwl, 0x0, 0, 2⟩, rf 3 1 .rwl 0x0, ⟨4, 2, .rwl, 0x0, 0, 2⟩, ⟨6, 5, .rwl, 0x4, 1, 31⟩, rf 11 13 .rwl 0x64, rf 24 8 .rwl 0x8]⟩,
   ⟨"STK_LOSS_RATIO", 3, 0x114, 4, 1, .none, [rf 0 32 .rwl 0x40000000]⟩,
   ⟨"STK_NORM_RATIO", 3, 0x118, 4, 1, .none, [rf 0 32 .rwl 0x40800000]⟩]

def rows_stk2 : List RegRow :=
  [⟨"STK_NORM_COLL", 3, 0x11C, 4, 1, .none, [rf 0 32 .rwl 0x0]⟩,
   ⟨"STK_LREF", 3, 0x120, 4, 1, .none, [rf 0 32 .ro 0x0]⟩,
   ⟨"STK_NREF", 3, 0x124, 4, 1, .none, [rf 0 32 .ro 0x0]⟩,
   ⟨"STK_LAST_LOSS", 3, 0x128, 4, 1, .none, [rf 0 32 .ro 0x0]⟩,
   ⟨"STK_LAST_SUMSQ", 3, 0x12C, 4, 1, .none, [rf 0 32 .ro 0x0]⟩,
   ⟨"STK_LAST_NF", 3, 0x130, 4, 1, .none, [rf 0 32 .ro 0x0]⟩,
   ⟨"STK_VERDICT", 3, 0x134, 4, 1, .none, [rf 0 16 .ro 0x0, rf 16 5 .ro 0x0, rf 21 1 .ro 0x0]⟩,
   ⟨"STK_SKIP_CNT", 3, 0x138, 4, 1, .none, [rf 0 32 .ro 0x0]⟩,
   ⟨"STK_HOLD_RUN", 3, 0x13C, 4, 1, .none, [rf 0 8 .ro 0x0]⟩,
   ⟨"STK_VOTE_WAIT_LO", 3, 0x140, 8, 1, .lo, [rf 0 32 .ro 0x0]⟩,
   ⟨"STK_VOTE_WAIT_HI", 3, 0x144, 8, 1, .hi, [rf 0 32 .ro 0x0]⟩,
   ⟨"STK_LEDGER_PI", 3, 0x148, 4, 1, .none, [rf 0 32 .ro 0x0]⟩]

def rows_stk3 : List RegRow :=
  [⟨"STK_LEDGER_CI", 3, 0x14C, 4, 1, .none, [rf 0 32 .rw 0x0]⟩,
   ⟨"STK_SMAP_BASE_LO", 3, 0x150, 8, 1, .lo, [rf 0 32 .rwl 0x0]⟩,
   ⟨"STK_SMAP_BASE_HI", 3, 0x154, 8, 1, .hi, [rf 0 32 .rwl 0x0]⟩,
   ⟨"STK_SMAP_CNT", 3, 0x158, 4, 1, .none, [⟨0, 32, .rwl, 0x0, 0, 65536⟩]⟩,
   ⟨"STK_SREG_BASE", 3, 0x200, 16, 32, .none, [rf 0 32 .rwl 0x0]⟩,
   ⟨"STK_SREG_LEN", 3, 0x204, 16, 32, .none, [rf 0 32 .rwl 0x0]⟩,
   ⟨"STK_SREG_OFS", 3, 0x208, 16, 32, .none, [rf 0 32 .rwl 0x0]⟩,
   ⟨"STK_SREG_CTL", 3, 0x20C, 16, 32, .none, [rf 0 1 .rwl 0x0, rf 1 1 .rwl 0x0, rf 2 1 .ro 0x0]⟩]

def rows_stk : List RegRow := rows_stk0 ++ rows_stk1 ++ rows_stk2 ++ rows_stk3

def rows_num : List RegRow :=
  [⟨"NUM_MODE", 0, 0x100, 4, 1, .none, [rf 0 8 .ro 0x1, rf 8 1 .rwl 0x0, ⟨16, 7, .rwl, 0x0, 1, 96⟩]⟩,
   ⟨"NUM_SEED_LO", 0, 0x108, 8, 1, .lo, [rf 0 32 .rwl 0x0]⟩,
   ⟨"NUM_SEED_HI", 0, 0x10C, 8, 1, .hi, [rf 0 32 .rwl 0x0]⟩,
   ⟨"NUM_FLAG_SUM", 0, 0x110, 4, 1, .none, [rf 0 8 .w1c 0x0]⟩]

def rows_noc : List RegRow :=
  [⟨"NOC_LDT_CAP", 0, 0x100, 4, 1, .none, [rf 0 8 .ro 0x0]⟩,
   ⟨"NOC_LDT_SEL", 0, 0x104, 4, 1, .none, [rf 0 8 .rwl 0x2]⟩,
   ⟨"NOC_LDT", 0, 0x108, 4, 1, .none, [rf 0 8 .ro 0x0, rf 8 8 .ro 0x0, rf 16 8 .ro 0x0, rf 24 8 .ro 0x0]⟩,
   ⟨"NOC_PAD", 1, 0x200, 4, 32, .none, [rf 0 8 .ro 0x0, rf 8 8 .ro 0x0, rf 16 8 .ro 0x0, rf 24 8 .ro 0x0]⟩]

def rows_hbm0 : List RegRow :=
  [⟨"HBM_MAP", 0, 0x100, 4, 1, .none, [rf 0 9 .ro 0x0, rf 16 3 .ro 0x0]⟩,
   ⟨"HBM_CFG", 0, 0x104, 4, 1, .none, [rf 0 2 .rwl 0x0]⟩,
   ⟨"HBM_CE_THRESH", 0, 0x108, 4, 1, .none, [rf 0 16 .rwl 0x100]⟩,
   ⟨"HBM_STRETCH_CYC_LO", 0, 0x110, 8, 1, .lo, [rf 0 32 .ro 0x0]⟩,
   ⟨"HBM_STRETCH_CYC_HI", 0, 0x114, 8, 1, .hi, [rf 0 32 .ro 0x0]⟩,
   ⟨"HBM_LAG_CYC_LO", 0, 0x118, 8, 1, .lo, [rf 0 32 .ro 0x0]⟩,
   ⟨"HBM_LAG_CYC_HI", 0, 0x11C, 8, 1, .hi, [rf 0 32 .ro 0x0]⟩,
   ⟨"HBM_LMAP", 0, 0x200, 4, 384, .none, [rf 0 9 .ro 0x0, rf 30 1 .ro 0x0, rf 31 1 .ro 0x0]⟩,
   ⟨"HBM_RGN_BASE", 0, 0x800, 8, 64, .none, [rf 0 20 .rwl 0x0]⟩,
   ⟨"HBM_RGN_CTL", 0, 0x804, 8, 64, .none, [rf 0 20 .rwl 0x0, ⟨20, 2, .rwl, 0x0, 0, 2⟩]⟩,
   ⟨"HBM_CAP0", 0, 0x28, 4, 1, .none, [rf 0 9 .ro 0x0, rf 9 9 .ro 0x0, rf 18 6 .ro 0x0, rf 24 2 .ro 0x0, rf 31 1 .ro 0x0]⟩,
   ⟨"HBM_CAP1", 0, 0x2C, 4, 1, .none, [rf 0 32 .ro 0x0]⟩]

def rows_hbm1 : List RegRow :=
  [⟨"HBM_CAP2", 0, 0x30, 4, 1, .none, [rf 0 2 .ro 0x0, rf 8 7 .ro 0x0, rf 16 10 .ro 0x0]⟩,
   ⟨"HBM_CAP3", 0, 0x34, 4, 1, .none, [rf 0 32 .ro 0x0]⟩,
   ⟨"HBM_CAP4", 0, 0x38, 4, 1, .none, [rf 0 32 .ro 0x0]⟩,
   ⟨"HBM_STK_STAT", 1, 0x100, 4, 1, .none, [rf 0 8 .ro 0x0, rf 8 2 .ro 0x0, rf 10 1 .ro 0x0, rf 11 1 .ro 0x0]⟩,
   ⟨"HBM_PC_CLR", 1, 0x180, 4, 1, .none, [rf 0 32 .w1p 0x0]⟩,
   ⟨"HBM_PC_STAT", 1, 0x200, 4, 32, .none, [rf 0 16 .ro 0x0, rf 16 8 .ro 0x0, rf 24 1 .ro 0x0, rf 25 1 .ro 0x0, rf 26 1 .ro 0x0]⟩]

def rows_hbm : List RegRow := rows_hbm0 ++ rows_hbm1

def rows_blk : List RegRow :=
  [⟨"BLK_CAP0", 0, 0x28, 4, 1, .none, [rf 0 4 .ro 0x0, rf 4 2 .ro 0x0, rf 31 1 .ro 0x0]⟩,
   ⟨"BLK_CAP1", 0, 0x2C, 4, 1, .none, [rf 0 32 .ro 0x0]⟩,
   ⟨"BLK_CAP2", 0, 0x30, 4, 1, .none, [rf 0 32 .ro 0x0]⟩,
   ⟨"BLK_CFG", 0, 0x100, 4, 1, .none, [⟨0, 2, .rwl, 0x0, 0, 2⟩, ⟨4, 3, .rwl, 0x0, 0, 4⟩]⟩,
   ⟨"BLK_STAT", 0, 0x104, 4, 1, .none, [rf 0 12 .ro 0x0, rf 16 3 .ro 0x0]⟩,
   ⟨"BLK_CH_STAT", 0, 0x200, 4, 12, .none, [rf 0 16 .ro 0x0, rf 16 8 .ro 0x0, rf 24 1 .ro 0x0, rf 25 1 .ro 0x0]⟩]

def rows_igs0 : List RegRow :=
  [⟨"IGS_CFG", 0, 0x100, 4, 1, .none, [rf 0 16 .rwl 0xB806, rf 16 1 .rwl 0x0, rf 17 1 .rwl 0x0, rf 18 12 .rwl 0x0]⟩,
   ⟨"IGS_MEMBER", 0, 0x104, 4, 1, .none, [rf 0 13 .rwl 0x0]⟩,
   ⟨"IGS_EPOCH", 0, 0x108, 4, 1, .none, [rf 0 32 .ro 0x0]⟩,
   ⟨"IGS_HM_FRAG", 0, 0x10C, 4, 1, .none, [rf 0 32 .ro 0x0]⟩,
   ⟨"IGS_RTO", 0, 0x110, 4, 1, .none, [rf 0 16 .rwl 0xC8, rf 16 8 .rwl 0x32]⟩,
   ⟨"IGS_IP4", 0, 0x114, 4, 1, .none, [rf 0 32 .rwl 0x0]⟩,
   ⟨"IGS_IP6", 0, 0x118, 4, 4, .none, [rf 0 32 .rwl 0x0]⟩,
   ⟨"IGS_MAC_LO", 0, 0x128, 8, 1, .lo, [rf 0 32 .rwl 0x0]⟩,
   ⟨"IGS_MAC_HI", 0, 0x12C, 8, 1, .hi, [rf 0 16 .rwl 0x0]⟩,
   ⟨"IGS_TC_MAP0", 0, 0x140, 4, 1, .none, [rf 0 6 .rwl 0x30, rf 8 3 .rwl 0x6]⟩,
   ⟨"IGS_TC_MAP1", 0, 0x144, 4, 1, .none, [rf 0 6 .rwl 0x28, rf 8 3 .rwl 0x5]⟩,
   ⟨"IGS_TC_MAP2", 0, 0x148, 4, 1, .none, [rf 0 6 .rwl 0x1A, rf 8 3 .rwl 0x3]⟩]

def rows_igs1 : List RegRow :=
  [⟨"IGS_TC_MAP3", 0, 0x14C, 4, 1, .none, [rf 0 6 .rwl 0xA, rf 8 3 .rwl 0x1]⟩,
   ⟨"IGS_RESEND_LO", 0, 0x160, 8, 1, .lo, [rf 0 32 .ro 0x0]⟩,
   ⟨"IGS_RESEND_HI", 0, 0x164, 8, 1, .hi, [rf 0 32 .ro 0x0]⟩,
   ⟨"IGS_RESEND_FAIL", 0, 0x168, 4, 1, .none, [rf 0 32 .ro 0x0]⟩,
   ⟨"IGS_ABSENT", 0, 0x16C, 4, 1, .none, [rf 0 32 .ro 0x0]⟩,
   ⟨"IGS_HM_REFUSED", 0, 0x170, 4, 1, .none, [rf 0 32 .ro 0x0]⟩,
   ⟨"IGS_EPOCH_REFUSED", 0, 0x174, 4, 1, .none, [rf 0 32 .ro 0x0]⟩,
   ⟨"IGS_CE_MARKED", 0, 0x178, 4, 1, .none, [rf 0 32 .ro 0x0]⟩,
   ⟨"IGS_FAILOVER", 0, 0x17C, 4, 1, .none, [rf 0 32 .ro 0x0]⟩,
   ⟨"IGS_EPOCH_WAIT_LO", 0, 0x180, 8, 1, .lo, [rf 0 32 .ro 0x0]⟩,
   ⟨"IGS_EPOCH_WAIT_HI", 0, 0x184, 8, 1, .hi, [rf 0 32 .ro 0x0]⟩,
   ⟨"IGS_LD_STAT", 1, 0x100, 4, 1, .none, [rf 0 2 .ro 0x0, rf 8 8 .w1c 0x0]⟩]

def rows_igs2 : List RegRow :=
  [⟨"IGS_LD_ID", 1, 0x104, 4, 1, .none, [rf 0 32 .ro 0x0]⟩,
   ⟨"IGS_LD_CHUNKS", 1, 0x108, 4, 1, .none, [rf 0 32 .ro 0x0]⟩,
   ⟨"IGS_LD_TMO", 1, 0x10C, 4, 1, .none, [rf 0 16 .rwl 0x64]⟩,
   ⟨"IGS_LD_ADM", 1, 0x110, 4, 1, .none, [rf 0 12 .rwl 0x0, rf 12 3 .rwl 0x0, rf 15 4 .rwl 0x0, ⟨19, 8, .rwl, 0x1, 1, 255⟩, rf 31 1 .rwl 0x0]⟩,
   ⟨"IGS_LD_ADMITTED_LO", 1, 0x118, 8, 1, .lo, [rf 0 32 .ro 0x0]⟩,
   ⟨"IGS_LD_ADMITTED_HI", 1, 0x11C, 8, 1, .hi, [rf 0 32 .ro 0x0]⟩,
   ⟨"IGS_LD_VER", 1, 0x120, 4, 1, .none, [rf 0 32 .ro 0x0]⟩,
   ⟨"IGS_LD_FREE_LO", 1, 0x128, 8, 1, .lo, [rf 0 32 .ro 0x0]⟩,
   ⟨"IGS_LD_FREE_HI", 1, 0x12C, 8, 1, .hi, [rf 0 32 .ro 0x0]⟩,
   ⟨"IGS_LD_DONE_LO", 1, 0x130, 8, 1, .lo, [rf 0 32 .ro 0x0]⟩,
   ⟨"IGS_LD_DONE_HI", 1, 0x134, 8, 1, .hi, [rf 0 32 .ro 0x0]⟩,
   ⟨"IGS_LD_LAYER", 1, 0x200, 4, 64, .none, [rf 0 12 .rwl 0x0, rf 12 3 .rwl 0x0, rf 15 4 .rwl 0x0, rf 31 1 .rwl 0x0]⟩]

def rows_igs : List RegRow := rows_igs0 ++ rows_igs1 ++ rows_igs2

def rows_asy0 : List RegRow :=
  [⟨"ASY_STAT", 0, 0x100, 4, 1, .none, [rf 0 2 .ro 0x0, rf 2 4 .ro 0x0]⟩,
   ⟨"ASY_STEP_LO", 0, 0x108, 8, 1, .lo, [rf 0 32 .ro 0x0]⟩,
   ⟨"ASY_STEP_HI", 0, 0x10C, 8, 1, .hi, [rf 0 32 .ro 0x0]⟩,
   ⟨"ASY_LIMIT", 0, 0x110, 4, 1, .none, [rf 0 32 .ro 0x0]⟩,
   ⟨"ASY_CLR", 0, 0x114, 4, 1, .none, [rf 0 1 .w1p 0x0]⟩,
   ⟨"ASY_REC0", 0, 0x200, 32, 8, .none, [rf 0 8 .ro 0x0, rf 8 7 .ro 0x0, rf 16 4 .ro 0x0, rf 20 2 .ro 0x0, rf 22 2 .ro 0x0, rf 24 3 .ro 0x0, rf 31 1 .ro 0x0]⟩,
   ⟨"ASY_REC1", 0, 0x204, 32, 8, .none, [rf 0 32 .ro 0x0]⟩,
   ⟨"ASY_REC2", 0, 0x208, 32, 8, .none, [rf 0 32 .ro 0x0]⟩,
   ⟨"ASY_REC3", 0, 0x20C, 32, 8, .none, [rf 0 32 .ro 0x0]⟩,
   ⟨"ASY_REC4", 0, 0x210, 32, 8, .none, [rf 0 32 .ro 0x0]⟩,
   ⟨"ASY_REC5", 0, 0x214, 32, 8, .none, [rf 0 32 .ro 0x0]⟩,
   ⟨"ASY_REC6", 0, 0x218, 32, 8, .none, [rf 0 32 .ro 0x0]⟩]

def rows_asy1 : List RegRow :=
  [⟨"ASY_REC7", 0, 0x21C, 32, 8, .none, [rf 0 32 .ro 0x0]⟩,
   ⟨"ASY_BLAME_OVF", 1, 0x100, 4, 1, .none, [rf 0 32 .ro 0x0]⟩,
   ⟨"ASY_BLAME", 1, 0x200, 8, 64, .none, [rf 0 13 .ro 0x0, rf 16 13 .ro 0x0, rf 31 1 .ro 0x0]⟩,
   ⟨"ASY_BLAME_LH", 1, 0x204, 8, 64, .none, [rf 0 32 .ro 0x0]⟩]

def rows_asy : List RegRow := rows_asy0 ++ rows_asy1

def rows_brn : List RegRow :=
  [⟨"BRN_CFG", 0, 0x100, 4, 1, .none, [rf 0 1 .rwl 0x1, rf 1 1 .rwl 0x0, ⟨8, 8, .rwl, 0x18, 1, 24⟩, ⟨16, 8, .rwl, 0x7, 1, 7⟩, ⟨24, 8, .rwl, 0x8, 1, 64⟩]⟩,
   ⟨"BRN_PACK", 0, 0x104, 4, 1, .none, [rf 0 16 .ro 0x0, rf 16 8 .ro 0x0]⟩,
   ⟨"BRN_STAT", 0, 0x108, 4, 1, .none, [rf 0 8 .ro 0xFF, rf 8 8 .ro 0x0, rf 16 1 .ro 0x0, rf 17 1 .ro 0x0, rf 18 1 .ro 0x0]⟩,
   ⟨"BRN_PASS_CNT", 0, 0x110, 4, 1, .none, [rf 0 32 .ro 0x0]⟩,
   ⟨"BRN_FAIL_CNT", 0, 0x114, 4, 1, .none, [rf 0 32 .ro 0x0]⟩,
   ⟨"BRN_DEFER_CNT", 0, 0x118, 4, 1, .none, [rf 0 32 .ro 0x0]⟩,
   ⟨"BRN_PAUSE_CYC_LO", 0, 0x120, 8, 1, .lo, [rf 0 32 .ro 0x0]⟩,
   ⟨"BRN_PAUSE_CYC_HI", 0, 0x124, 8, 1, .hi, [rf 0 32 .ro 0x0]⟩,
   ⟨"BRN_REPL", 0, 0x130, 4, 1, .none, [rf 0 1 .ro 0x0, rf 1 1 .ro 0x0, rf 2 1 .ro 0x0, rf 3 1 .ro 0x0, rf 4 1 .ro 0x0, rf 5 1 .ro 0x0, rf 6 1 .ro 0x0, rf 7 1 .ro 0x0, rf 8 1 .ro 0x0, rf 16 1 .ro 0x0]⟩,
   ⟨"BRN_REPL_CFG", 0, 0x134, 4, 1, .none, [rf 0 4 .rwl 0x1, rf 4 8 .rwl 0x3]⟩,
   ⟨"BRN_LAST", 0, 0x200, 4, 144, .none, [rf 0 27 .ro 0x0, rf 27 2 .ro 0x0]⟩]

def rows_pwr0 : List RegRow :=
  [⟨"PWR_CAP", 0, 0x100, 4, 1, .none, [⟨0, 12, .rw, 0xAF0, 1100, 2800⟩, rf 12 8 .rw 0x32]⟩,
   ⟨"PWR_CTL", 0, 0x104, 4, 1, .none, [⟨0, 5, .rw, 0x10, 0, 16⟩, rf 5 1 .rwl 0x1, rf 6 1 .rwl 0x1, rf 7 1 .rwl 0x1, rf 8 4 .rw 0x0, rf 12 8 .rwl 0x40, rf 20 6 .rwl 0x1E]⟩,
   ⟨"PWR_ANNEAL", 0, 0x108, 4, 1, .none, [rf 0 6 .rwl 0xC, rf 8 6 .rwl 0x8, rf 16 6 .rwl 0x3]⟩,
   ⟨"PWR_STAT", 0, 0x10C, 4, 1, .none, [rf 0 4 .ro 0x0, rf 4 4 .ro 0x0, rf 8 3 .ro 0x0, rf 11 1 .ro 0x0]⟩,
   ⟨"PWR_STROKE_E", 0, 0x110, 4, 1, .none, [rf 0 32 .ro 0x0]⟩,
   ⟨"PWR_STEP_E_LO", 0, 0x118, 8, 1, .lo, [rf 0 32 .ro 0x0]⟩,
   ⟨"PWR_STEP_E_HI", 0, 0x11C, 8, 1, .hi, [rf 0 32 .ro 0x0]⟩,
   ⟨"PWR_TOTAL_E_LO", 0, 0x120, 8, 1, .lo, [rf 0 32 .ro 0x0]⟩,
   ⟨"PWR_TOTAL_E_HI", 0, 0x124, 8, 1, .hi, [rf 0 32 .ro 0x0]⟩,
   ⟨"PWR_STRETCH_CNT", 0, 0x128, 4, 1, .none, [rf 0 32 .ro 0x0]⟩,
   ⟨"PWR_STRETCH_NS_LO", 0, 0x130, 8, 1, .lo, [rf 0 32 .ro 0x0]⟩,
   ⟨"PWR_STRETCH_NS_HI", 0, 0x134, 8, 1, .hi, [rf 0 32 .ro 0x0]⟩]

def rows_pwr1 : List RegRow :=
  [⟨"PWR_PACE", 0, 0x138, 4, 1, .none, [rf 0 13 .ro 0x0, rf 13 4 .ro 0x0, rf 31 1 .ro 0x0]⟩,
   ⟨"PWR_CLASS", 0, 0x200, 4, 16, .none, [rf 0 12 .rwl 0x0]⟩,
   ⟨"PWR_VF", 0, 0x240, 4, 16, .none, [rf 0 10 .ro 0x0, rf 10 5 .ro 0x0]⟩]

def rows_pwr : List RegRow := rows_pwr0 ++ rows_pwr1

def rows_thm : List RegRow :=
  [⟨"THM_TJ", 0, 0x100, 4, 1, .none, [rf 0 8 .ro 0x0, rf 8 2 .ro 0x0, rf 10 4 .ro 0x0]⟩,
   ⟨"THM_CFG", 0, 0x104, 4, 1, .none, [⟨0, 8, .rwl, 0x5F, 80, 100⟩]⟩,
   ⟨"THM_TJ_MAX", 0, 0x108, 4, 1, .none, [rf 0 8 .ro 0x0]⟩]

def rows_fab : List RegRow :=
  [⟨"FAB_PORT_CFG", 0, 0x100, 4, 1, .none, [rf 0 1 .rwl 0x0, ⟨1, 2, .rwl, 0x0, 0, 2⟩, rf 3 1 .rwl 0x1, rf 4 4 .rwl 0x0]⟩,
   ⟨"FAB_PORT_STAT", 0, 0x104, 4, 1, .none, [rf 0 1 .ro 0x0, rf 1 1 .ro 0x0, rf 2 1 .ro 0x0, rf 3 1 .ro 0x0, rf 4 1 .ro 0x0]⟩,
   ⟨"FAB_NH_MAC_LO", 0, 0x108, 8, 1, .lo, [rf 0 32 .rwl 0x0]⟩,
   ⟨"FAB_NH_MAC_HI", 0, 0x10C, 8, 1, .hi, [rf 0 16 .rwl 0x0]⟩,
   ⟨"FAB_RETRY_LO", 0, 0x110, 8, 1, .lo, [rf 0 32 .ro 0x0]⟩,
   ⟨"FAB_RETRY_HI", 0, 0x114, 8, 1, .hi, [rf 0 32 .ro 0x0]⟩,
   ⟨"FAB_RETRY_DROP", 0, 0x118, 4, 1, .none, [rf 0 32 .ro 0x0]⟩,
   ⟨"FAB_FEC_CORR_LO", 0, 0x120, 8, 1, .lo, [rf 0 32 .ro 0x0]⟩,
   ⟨"FAB_FEC_CORR_HI", 0, 0x124, 8, 1, .hi, [rf 0 32 .ro 0x0]⟩,
   ⟨"FAB_FEC_UNCORR", 0, 0x128, 4, 1, .none, [rf 0 32 .ro 0x0]⟩,
   ⟨"FAB_LANE_THRESH", 0, 0x12C, 4, 1, .none, [rf 0 16 .rwl 0x40]⟩]

def rows_core0 : List RegRow :=
  [⟨"CORE_CAP0", 0, 0x28, 4, 1, .none, [rf 0 3 .ro 0x0, rf 3 5 .ro 0x0, rf 31 1 .ro 0x0]⟩,
   ⟨"CORE_CAP1", 0, 0x2C, 4, 1, .none, [rf 0 19 .ro 0x0]⟩,
   ⟨"CORE_CAP2", 0, 0x30, 4, 1, .none, [rf 0 32 .ro 0x0]⟩,
   ⟨"CORE_CV_READ_LO", 0, 0x100, 8, 1, .lo, [rf 0 32 .ro 0x0]⟩,
   ⟨"CORE_CV_READ_HI", 0, 0x104, 8, 1, .hi, [rf 0 32 .ro 0x0]⟩,
   ⟨"CORE_CV_WRITE_LO", 0, 0x108, 8, 1, .lo, [rf 0 32 .ro 0x0]⟩,
   ⟨"CORE_CV_WRITE_HI", 0, 0x10C, 8, 1, .hi, [rf 0 32 .ro 0x0]⟩,
   ⟨"CORE_CV_BANK_LO", 0, 0x110, 8, 1, .lo, [rf 0 32 .ro 0x0]⟩,
   ⟨"CORE_CV_BANK_HI", 0, 0x114, 8, 1, .hi, [rf 0 32 .ro 0x0]⟩,
   ⟨"CORE_CV_REG_LO", 0, 0x118, 8, 1, .lo, [rf 0 32 .ro 0x0]⟩,
   ⟨"CORE_CV_REG_HI", 0, 0x11C, 8, 1, .hi, [rf 0 32 .ro 0x0]⟩,
   ⟨"CORE_CV_QUEUE_LO", 0, 0x120, 8, 1, .lo, [rf 0 32 .ro 0x0]⟩]

def rows_core1 : List RegRow :=
  [⟨"CORE_CV_QUEUE_HI", 0, 0x124, 8, 1, .hi, [rf 0 32 .ro 0x0]⟩,
   ⟨"CORE_CV_ADDR", 0, 0x128, 4, 1, .none, [rf 0 32 .ro 0x0]⟩,
   ⟨"CORE_CV_FMT", 0, 0x12C, 4, 1, .none, [rf 0 32 .ro 0x0]⟩,
   ⟨"CORE_CV_GEN", 0, 0x130, 4, 1, .none, [rf 0 32 .ro 0x0]⟩,
   ⟨"CORE_CV_SYNC", 0, 0x134, 4, 1, .none, [rf 0 32 .ro 0x0]⟩,
   ⟨"CORE_CV_THRESH", 0, 0x138, 4, 1, .none, [rf 0 32 .rwl 0x0]⟩,
   ⟨"CORE_CV_STEP", 0, 0x13C, 4, 1, .none, [rf 0 32 .ro 0x0]⟩,
   ⟨"CORE_SHARD_LO", 0, 0x200, 8, 16, .lo, [rf 0 32 .rwl 0xFFFFFFFF]⟩,
   ⟨"CORE_SHARD_HI", 0, 0x204, 8, 16, .hi, [rf 0 32 .rwl 0xFFFFFFFF]⟩]

def rows_core : List RegRow := rows_core0 ++ rows_core1

def rows_cc : List RegRow :=
  [⟨"CC_CAP0", 0, 0x28, 4, 1, .none, [rf 0 4 .ro 0x0, rf 4 2 .ro 0x0, rf 31 1 .ro 0x0]⟩,
   ⟨"CC_CAP1", 0, 0x2C, 4, 1, .none, [rf 0 32 .ro 0x0]⟩,
   ⟨"CC_CAP2", 0, 0x30, 4, 1, .none, [rf 0 32 .ro 0x0]⟩,
   ⟨"CC_CAP3", 0, 0x34, 4, 1, .none, [rf 0 32 .ro 0x0]⟩,
   ⟨"CC_CAP4", 0, 0x38, 4, 1, .none, [rf 0 32 .ro 0x0]⟩,
   ⟨"CC_CAP5", 0, 0x3C, 4, 1, .none, [rf 0 32 .ro 0x0]⟩,
   ⟨"CC_SLOT_PAT", 0, 0x100, 4, 1, .none, [rf 0 2 .ro 0x0, rf 2 2 .ro 0x0, rf 4 2 .ro 0x0, rf 6 2 .ro 0x0, rf 8 2 .ro 0x0, rf 10 2 .ro 0x0, rf 12 2 .ro 0x0, rf 14 2 .ro 0x0]⟩,
   ⟨"CC_STREAM_STAT", 0, 0x104, 4, 1, .none, [rf 0 3 .ro 0x0, rf 4 3 .ro 0x0, rf 8 3 .ro 0x0]⟩,
   ⟨"CC_LOCK_CNT", 0, 0x108, 4, 1, .none, [rf 0 32 .ro 0x0]⟩]

def rows_ve0 : List RegRow :=
  [⟨"VE_CAP0", 0, 0x28, 4, 1, .none, [rf 0 5 .ro 0x0, rf 8 2 .ro 0x0, rf 16 6 .ro 0x0, rf 31 1 .ro 0x0]⟩,
   ⟨"VE_CAP1", 0, 0x2C, 4, 1, .none, [rf 0 32 .ro 0x0]⟩,
   ⟨"VE_BUSY_CYC_LO", 0, 0x100, 8, 1, .lo, [rf 0 32 .ro 0x0]⟩,
   ⟨"VE_BUSY_CYC_HI", 0, 0x104, 8, 1, .hi, [rf 0 32 .ro 0x0]⟩,
   ⟨"VE_QFULL_CYC_LO", 0, 0x108, 8, 1, .lo, [rf 0 32 .ro 0x0]⟩,
   ⟨"VE_QFULL_CYC_HI", 0, 0x10C, 8, 1, .hi, [rf 0 32 .ro 0x0]⟩,
   ⟨"VE_PAR_CNT", 0, 0x110, 4, 1, .none, [rf 0 32 .ro 0x0]⟩,
   ⟨"VE_DUP_STAT", 0, 0x118, 4, 1, .none, [rf 0 6 .ro 0x0, rf 6 2 .ro 0x0]⟩,
   ⟨"VE_DUP_CNT", 0, 0x11C, 4, 1, .none, [rf 0 32 .ro 0x0]⟩,
   ⟨"VE_DUP_CAP0", 0, 0x120, 4, 1, .none, [rf 0 6 .ro 0x0, rf 6 2 .ro 0x0, rf 8 8 .ro 0x0, rf 16 3 .ro 0x0, rf 19 1 .ro 0x0, rf 31 1 .ro 0x0]⟩,
   ⟨"VE_DUP_CAP1", 0, 0x124, 4, 1, .none, [rf 0 32 .ro 0x0]⟩,
   ⟨"VE_DUP_CAP2", 0, 0x128, 4, 1, .none, [rf 0 32 .ro 0x0]⟩]

def rows_ve1 : List RegRow :=
  [⟨"VE_DUP_CAP3", 0, 0x12C, 4, 1, .none, [rf 0 8 .ro 0x0, rf 8 8 .ro 0x0]⟩,
   ⟨"VE_DUP_CAP4", 0, 0x130, 4, 1, .none, [rf 0 32 .ro 0x0]⟩,
   ⟨"VE_DUP_ORD", 0, 0x134, 4, 1, .none, [rf 0 32 .ro 0x0]⟩]

def rows_ve : List RegRow := rows_ve0 ++ rows_ve1

def rows_mu : List RegRow :=
  [⟨"MU_CAP0", 0, 0x28, 4, 1, .none, [rf 0 8 .ro 0x0, rf 8 2 .ro 0x0, rf 31 1 .ro 0x0]⟩,
   ⟨"MU_CAP1", 0, 0x2C, 4, 1, .none, [rf 0 32 .ro 0x0]⟩,
   ⟨"MU_CAP2", 0, 0x30, 4, 1, .none, [rf 0 32 .ro 0x0]⟩,
   ⟨"MU_BUSY_CYC_LO", 0, 0x100, 8, 1, .lo, [rf 0 32 .ro 0x0]⟩,
   ⟨"MU_BUSY_CYC_HI", 0, 0x104, 8, 1, .hi, [rf 0 32 .ro 0x0]⟩]

/-- Words of the region table take every value: R252 says what the device does with an entry out of range (DEDUCED, log entry 53). -/
def rows_cmb : List RegRow :=
  [⟨"CMB_CAP0", 0, 0x28, 4, 1, .none, [rf 0 6 .ro 0x0, rf 6 2 .ro 0x0, rf 8 4 .ro 0x0, rf 12 4 .ro 0x0, rf 31 1 .ro 0x0]⟩,
   ⟨"CMB_CAP1", 0, 0x2C, 4, 1, .none, [rf 0 19 .ro 0x0]⟩,
   ⟨"CMB_CAP2", 0, 0x30, 4, 1, .none, [rf 0 32 .ro 0x0]⟩,
   ⟨"CMB_RGN_BASE", 0, 0x200, 8, 64, .none, [rf 0 19 .rwl 0x0]⟩,
   ⟨"CMB_RGN_CTL", 0, 0x204, 8, 64, .none, [rf 0 19 .rwl 0x0, rf 19 2 .rwl 0x0, rf 21 4 .rwl 0x0, rf 25 4 .rwl 0x0, rf 29 1 .rwl 0x0, rf 30 1 .rwl 0x0]⟩,
   ⟨"CMB_RGN_GEN", 0, 0x400, 4, 64, .none, [rf 0 4 .ro 0x0, rf 4 4 .ro 0x0, rf 8 4 .ro 0x0, rf 12 4 .ro 0x0]⟩]

def rows_syn : List RegRow :=
  [⟨"SYN_CAP0", 0, 0x28, 4, 1, .none, [rf 0 12 .ro 0x0, rf 12 3 .ro 0x0, rf 15 2 .ro 0x0, rf 31 1 .ro 0x0]⟩,
   ⟨"SYN_CAP1", 0, 0x2C, 4, 1, .none, [rf 0 32 .ro 0x0]⟩,
   ⟨"SYN_CAP2", 0, 0x30, 4, 1, .none, [rf 0 32 .ro 0x0]⟩,
   ⟨"SYN_WAIT_CYC_LO", 0, 0x100, 8, 1, .lo, [rf 0 32 .ro 0x0]⟩,
   ⟨"SYN_WAIT_CYC_HI", 0, 0x104, 8, 1, .hi, [rf 0 32 .ro 0x0]⟩]

def rows_me0 : List RegRow :=
  [⟨"ME_CAP0", 0, 0x28, 4, 1, .none, [rf 0 3 .ro 0x0, rf 8 8 .ro 0x0, rf 16 6 .ro 0x0, rf 24 6 .ro 0x0, rf 30 1 .ro 0x0, rf 31 1 .ro 0x0]⟩,
   ⟨"ME_CAP1", 0, 0x2C, 4, 1, .none, [rf 0 32 .ro 0x0]⟩,
   ⟨"ME_CAP2", 0, 0x30, 4, 1, .none, [rf 0 32 .ro 0x0]⟩,
   ⟨"ME_CAP3", 0, 0x34, 4, 1, .none, [rf 0 32 .ro 0x0]⟩,
   ⟨"ME_CAP4", 0, 0x38, 4, 1, .none, [rf 0 8 .ro 0x0, rf 8 8 .ro 0x0, rf 16 4 .ro 0x0, rf 20 4 .ro 0x0, rf 24 1 .ro 0x0, rf 25 1 .ro 0x0]⟩,
   ⟨"ME_CAP5", 0, 0x3C, 4, 1, .none, [rf 0 32 .ro 0x0]⟩,
   ⟨"ME_SPARE_MAP", 0, 0x100, 4, 1, .none, [rf 0 7 .ro 0x0, rf 8 7 .ro 0x0, rf 16 7 .ro 0x0, rf 24 7 .ro 0x0]⟩,
   ⟨"ME_PROBE", 0, 0x104, 4, 1, .none, [rf 0 1 .ro 0x0, rf 1 1 .ro 0x0, rf 2 1 .ro 0x0, rf 3 1 .ro 0x0, rf 4 6 .ro 0x0, rf 16 8 .ro 0x0]⟩,
   ⟨"ME_WORK_CYC_LO", 0, 0x110, 8, 1, .lo, [rf 0 32 .ro 0x0]⟩,
   ⟨"ME_WORK_CYC_HI", 0, 0x114, 8, 1, .hi, [rf 0 32 .ro 0x0]⟩,
   ⟨"ME_PLAN_CYC_LO", 0, 0x118, 8, 1, .lo, [rf 0 32 .ro 0x0]⟩,
   ⟨"ME_PLAN_CYC_HI", 0, 0x11C, 8, 1, .hi, [rf 0 32 .ro 0x0]⟩]

def rows_me1 : List RegRow :=
  [⟨"ME_WAVE_CYC_LO", 0, 0x120, 8, 1, .lo, [rf 0 32 .ro 0x0]⟩,
   ⟨"ME_WAVE_CYC_HI", 0, 0x124, 8, 1, .hi, [rf 0 32 .ro 0x0]⟩,
   ⟨"ME_RES_CNT", 0, 0x128, 4, 1, .none, [rf 0 32 .ro 0x0]⟩,
   ⟨"ME_RES_CAP0", 0, 0x130, 4, 1, .none, [rf 0 3 .ro 0x0, rf 8 8 .ro 0x0, rf 16 6 .ro 0x0, rf 22 2 .ro 0x0, rf 24 1 .ro 0x0, rf 25 1 .ro 0x0, rf 26 1 .ro 0x0, rf 27 1 .ro 0x0, rf 31 1 .ro 0x0]⟩,
   ⟨"ME_RES_CAP1", 0, 0x134, 4, 1, .none, [rf 0 32 .ro 0x0]⟩,
   ⟨"ME_RES_CAP2", 0, 0x138, 4, 1, .none, [rf 0 31 .ro 0x0]⟩,
   ⟨"ME_RES_CAP3", 0, 0x13C, 4, 1, .none, [rf 0 31 .ro 0x0]⟩,
   ⟨"ME_RES_CAP4", 0, 0x140, 4, 1, .none, [rf 0 32 .ro 0x0]⟩]

def rows_me : List RegRow := rows_me0 ++ rows_me1

/-- The rows of a block. -/
def rowsOf : Blk → List RegRow
  | .pci => rows_pci
  | .mss => rows_mss
  | .sec => rows_sec
  | .log => rows_log
  | .stk => rows_stk
  | .num => rows_num
  | .noc => rows_noc
  | .hbm => rows_hbm
  | .blk => rows_blk
  | .igs => rows_igs
  | .asy => rows_asy
  | .brn => rows_brn
  | .pwr => rows_pwr
  | .thm => rows_thm
  | .fab => rows_fab
  | .core => rows_core
  | .cc => rows_cc
  | .ve => rows_ve
  | .mu => rows_mu
  | .cmb => rows_cmb
  | .syn => rows_syn
  | .me => rows_me

/-- The window of physical core `p` (R462). -/
def coreWin (p : Nat) : Nat := 0x1000000 + p * 0x10000

/-! ### BAR0 offsets of the registers, by name -/

def Reg.stkPart : Nat := 0x10100
def Reg.stkSpare : Nat := 0x10104
def Reg.stkFenced : Nat := 0x10108
def Reg.stkCoreMap (i : Nat) : Nat := 0x10200 + 4 * i
def Reg.stkStrokeCfg : Nat := 0x11100
def Reg.stkDevStrokeLo : Nat := 0x11108
def Reg.stkDevStrokeHi : Nat := 0x1110C
def Reg.stkJobStrokeLo : Nat := 0x11110
def Reg.stkJobStrokeHi : Nat := 0x11114
def Reg.stkStepLo : Nat := 0x11118
def Reg.stkStepHi : Nat := 0x1111C
def Reg.stkOvrCnt : Nat := 0x11120
def Reg.stkOvrMax : Nat := 0x11124
def Reg.stkOvrCycLo : Nat := 0x11128
def Reg.stkOvrCycHi : Nat := 0x1112C
def Reg.stkGrid : Nat := 0x12100
def Reg.stkPlace (i : Nat) : Nat := 0x12200 + 4 * i
def Reg.stkVoteCfg : Nat := 0x13100
def Reg.stkLsCfg : Nat := 0x13104
def Reg.stkLsStat : Nat := 0x13108
def Reg.stkClip : Nat := 0x1310C
def Reg.stkBandCfg : Nat := 0x13110
def Reg.stkLossRatio : Nat := 0x13114
def Reg.stkNormRatio : Nat := 0x13118
def Reg.stkNormColl : Nat := 0x1311C
def Reg.stkLref : Nat := 0x13120
def Reg.stkNref : Nat := 0x13124
def Reg.stkLastLoss : Nat := 0x13128
def Reg.stkLastSumsq : Nat := 0x1312C
def Reg.stkLastNf : Nat := 0x13130
def Reg.stkVerdict : Nat := 0x13134
def Reg.stkSkipCnt : Nat := 0x13138
def Reg.stkHoldRun : Nat := 0x1313C
def Reg.stkVoteWaitLo : Nat := 0x13140
def Reg.stkVoteWaitHi : Nat := 0x13144
def Reg.stkLedgerPi : Nat := 0x13148
def Reg.stkLedgerCi : Nat := 0x1314C
def Reg.stkSmapBaseLo : Nat := 0x13150
def Reg.stkSmapBaseHi : Nat := 0x13154
def Reg.stkSmapCnt : Nat := 0x13158
def Reg.stkSregBase (i : Nat) : Nat := 0x13200 + 16 * i
def Reg.stkSregLen (i : Nat) : Nat := 0x13204 + 16 * i
def Reg.stkSregOfs (i : Nat) : Nat := 0x13208 + 16 * i
def Reg.stkSregCtl (i : Nat) : Nat := 0x1320C + 16 * i
def Reg.numMode : Nat := 0x14100
def Reg.numSeedLo : Nat := 0x14108
def Reg.numSeedHi : Nat := 0x1410C
def Reg.numFlagSum : Nat := 0x14110
def Reg.nocLdtCap : Nat := 0x18100
def Reg.nocLdtSel : Nat := 0x18104
def Reg.nocLdt : Nat := 0x18108
def Reg.nocPad (p : Nat) (i : Nat) : Nat := coreWin p + 0x6200 + 4 * i
def Reg.hbmMap : Nat := 0x20100
def Reg.hbmCfg : Nat := 0x20104
def Reg.hbmCeThresh : Nat := 0x20108
def Reg.hbmStretchCycLo : Nat := 0x20110
def Reg.hbmStretchCycHi : Nat := 0x20114
def Reg.hbmLagCycLo : Nat := 0x20118
def Reg.hbmLagCycHi : Nat := 0x2011C
def Reg.hbmLmap (i : Nat) : Nat := 0x20200 + 4 * i
def Reg.hbmRgnBase (i : Nat) : Nat := 0x20800 + 8 * i
def Reg.hbmRgnCtl (i : Nat) : Nat := 0x20804 + 8 * i
def Reg.hbmCap0 : Nat := 0x20028
def Reg.hbmCap1 : Nat := 0x2002C
def Reg.hbmCap2 : Nat := 0x20030
def Reg.hbmCap3 : Nat := 0x20034
def Reg.hbmCap4 : Nat := 0x20038
def Reg.hbmStkStat (s : Nat) : Nat := 0x21000 + s * 0x1000 + 0x100
def Reg.hbmPcClr (s : Nat) : Nat := 0x21000 + s * 0x1000 + 0x180
def Reg.hbmPcStat (s : Nat) (i : Nat) : Nat := 0x21000 + s * 0x1000 + 0x200 + 4 * i
def Reg.blkCap0 : Nat := 0x30028
def Reg.blkCap1 : Nat := 0x3002C
def Reg.blkCap2 : Nat := 0x30030
def Reg.blkCfg : Nat := 0x30100
def Reg.blkStat : Nat := 0x30104
def Reg.blkChStat (i : Nat) : Nat := 0x30200 + 4 * i
def Reg.fabPortCfg (q : Nat) : Nat := 0x200000 + q * 0x1000 + 0x100
def Reg.fabPortStat (q : Nat) : Nat := 0x200000 + q * 0x1000 + 0x104
def Reg.fabNhMacLo (q : Nat) : Nat := 0x200000 + q * 0x1000 + 0x108
def Reg.fabNhMacHi (q : Nat) : Nat := 0x200000 + q * 0x1000 + 0x10C
def Reg.fabRetryLo (q : Nat) : Nat := 0x200000 + q * 0x1000 + 0x110
def Reg.fabRetryHi (q : Nat) : Nat := 0x200000 + q * 0x1000 + 0x114
def Reg.fabRetryDrop (q : Nat) : Nat := 0x200000 + q * 0x1000 + 0x118
def Reg.fabFecCorrLo (q : Nat) : Nat := 0x200000 + q * 0x1000 + 0x120
def Reg.fabFecCorrHi (q : Nat) : Nat := 0x200000 + q * 0x1000 + 0x124
def Reg.fabFecUncorr (q : Nat) : Nat := 0x200000 + q * 0x1000 + 0x128
def Reg.fabLaneThresh (q : Nat) : Nat := 0x200000 + q * 0x1000 + 0x12C
def Reg.igsCfg : Nat := 0x38100
def Reg.igsMember : Nat := 0x38104
def Reg.igsEpoch : Nat := 0x38108
def Reg.igsHmFrag : Nat := 0x3810C
def Reg.igsRto : Nat := 0x38110
def Reg.igsIp4 : Nat := 0x38114
def Reg.igsIp6 (i : Nat) : Nat := 0x38118 + 4 * i
def Reg.igsMacLo : Nat := 0x38128
def Reg.igsMacHi : Nat := 0x3812C
def Reg.igsTcMap0 : Nat := 0x38140
def Reg.igsTcMap1 : Nat := 0x38144
def Reg.igsTcMap2 : Nat := 0x38148
def Reg.igsTcMap3 : Nat := 0x3814C
def Reg.igsResendLo : Nat := 0x38160
def Reg.igsResendHi : Nat := 0x38164
def Reg.igsResendFail : Nat := 0x38168
def Reg.igsAbsent : Nat := 0x3816C
def Reg.igsHmRefused : Nat := 0x38170
def Reg.igsEpochRefused : Nat := 0x38174
def Reg.igsCeMarked : Nat := 0x38178
def Reg.igsFailover : Nat := 0x3817C
def Reg.igsEpochWaitLo : Nat := 0x38180
def Reg.igsEpochWaitHi : Nat := 0x38184
def Reg.igsLdStat : Nat := 0x39100
def Reg.igsLdId : Nat := 0x39104
def Reg.igsLdChunks : Nat := 0x39108
def Reg.igsLdTmo : Nat := 0x3910C
def Reg.igsLdAdm : Nat := 0x39110
def Reg.igsLdAdmittedLo : Nat := 0x39118
def Reg.igsLdAdmittedHi : Nat := 0x3911C
def Reg.igsLdVer : Nat := 0x39120
def Reg.igsLdFreeLo : Nat := 0x39128
def Reg.igsLdFreeHi : Nat := 0x3912C
def Reg.igsLdDoneLo : Nat := 0x39130
def Reg.igsLdDoneHi : Nat := 0x39134
def Reg.igsLdLayer (i : Nat) : Nat := 0x39200 + 4 * i
def Reg.asyStat : Nat := 0x40100
def Reg.asyStepLo : Nat := 0x40108
def Reg.asyStepHi : Nat := 0x4010C
def Reg.asyLimit : Nat := 0x40110
def Reg.asyClr : Nat := 0x40114
def Reg.asyRec0 (i : Nat) : Nat := 0x40200 + 32 * i
def Reg.asyRec1 (i : Nat) : Nat := 0x40204 + 32 * i
def Reg.asyRec2 (i : Nat) : Nat := 0x40208 + 32 * i
def Reg.asyRec3 (i : Nat) : Nat := 0x4020C + 32 * i
def Reg.asyRec4 (i : Nat) : Nat := 0x40210 + 32 * i
def Reg.asyRec5 (i : Nat) : Nat := 0x40214 + 32 * i
def Reg.asyRec6 (i : Nat) : Nat := 0x40218 + 32 * i
def Reg.asyRec7 (i : Nat) : Nat := 0x4021C + 32 * i
def Reg.asyBlameOvf : Nat := 0x41100
def Reg.asyBlame (i : Nat) : Nat := 0x41200 + 8 * i
def Reg.asyBlameLh (i : Nat) : Nat := 0x41204 + 8 * i
def Reg.brnCfg : Nat := 0x48100
def Reg.brnPack : Nat := 0x48104
def Reg.brnStat : Nat := 0x48108
def Reg.brnPassCnt : Nat := 0x48110
def Reg.brnFailCnt : Nat := 0x48114
def Reg.brnDeferCnt : Nat := 0x48118
def Reg.brnPauseCycLo : Nat := 0x48120
def Reg.brnPauseCycHi : Nat := 0x48124
def Reg.brnRepl : Nat := 0x48130
def Reg.brnReplCfg : Nat := 0x48134
def Reg.brnLast (i : Nat) : Nat := 0x48200 + 4 * i
def Reg.pwrCap : Nat := 0x50100
def Reg.pwrCtl : Nat := 0x50104
def Reg.pwrAnneal : Nat := 0x50108
def Reg.pwrStat : Nat := 0x5010C
def Reg.pwrStrokeE : Nat := 0x50110
def Reg.pwrStepELo : Nat := 0x50118
def Reg.pwrStepEHi : Nat := 0x5011C
def Reg.pwrTotalELo : Nat := 0x50120
def Reg.pwrTotalEHi : Nat := 0x50124
def Reg.pwrStretchCnt : Nat := 0x50128
def Reg.pwrStretchNsLo : Nat := 0x50130
def Reg.pwrStretchNsHi : Nat := 0x50134
def Reg.pwrPace : Nat := 0x50138
def Reg.pwrClass (i : Nat) : Nat := 0x50200 + 4 * i
def Reg.pwrVf (i : Nat) : Nat := 0x50240 + 4 * i
def Reg.thmTj : Nat := 0x51100
def Reg.thmCfg : Nat := 0x51104
def Reg.thmTjMax : Nat := 0x51108
def Reg.pciRingBaseLo : Nat := 0x100
def Reg.pciRingBaseHi : Nat := 0x104
def Reg.pciRingCfg : Nat := 0x108
def Reg.pciRingPiLo : Nat := 0x10C
def Reg.pciRingPiHi : Nat := 0x110
def Reg.pciRingCi : Nat := 0x114
def Reg.pciCplBaseLo : Nat := 0x118
def Reg.pciCplBaseHi : Nat := 0x11C
def Reg.pciCplCfg : Nat := 0x120
def Reg.pciCplPi : Nat := 0x124
def Reg.pciCplCi : Nat := 0x128
def Reg.pciBar2Sel : Nat := 0x12C
def Reg.pciWake : Nat := 0x130
def Reg.pciRecovery : Nat := 0x134
def Reg.mssState : Nat := 0x1100
def Reg.mssElapsedLo : Nat := 0x1108
def Reg.mssElapsedHi : Nat := 0x110C
def Reg.mssWallLo : Nat := 0x1110
def Reg.mssWallHi : Nat := 0x1114
def Reg.mssFw : Nat := 0x1118
def Reg.secHallmark (i : Nat) : Nat := 0x2100 + 4 * i
def Reg.secSvn : Nat := 0x2120
def Reg.secSeals : Nat := 0x2124
def Reg.logBaseLo : Nat := 0x3100
def Reg.logBaseHi : Nat := 0x3104
def Reg.logCfg : Nat := 0x3108
def Reg.logPi : Nat := 0x310C
def Reg.logCi : Nat := 0x3110
def Reg.logDrop : Nat := 0x3114
def Reg.coreCap0 (p : Nat) : Nat := coreWin p + 0x28
def Reg.coreCap1 (p : Nat) : Nat := coreWin p + 0x2C
def Reg.coreCap2 (p : Nat) : Nat := coreWin p + 0x30
def Reg.coreCvReadLo (p : Nat) : Nat := coreWin p + 0x100
def Reg.coreCvReadHi (p : Nat) : Nat := coreWin p + 0x104
def Reg.coreCvWriteLo (p : Nat) : Nat := coreWin p + 0x108
def Reg.coreCvWriteHi (p : Nat) : Nat := coreWin p + 0x10C
def Reg.coreCvBankLo (p : Nat) : Nat := coreWin p + 0x110
def Reg.coreCvBankHi (p : Nat) : Nat := coreWin p + 0x114
def Reg.coreCvRegLo (p : Nat) : Nat := coreWin p + 0x118
def Reg.coreCvRegHi (p : Nat) : Nat := coreWin p + 0x11C
def Reg.coreCvQueueLo (p : Nat) : Nat := coreWin p + 0x120
def Reg.coreCvQueueHi (p : Nat) : Nat := coreWin p + 0x124
def Reg.coreCvAddr (p : Nat) : Nat := coreWin p + 0x128
def Reg.coreCvFmt (p : Nat) : Nat := coreWin p + 0x12C
def Reg.coreCvGen (p : Nat) : Nat := coreWin p + 0x130
def Reg.coreCvSync (p : Nat) : Nat := coreWin p + 0x134
def Reg.coreCvThresh (p : Nat) : Nat := coreWin p + 0x138
def Reg.coreCvStep (p : Nat) : Nat := coreWin p + 0x13C
def Reg.coreShardLo (p : Nat) (i : Nat) : Nat := coreWin p + 0x200 + 8 * i
def Reg.coreShardHi (p : Nat) (i : Nat) : Nat := coreWin p + 0x204 + 8 * i
def Reg.ccCap0 (p : Nat) : Nat := coreWin p + 0x1028
def Reg.ccCap1 (p : Nat) : Nat := coreWin p + 0x102C
def Reg.ccCap2 (p : Nat) : Nat := coreWin p + 0x1030
def Reg.ccCap3 (p : Nat) : Nat := coreWin p + 0x1034
def Reg.ccCap4 (p : Nat) : Nat := coreWin p + 0x1038
def Reg.ccCap5 (p : Nat) : Nat := coreWin p + 0x103C
def Reg.ccSlotPat (p : Nat) : Nat := coreWin p + 0x1100
def Reg.ccStreamStat (p : Nat) : Nat := coreWin p + 0x1104
def Reg.ccLockCnt (p : Nat) : Nat := coreWin p + 0x1108
def Reg.veCap0 (p : Nat) : Nat := coreWin p + 0x2028
def Reg.veCap1 (p : Nat) : Nat := coreWin p + 0x202C
def Reg.veBusyCycLo (p : Nat) : Nat := coreWin p + 0x2100
def Reg.veBusyCycHi (p : Nat) : Nat := coreWin p + 0x2104
def Reg.veQfullCycLo (p : Nat) : Nat := coreWin p + 0x2108
def Reg.veQfullCycHi (p : Nat) : Nat := coreWin p + 0x210C
def Reg.veParCnt (p : Nat) : Nat := coreWin p + 0x2110
def Reg.veDupStat (p : Nat) : Nat := coreWin p + 0x2118
def Reg.veDupCnt (p : Nat) : Nat := coreWin p + 0x211C
def Reg.veDupCap0 (p : Nat) : Nat := coreWin p + 0x2120
def Reg.veDupCap1 (p : Nat) : Nat := coreWin p + 0x2124
def Reg.veDupCap2 (p : Nat) : Nat := coreWin p + 0x2128
def Reg.veDupCap3 (p : Nat) : Nat := coreWin p + 0x212C
def Reg.veDupCap4 (p : Nat) : Nat := coreWin p + 0x2130
def Reg.veDupOrd (p : Nat) : Nat := coreWin p + 0x2134
def Reg.muCap0 (p : Nat) : Nat := coreWin p + 0x3028
def Reg.muCap1 (p : Nat) : Nat := coreWin p + 0x302C
def Reg.muCap2 (p : Nat) : Nat := coreWin p + 0x3030
def Reg.muBusyCycLo (p : Nat) : Nat := coreWin p + 0x3100
def Reg.muBusyCycHi (p : Nat) : Nat := coreWin p + 0x3104
def Reg.cmbCap0 (p : Nat) : Nat := coreWin p + 0x4028
def Reg.cmbCap1 (p : Nat) : Nat := coreWin p + 0x402C
def Reg.cmbCap2 (p : Nat) : Nat := coreWin p + 0x4030
def Reg.cmbRgnBase (p : Nat) (i : Nat) : Nat := coreWin p + 0x4200 + 8 * i
def Reg.cmbRgnCtl (p : Nat) (i : Nat) : Nat := coreWin p + 0x4204 + 8 * i
def Reg.cmbRgnGen (p : Nat) (i : Nat) : Nat := coreWin p + 0x4400 + 4 * i
def Reg.synCap0 (p : Nat) : Nat := coreWin p + 0x5028
def Reg.synCap1 (p : Nat) : Nat := coreWin p + 0x502C
def Reg.synCap2 (p : Nat) : Nat := coreWin p + 0x5030
def Reg.synWaitCycLo (p : Nat) : Nat := coreWin p + 0x5100
def Reg.synWaitCycHi (p : Nat) : Nat := coreWin p + 0x5104
def Reg.meCap0 (p e : Nat) : Nat := coreWin p + 0x8000 + e * 0x1000 + 0x28
def Reg.meCap1 (p e : Nat) : Nat := coreWin p + 0x8000 + e * 0x1000 + 0x2C
def Reg.meCap2 (p e : Nat) : Nat := coreWin p + 0x8000 + e * 0x1000 + 0x30
def Reg.meCap3 (p e : Nat) : Nat := coreWin p + 0x8000 + e * 0x1000 + 0x34
def Reg.meCap4 (p e : Nat) : Nat := coreWin p + 0x8000 + e * 0x1000 + 0x38
def Reg.meCap5 (p e : Nat) : Nat := coreWin p + 0x8000 + e * 0x1000 + 0x3C
def Reg.meSpareMap (p e : Nat) : Nat := coreWin p + 0x8000 + e * 0x1000 + 0x100
def Reg.meProbe (p e : Nat) : Nat := coreWin p + 0x8000 + e * 0x1000 + 0x104
def Reg.meWorkCycLo (p e : Nat) : Nat := coreWin p + 0x8000 + e * 0x1000 + 0x110
def Reg.meWorkCycHi (p e : Nat) : Nat := coreWin p + 0x8000 + e * 0x1000 + 0x114
def Reg.mePlanCycLo (p e : Nat) : Nat := coreWin p + 0x8000 + e * 0x1000 + 0x118
def Reg.mePlanCycHi (p e : Nat) : Nat := coreWin p + 0x8000 + e * 0x1000 + 0x11C
def Reg.meWaveCycLo (p e : Nat) : Nat := coreWin p + 0x8000 + e * 0x1000 + 0x120
def Reg.meWaveCycHi (p e : Nat) : Nat := coreWin p + 0x8000 + e * 0x1000 + 0x124
def Reg.meResCnt (p e : Nat) : Nat := coreWin p + 0x8000 + e * 0x1000 + 0x128
def Reg.meResCap0 (p e : Nat) : Nat := coreWin p + 0x8000 + e * 0x1000 + 0x130
def Reg.meResCap1 (p e : Nat) : Nat := coreWin p + 0x8000 + e * 0x1000 + 0x134
def Reg.meResCap2 (p e : Nat) : Nat := coreWin p + 0x8000 + e * 0x1000 + 0x138
def Reg.meResCap3 (p e : Nat) : Nat := coreWin p + 0x8000 + e * 0x1000 + 0x13C
def Reg.meResCap4 (p e : Nat) : Nat := coreWin p + 0x8000 + e * 0x1000 + 0x140

end Sys2Proof.Machine
end

