-- ==== Sys2Proof/Machine/Pages.lean ====
section
/-!
DEFINITION. Where a BAR0 offset lies (R461 to R463), the reset value of every word, the fields of a word, and reading and
writing a stored word and its fields.
-/

namespace Sys2Proof.Machine

open Sys2Proof

/-- A page of one block (R461, R462). -/
structure Page where
  blk : Blk
  inst : Nat
  page : Nat
  base : Nat
deriving DecidableEq, Repr

/-- The page of a core window (R462): `b` is the page's number within the window. -/
def corePageAt (p b base : Nat) : Option Page :=
  match b with
  | 0 => some ⟨.core, p, 0, base⟩
  | 1 => some ⟨.cc, p, 0, base⟩
  | 2 => some ⟨.ve, p, 0, base⟩
  | 3 => some ⟨.mu, p, 0, base⟩
  | 4 => some ⟨.cmb, p, 0, base⟩
  | 5 => some ⟨.syn, p, 0, base⟩
  | 6 => some ⟨.noc, p, 1, base⟩
  | 8 | 9 | 10 | 11 => some ⟨.me, 4 * p + (b - 8), 0, base⟩
  | _ => none

/-- The page that holds a BAR0 offset; none where R461 and R462 assign none. -/
def pageAt (off : Nat) : Option Page :=
  let b := off / 0x1000
  let base := b * 0x1000
  if 0x1000 ≤ b then
    if (b - 0x1000) / 16 < 144 then corePageAt ((b - 0x1000) / 16) (b % 16) base else none
  else if 0x200 ≤ b ∧ b < 0x240 then some ⟨.fab, b - 0x200, 0, base⟩
  else if 0x10 ≤ b ∧ b < 0x14 then some ⟨.stk, 0, b - 0x10, base⟩
  else if 0x20 ≤ b ∧ b < 0x2D then some ⟨.hbm, 0, b - 0x20, base⟩
  else match b with
    | 0 => some ⟨.pci, 0, 0, base⟩
    | 1 => some ⟨.mss, 0, 0, base⟩
    | 2 => some ⟨.sec, 0, 0, base⟩
    | 3 => some ⟨.log, 0, 0, base⟩
    | 0x14 => some ⟨.num, 0, 0, base⟩
    | 0x18 => some ⟨.noc, 0, 0, base⟩
    | 0x30 => some ⟨.blk, 0, 0, base⟩
    | 0x38 => some ⟨.igs, 0, 0, base⟩
    | 0x39 => some ⟨.igs, 0, 1, base⟩
    | 0x40 => some ⟨.asy, 0, 0, base⟩
    | 0x41 => some ⟨.asy, 0, 1, base⟩
    | 0x48 => some ⟨.brn, 0, 0, base⟩
    | 0x50 => some ⟨.pwr, 0, 0, base⟩
    | 0x51 => some ⟨.thm, 0, 0, base⟩
    | _ => none

/-- The physical core a page belongs to. -/
def Page.core? (pg : Page) : Option Nat := if 0x1000000 ≤ pg.base then some ((pg.base - 0x1000000) / 0x10000) else none

/-- EVT bits a page implements (R157, R176, R179, R252, R276, R295, R327, R379, R387, R395, R425, R426, R473). -/
def evtWidth (b : Blk) (page : Nat) : Nat :=
  match b, page with
  | .stk, 1 => 4
  | .stk, 3 => 5
  | .syn, _ => 3
  | .mu, _ => 1
  | .blk, _ => 3
  | .igs, 0 => 3
  | .igs, _ => 2
  | .asy, _ => 1
  | .mss, _ => 6
  | .me, _ => 5
  | .cc, _ => 4
  | .ve, _ => 2
  | .core, _ => 1
  | .cmb, _ => 1
  | .hbm, 0 => 2
  | .fab, _ => 2
  | .brn, _ => 1
  | .pwr, _ => 5
  | .thm, _ => 3
  | _, _ => 0

/-- Offsets of the common words (R464). -/
def oPageId : Nat := 0x00
def oPageVer : Nat := 0x04
def oPageCap : Nat := 0x08
def oCtl : Nat := 0x10
def oStat : Nat := 0x14
def oEvt : Nat := 0x18
def oEvtEn : Nat := 0x1C
def oEvtForce : Nat := 0x20
def oEvtCnt : Nat := 0x24
def oLock : Nat := 0x40

/-- The page number a row of the register table goes by: the twelve stack pages of HBM share one. -/
def rowPage (pg : Page) : Nat := if pg.blk = .hbm then min pg.page 1 else pg.page

/-- Whether a row holds the word at offset `o` of its page, and at which place of its array. -/
def RegRow.at? (r : RegRow) (o : Nat) : Option Nat :=
  if r.off ≤ o ∧ (o - r.off) % r.stride = 0 ∧ (o - r.off) / r.stride < r.cnt then some ((o - r.off) / r.stride) else none

/-- The row of a register at offset `o` of a page, with its index. -/
def rowAt (pg : Page) (o : Nat) : Option (RegRow × Nat) :=
  (rowsOf pg.blk).findSome? (fun r => if r.page = rowPage pg then (r.at? o).map (fun k => (r, k)) else none)

/-- The reset value of a row: its fields in place. -/
def RegRow.resetWord (r : RegRow) : Word :=
  r.fields.foldl (fun w f => w ||| BitVec.ofNat 32 (f.rst * 2 ^ f.lsb)) 0

/-- The reset value of the word at a BAR0 offset (R464, R468). -/
def resetWord (off : Nat) : Word :=
  match pageAt off with
  | none => 0
  | some pg =>
    let o := off % 0x1000
    if o = oCtl then 1
    else if o = oEvtEn then BitVec.ofNat 32 (2 ^ evtWidth pg.blk pg.page - 1)
    else match rowAt pg o with
      | some (r, _) => r.resetWord
      | none => 0

/-- The stored word at an offset. -/
def State.rget (s : State) (off : Nat) : Word := tget (resetWord off) s.regs off

/-- Replaces the stored word at an offset. -/
def State.rset (s : State) (off : Nat) (v : Word) : State :=
  { s with regs := tset (resetWord off) s.regs off v }

/-- A field of a word. -/
def fieldNat (w : Word) (lsb wid : Nat) : Nat := w.toNat / 2 ^ lsb % 2 ^ wid

/-- A word with one field replaced. -/
def withField (w : Word) (lsb wid v : Nat) : Word :=
  BitVec.ofNat 32 (w.toNat - fieldNat w lsb wid * 2 ^ lsb + v % 2 ^ wid * 2 ^ lsb)

/-- A field of a stored register, and one bit of it. -/
def State.rfield (s : State) (off lsb wid : Nat) : Nat := fieldNat (s.rget off) lsb wid
def State.rbit (s : State) (off k : Nat) : Bool := (s.rget off).getLsbD k

/-- Replaces a field of a stored register. -/
def State.rsetField (s : State) (off lsb wid v : Nat) : State := s.rset off (withField (s.rget off) lsb wid v)

/-- Adds to a 32-bit counter that saturates. -/
def State.bump (s : State) (off n : Nat) : State :=
  s.rset off (BitVec.ofNat 32 (min (2 ^ 32 - 1) ((s.rget off).toNat + n)))

/-- A LO and HI pair as one number, and its replacement. -/
def State.rpair (s : State) (lo : Nat) : Nat := (s.rget lo).toNat + 2 ^ 32 * (s.rget (lo + 4)).toNat
def State.setPair (s : State) (lo n : Nat) : State :=
  (s.rset lo (BitVec.ofNat 32 n)).rset (lo + 4) (BitVec.ofNat 32 (n / 2 ^ 32))

/-- Adds to a 64-bit counter that saturates (R254). -/
def State.bumpPair (s : State) (lo n : Nat) : State :=
  if n = 0 then s else s.setPair lo (min (2 ^ 64 - 1) (s.rpair lo + n))

/-- Sets a list of registers to 0. -/
def State.rclear (s : State) : List Nat → State
  | [] => s
  | o :: os => (s.rset o 0).rclear os

/-! ### Roles and positions (R40, R41, R44) -/

def role0 : RoleSt := ⟨.spare, 0, false⟩
def State.roleOf (s : State) (p : Nat) : RoleSt := tget role0 s.roles p
def State.setRole (s : State) (p : Nat) (r : RoleSt) : State := { s with roles := tset role0 s.roles p r }

def Role.code : Role → Nat
  | .disabled => 0 | .active => 1 | .spare => 2 | .fenced => 3 | .underTest => 4

/-- The physical core that holds virtual position `v`, if one does. -/
def State.holder (s : State) (v : Nat) : Option Nat :=
  (s.roles.find? (fun e => e.2.role = .active ∧ e.2.v = v)).map (·.1)

def fieldOf (p : Nat) : Nat := p / 36
def State.rolesIn (s : State) (f : Nat) (r : Role) : List Nat :=
  ((List.range 36).map (fun k => 36 * f + k)).filter (fun p => (s.roleOf p).role == r)

/-- Every position that a core holds, ascending, with its core. -/
def State.placed (s : State) : List (Nat × Nat) :=
  (List.range 128).filterMap (fun v => (s.holder v).map (fun p => (v, p)))

/-- The same in ascending order of the cores: records of one cycle follow the instance of their page (R479). -/
def State.placedByCore (s : State) : List (Nat × Nat) :=
  (List.range 144).filterMap (fun p => s.placed.find? (fun q => q.2 == p))

/-! ### Cores by number -/

def core0 : Core :=
  { cm := [], gran := [], rgn := [], istore := [], f := stream0, b := stream0, u := stream0, ctr := [], added := [], eng := [],
    slots := 0, nextSlots := none, held := [], seq := 0, tickets := [], landing := [], narrow := [], commits := 0, lockHit := none,
    lockCycle := none }

def State.core (s : State) (p : Nat) : Core := tget core0 s.cores p
def State.setCore (s : State) (p : Nat) (c : Core) : State := { s with cores := tset core0 s.cores p c }

/-! ### Free values -/

/-- Draws the next free value (log entry 5). -/
def State.draw (s : State) : DWord × State := (Config.freeValue s.free, { s with free := s.free + 1 })

end Sys2Proof.Machine
end

