-- ==== Sys2Proof/Machine/Views.lean ====
section
/-!
DEFINITION. What the registers read as: the words computed from the rest of the state, and the read of any BAR0 word on
an access path, with the latches of R471.
-/

namespace Sys2Proof.Machine

open Sys2Proof

/-! ### Spare maps (R146 to R149) -/

/-- The two mapped-out positions of an axis, the lower first: its faulty positions, and the highest positions with no fault where it has
fewer than two faults (R146, R148; the highest DEDUCED from the rule's two examples, log entry 146). -/
def outPair (faults : List Nat) : Nat × Nat :=
  match ((faults.filter (· < 66)).eraseDups ++ ([65, 64, 63].filter (fun x => !faults.contains x))).take 2 with
  | [a, b] => (min a b, max a b)
  | _ => (64, 65)

/-- The physical place of a logical row or column: the places not mapped out, in ascending order (R146: ph_r and ph_c). -/
def physOf (out : Nat × Nat) (k : Nat) : Nat := if k < out.1 then k else if k + 1 < out.2 then k + 1 else k + 2

/-- The delay taps of a logical row or column: at the entry side, and at the exit side of the other direction (R147). -/
def entryTap (out : Nat × Nat) (k : Nat) : Nat := physOf out k - k
def exitTap (out : Nat × Nat) (k : Nat) : Nat := 65 - physOf out k

/-- The mapped-out positions of an axis of engine `e` of core `p`. A repair that the last BOOT found in the fence list is taken where a
mapped-out position was still fault-free (R149). -/
def State.mappedOut (s : State) (p e : Nat) (col : Bool) : Nat × Nat :=
  let fused := (((Config.arrayFaults p e col).filter (· < 66)).eraseDups).take 2
  let more := (s.brn.mapped.filter (fun r => r.core == p && r.me == e && r.col == col)).map (·.pos)
  outPair (fused ++ more)

/-! ### Latency descriptor table and pads (R238 to R242) -/

/-- BASE, HOP, CROSS and SELF of a version (R241). -/
def ldtFigures (ver : Nat) : Nat × Nat × Nat × Nat :=
  match ver with
  | 1 => (6, 2, 12, 1)
  | 2 => (6, 2, 14, 1)
  | _ => (0, 0, 0, 0)

def absDiff (a b : Nat) : Nat := if a ≤ b then b - a else a - b

/-- The virtual travel time t from position u to position w under a version (R241). -/
def travelTime (ver u w : Nat) : Nat :=
  let (base, hop, cross, self) := ldtFigures ver
  if u = w then self
  else base + hop * (absDiff (u % 8) (w % 8) + absDiff (u / 8) (w / 8)) + cross * absDiff (u / 32) (w / 32)

/-- The physical transit time P from core p to core q (R238); X is 12 on B0 and 10 on A1. -/
def transit (b0 : Bool) (p q : Nat) : Nat :=
  if p = q then 1
  else
    let h := absDiff (p % 6) (q % 6) + absDiff (6 * (p / 36) + p / 6 % 6) (6 * (q / 36) + q / 6 % 6)
    2 + (h + 1) / 2 + absDiff (p / 36) (q / 36) * (if b0 then 12 else 10)

def State.ldtSel (s : State) : Nat := s.rfield Reg.nocLdtSel 0 8

/-- The device computes every tap (R239): the version and the holders are those of now. -/
def State.takeTaps (s : State) : State := { s with stroke := { s.stroke with taps := ⟨s.ldtSel, s.placed⟩ } }

/-- The pad of core p's router to destination position w as computed last (R239); 0 where either position was not held. -/
def State.pad (s : State) (p w : Nat) : Nat :=
  let t := s.stroke.taps
  match t.places.find? (fun q => q.2 == p), t.places.find? (fun q => q.1 == w) with
  | some a, some b => travelTime t.ver a.1 w - transit (s.fuses.stepping == 0xB0) p b.2
  | _, _ => 0

/-! ### Words computed from the state -/

def wOf (n : Nat) : Word := BitVec.ofNat 32 n
def loW (d : DWord) : Word := d.truncate 32
def hiW (d : DWord) : Word := BitVec.ofNat 32 (d.toNat / 2 ^ 32)
def b1 (b : Bool) (k : Nat) : Nat := if b then 2 ^ k else 0

/-- ME_SPARE_MAP (R148). -/
def State.spareMap (s : State) (p e : Nat) : Word :=
  let r := s.mappedOut p e false
  let c := s.mappedOut p e true
  wOf (r.1 + 2 ^ 8 * r.2 + 2 ^ 16 * c.1 + 2 ^ 24 * c.2)

/-- STK_SPARE and STK_FENCED (R43). -/
def State.countWord (s : State) (r : Role) : Word :=
  wOf ((List.range 4).foldl (fun n f => n + (s.rolesIn f r).length * 2 ^ (8 * f)) 0)

/-- STK_CORE_MAP (R44). -/
def State.coreMap (s : State) (p : Nat) : Word :=
  let r := s.roleOf p
  let v := if r.role = .active ∨ r.role = .fenced then r.v else 0
  wOf (r.role.code + 16 * (v % 8) + 256 * (v / 8))

/-- CC_STREAM_STAT of one stream (R176): 2 where an instruction of it is held by an interlock. -/
def streamState (c : Core) (st : Stream) : Nat :=
  let owns := (List.range 8).any (fun k => fieldNat (c.slots.zeroExtend 32) (2 * k) 2 == st.codeNat)
  match (c.stream st).phase with
  | .halted _ => 5
  | .ended => 4
  | .waiting _ => 3
  | .run => if !owns then 0 else if c.held.any (fun h => h.st == st) then 2 else 1

/-- The state code of R428. -/
def DevState.code : DevState → Nat
  | .off => 0 | .standby => 1 | .boot => 2 | .ready => 3 | .run => 4 | .drain => 5 | .quarantine => 6 | .recovery => 7

/-- Physical pseudo-channel status and its defaults (R284). -/
def pc0 : PcSt := ⟨0, 0, false, false, false, 0, false, 0, 0, 0, 0, []⟩
def stk0 : StackSt := ⟨0, 0, 0, false, false, false⟩
def chan0 : Chan := ⟨0, 0, false, none, 0, false, none, []⟩
def State.pc (s : State) (p : Nat) : PcSt := tget pc0 s.mem.pcs p
def State.chan (s : State) (l : Nat) : Chan := tget chan0 s.mem.chans l
def State.stk (s : State) (k : Nat) : StackSt := tget stk0 s.mem.stks k

/-- The reserve pseudo-channels (R259). -/
def reserves : List Nat := [95, 191, 287, 383]

/-- A reserve not in use and fit for use: one that a migration fills is in use, and the state of its stack is not asked (DESIGN CHOICE, log
entry 150). -/
def State.reserveFree (s : State) (p : Nat) : Bool :=
  !(s.pc p).fail && !(s.pc p).trainFail && !(s.pc p).lost &&
  s.mem.chans.all (fun e => !(e.2.backed && e.2.phys == p) && e.2.migrating != some p)

def State.rsvFree (s : State) : Nat := (reserves.filter s.reserveFree).length

/-- HBM_LMAP (R264). -/
def State.lmap (s : State) (l : Nat) : Word :=
  if l < s.mem.nLc then
    let c := s.chan l
    wOf (c.phys + b1 c.migrating.isSome 30 + 2 ^ 31)
  else 0

def port0 : PortSt := ⟨false, false, false, none, false, 0, [], 0⟩
def State.port (s : State) (q : Nat) : PortSt := tget port0 s.fab.ports q

/-- FAB_PORT_STAT (R295). -/
def State.portStat (s : State) (q : Nat) : Word :=
  let p := s.port q
  wOf (b1 p.up 0 + b1 (p.up && p.keepalive) 1 + b1 p.llr 2 + b1 (p.spare.isSome && !p.retraining) 3 + b1 (p.spare == some 1) 4)

/-- The word of a 32-byte hash at index i: bytes 4 i to 4 i + 3, little-endian (R10, R459). -/
def hashWord (h : List Byte) (i : Nat) : Word := wOf (leNat ((h.drop (4 * i)).take 4))

/-- ASY_REC words (R387). -/
def AssayRec.word (r : AssayRec) : Nat → Word
  | 0 => wOf (r.pcore + 2 ^ 8 * r.v + 2 ^ 16 * r.kind + 2 ^ 20 * r.unit + 2 ^ 22 * r.stream + 2 ^ 24 * r.outcome + 2 ^ 31)
  | 1 => r.stroke
  | 2 => r.ordinal
  | 3 => r.locator
  | 4 => r.locator2
  | 5 => r.primary
  | 6 => r.checker
  | _ => r.replay

/-- ASY_BLAME (R401). -/
def Suspect.word (x : Suspect) : Word :=
  wOf (x.member + 2 ^ 16 * min 8191 x.reporters.length + b1 x.lastGasp 31)

def minOr (d : Nat) : List Nat → Nat
  | [] => d
  | x :: xs => xs.foldl min x

/-- BRN_STAT (R395): the core under test with the lowest number, the next core due, and the three marks. -/
def State.brnStat (s : State) : Word :=
  wOf (minOr 0xFF (s.brn.tests.map (·.core)) + 2 ^ 8 * s.brn.due.headD 0 + b1 (!s.brn.deferred.isEmpty) 16 +
    b1 (s.brn.tests.any (fun t => t.kind == .pause)) 17 + b1 (!s.brn.overdue.isEmpty) 18)

/-- The largest pace notice held: sender and target (R414); the lowest sender of equals. -/
def State.pace (s : State) : Option (Nat × Nat) :=
  s.pwr.paces.foldl (fun best e =>
    match e.2 with
    | none => best
    | some n =>
      match best with
      | none => some (e.1, n.target)
      | some b => if b.2 < n.target then some (e.1, n.target) else some b) none

def State.trimOf (s : State) (k : Nat) : Nat := tget 0 s.pwr.trim k

/-- Generation state of a region of the core (R248, R252). -/
def genWord (g : RgnGen) : Word := wOf (g.wg.toNat + 16 * g.rpF.toNat + 256 * g.rpB.toNat + 4096 * g.rpU.toNat)

/-- The core that holds the position in bits [14:12] and [18:15] of a load register (R372), and a sync counter of it. -/
def State.ldCore (s : State) (w : Word) : Option Nat := s.holder (fieldNat w 12 3 + 8 * fieldNat w 15 4)
def State.ldCtr (s : State) (w : Word) : Nat :=
  match s.ldCore w with | none => 0 | some p => (tget 0 (s.core p).ctr (fieldNat w 0 12)).toNat

/-- ADMITTED: what the device has added less the counter's value, or as the fence froze it (R368). -/
def State.admitted (s : State) : Nat :=
  match s.load.frozen with
  | some n => n
  | none => s.load.permitsAdded - s.ldCtr (s.rget Reg.igsLdAdm)

/-- Layer L is free: the additions to its pass counter have reached the frozen ADMITTED (R369). -/
def State.layerFree (s : State) (l : Nat) : Bool :=
  let w := s.rget (Reg.igsLdLayer l)
  match s.load.frozen, s.ldCore w with
  | some n, some p => w.getLsbD 31 && decide (n ≤ tget 0 (s.core p).added (fieldNat w 0 12))
  | some n, none => w.getLsbD 31 && n == 0
  | none, _ => false

def layerMask (f : Nat → Bool) (lo : Nat) : Word := wOf ((List.range 32).foldl (fun n k => if f (lo + k) then n + 2 ^ k else n) 0)

/-- What a register reads where its value lives elsewhere in the state than in its word. -/
def State.view (s : State) (pg : Page) (o : Nat) : Option Word :=
  let p := (pg.core?).getD 0
  match pg.blk, pg.page with
  | .stk, 0 =>
    if o = 0x100 then some (wOf (s.fuses.stepping.toNat + 256 * s.fuses.activeCores.toNat + 65536 * s.fuses.ldtVer.toNat))
    else if o = 0x104 then some (s.countWord .spare)
    else if o = 0x108 then some (s.countWord .fenced)
    else if 0x200 ≤ o ∧ o < 0x440 then some (s.coreMap ((o - 0x200) / 4))
    else none
  | .stk, 1 =>
    match o with
    | 0x108 => some (loW s.stroke.devStroke)
    | 0x10C => some (hiW s.stroke.devStroke)
    | 0x110 => some (loW s.stroke.jobStroke)
    | 0x114 => some (hiW s.stroke.jobStroke)
    | 0x118 => some (loW s.stroke.step)
    | 0x11C => some (hiW s.stroke.step)
    | _ => none
  | .noc, 0 =>
    if o = 0x100 then some (s.fuses.ldtCap.zeroExtend 32)
    else if o = 0x108 then
      let (base, hop, cross, self) := ldtFigures s.ldtSel
      some (wOf (base + 256 * hop + 65536 * cross + 2 ^ 24 * self))
    else none
  | .noc, _ =>
    if 0x200 ≤ o ∧ o < 0x280 then
      let i := (o - 0x200) / 4
      some (wOf ((List.range 4).foldl (fun n k => n + s.pad p (4 * i + k) * 2 ^ (8 * k)) 0))
    else none
  | .hbm, 0 =>
    if o = 0x100 then some (wOf (s.mem.nLc + 2 ^ 16 * s.rsvFree))
    else if 0x200 ≤ o ∧ o < 0x800 then some (s.lmap ((o - 0x200) / 4))
    else none
  | .hbm, g =>
    let k := g - 1
    if o = 0x100 then
      let t := s.stk k
      some (wOf (t.temp.toNat + 256 * t.stage.toNat + b1 t.out 10 + b1 t.trained 11))
    else if 0x200 ≤ o ∧ o < 0x280 then
      let q := 32 * k + (o - 0x200) / 4
      let c := s.pc q
      some (wOf (c.ceCnt.toNat + 2 ^ 16 * c.ueCnt.toNat + b1 c.fail 24 + b1 (reserves.contains q) 25 + b1 c.trainFail 26))
    else none
  | .fab, _ => if o = 0x104 then some (s.portStat pg.inst) else none
  | .igs, 0 =>
    if o = 0x108 then some s.epoch.cur
    else if o = 0x10C then some (hashWord s.fab.hallmark 0)
    else none
  | .igs, _ =>
    match o with
    | 0x118 => some (wOf s.admitted)
    | 0x11C => some (wOf (s.admitted / 2 ^ 32))
    | 0x128 => some (layerMask s.layerFree 0)
    | 0x12C => some (layerMask s.layerFree 32)
    | 0x130 => some (layerMask s.load.layersDone.contains 0)
    | 0x134 => some (layerMask s.load.layersDone.contains 32)
    | _ => none
  | .asy, 0 =>
    if o = 0x100 then some (wOf (s.asy.st + 4 * s.asy.recs.length))
    else if o = 0x108 then some (loW s.asy.step)
    else if o = 0x10C then some (hiW s.asy.step)
    else if o = 0x110 then some (wOf s.asy.limit)
    else if 0x200 ≤ o ∧ o < 0x300 then
      some (((s.asy.recs[(o - 0x200) / 32]?).map (fun r => r.word ((o - 0x200) % 32 / 4))).getD 0)
    else none
  | .asy, _ =>
    if 0x200 ≤ o ∧ o < 0x400 then
      some (((s.blame[(o - 0x200) / 8]?).map (fun x => if (o - 0x200) % 8 = 0 then x.word else x.lastHeard)).getD 0)
    else none
  | .brn, _ =>
    if o = 0x104 then some (wOf (s.brn.packs.version + 2 ^ 16 * s.brn.packs.packs.length))
    else if o = 0x108 then some s.brnStat
    else none
  | .pwr, _ =>
    if o = 0x10C then
      some (wOf (s.pwr.k + 16 * s.pwr.kt + 256 * s.pwr.limiter + b1 s.pwr.stretching 11))
    else if o = 0x138 then
      some (match s.pace with | none => 0 | some (m, t) => wOf (m + 2 ^ 13 * t + 2 ^ 31))
    else if 0x240 ≤ o ∧ o < 0x280 then
      let k := (o - 0x240) / 4
      some (wOf (s.fuses.vfuse.getD k 0 + 2 ^ 10 * s.trimOf k))
    else none
  | .mss, _ =>
    match o with
    | 0x100 => some (wOf (s.mgmt.dev.code + b1 s.mgmt.degraded 4 + b1 (s.rbit Reg.brnRepl 16) 5 + 256 * s.mgmt.bootStage))
    | 0x108 => some (loW s.mgmt.elapsed)
    | 0x10C => some (hiW s.mgmt.elapsed)
    | 0x118 => some (wOf s.mgmt.fwVersion)
    | _ => none
  | .sec, _ =>
    if 0x100 ≤ o ∧ o < 0x120 then some (hashWord s.fab.hallmark ((o - 0x100) / 4))
    else if o = 0x120 then some (wOf (s.mgmt.fwSvn % 256 + 256 * (s.fuses.minSvn % 256)))
    else if o = 0x124 then some (wOf s.load.seals.length)
    else none
  | .cc, _ =>
    if o = 0x100 then some ((s.core p).slots.zeroExtend 32)
    else if o = 0x104 then
      let c := s.core p
      some (wOf (streamState c .f + 16 * streamState c .b + 256 * streamState c .u))
    else none
  | .ve, _ =>
    if o = 0x118 then
      let d := s.stroke.devStroke.toNat
      some (wOf (d % 64 + 64 * (d / 64 % 4)))
    else none
  | .cmb, _ => if 0x400 ≤ o ∧ o < 0x500 then some (genWord (tget rgn0 (s.core p).rgn ((o - 0x400) / 4))) else none
  | .me, _ =>
    if o = 0x100 then some (if s.mgmt.bootStage = 0 then 0 else s.spareMap (pg.inst / 4) (pg.inst % 4)) else none
  | _, _ => none

/-- The fields of PAGE_CAP (R464): the captures and RWL fields a page holds. -/
def pageCap (pg : Page) : Word :=
  let rows := (rowsOf pg.blk).filter (fun r => r.page == rowPage pg)
  let cap := rows.any (fun r => decide (0x28 ≤ r.off ∧ r.off < 0x40)) || pg.blk == .ve
  let lock := rows.any (fun r => r.fields.any (fun f => f.acc == .rwl))
  let w := evtWidth pg.blk pg.page
  wOf (w + b1 cap 6 + b1 (w != 0) 7 + b1 lock 8)

/-- A page's RWL fields ignore writes now (R468). -/
def State.locked (s : State) (base : Nat) : Bool := s.mgmt.dev == .run || s.rbit (base + oLock) 0

/-- The pages that answer the host before READY (R433, R452); the endpoint comes up in stage 0 of BOOT,
and the firmware runs from stage 2 on (R432). -/
def State.hidden (s : State) (path : Path) (pg : Page) : Bool :=
  match s.mgmt.dev with
  | .boot =>
    if path == .pcie then s.mgmt.bootStage == 0 || !(pg.blk == .pci || pg.blk == .mss || pg.blk == .sec || pg.blk == .log)
    else decide (s.mgmt.bootStage < 2)
  | .recovery => path != .pcie || !(pg.blk == .pci || pg.blk == .mss)
  | .off => true
  | _ => false

/-- What the word at a BAR0 offset reads as, before any latch (R463, R464, R468, R472). -/
def State.readNow (s : State) (path : Path) (off : Nat) : Word :=
  match pageAt off with
  | none => 0
  | some pg =>
    let o := off % 0x1000
    let role := match pg.core? with | none => role0 | some p => s.roleOf p
    let dead := role.role == .disabled
    if s.hidden path pg then 0
    else if o = oPageId then wOf (pg.blk.code + 2 ^ 8 * pg.inst + 2 ^ 20 * pg.page)
    else if o = oPageVer then 0x100
    else if dead then 0
    else if o = oPageCap then pageCap pg
    else if o = oStat then wOf (1 + b1 role.gated 1 + b1 (s.locked pg.base) 2)
    else if o = oLock then s.rget off &&& 4
    else if o = oCtl ∨ o = oEvt ∨ o = oEvtEn ∨ o = oEvtCnt then s.rget off
    else if role.gated then 0
    else match s.view pg o with
      | some w => w
      | none => if (rowAt pg o).isSome then s.rget off else 0

/-- Which half of a pair an offset is (R471). -/
def halfOf (off : Nat) : Half :=
  match pageAt off with
  | none => .none
  | some pg => ((rowAt pg (off % 0x1000)).map (fun r => r.1.half)).getD .none

def pathCode : Path → Nat
  | .pcie => 0 | .mss => 1 | .mctp => 2
def latchKey (path : Path) (lo : Nat) : Nat := pathCode path * 2 ^ 28 + lo

/-- A read on a path (R470, R471): a read of LO latches HI; a read of HI returns the latched word, if any. -/
def State.readReg (s : State) (path : Path) (off : Nat) : Word × State :=
  match halfOf off with
  | .none => (s.readNow path off, s)
  | .lo => (s.readNow path off,
      { s with latches := tset none s.latches (latchKey path off) (some (s.readNow path (off + 4))) })
  | .hi => (match tget none s.latches (latchKey path (off - 4)) with
      | some w => (w, s)
      | none => (s.readNow path off, s))

end Sys2Proof.Machine
end

