-- ==== Sys2Proof/Machine/Events.lean ====
section
/-!
DEFINITION. Events (R465 to R467, R477 to R483): one operation that raises any of them, the three logs, and what severity
does to the step.
-/

namespace Sys2Proof.Machine

open Sys2Proof

/-- Severity codes (R480). -/
def sevInfo : Nat := 0
def sevDegrade : Nat := 1
def sevStep : Nat := 2
def sevFence : Nat := 3
def sevReplace : Nat := 4

/-- Severity of a code (R483); the two that share a code or take two severities are given by their raisers. -/
def sevOf (code : Nat) : Nat :=
  if [0x0312, 0x0411, 0x0412, 0x0413, 0x0501, 0x0623, 0x0630, 0x0701, 0x0711, 0x0722, 0x0801, 0x0809, 0x0810, 0x0811].contains code
    then sevDegrade
  else if [0x0201, 0x0202, 0x0203, 0x0302, 0x0303, 0x0316, 0x0402, 0x0403, 0x0405, 0x0406, 0x040A, 0x040B, 0x0505, 0x050B,
    0x0506, 0x0509, 0x050A, 0x050D, 0x0601, 0x0602, 0x0604, 0x0605, 0x0606, 0x0607, 0x0608, 0x0609, 0x0631, 0x0704, 0x0712,
    0x0723, 0x0901, 0x0902, 0x0910, 0x0911, 0x0912].contains code then sevStep
  else if [0x0603, 0x0611, 0x0612, 0x0621].contains code then sevFence
  else if code = 0x0650 then sevReplace
  else sevInfo

/-- The events an EVT bit of a page stands for, with severities, the first one first (R157, R176, R179, R252, R276, R295, R327,
R379, R387, R395, R425, R426, R473). -/
def evtEvents (b : Blk) (page bit : Nat) : List (Nat × Nat) :=
  let std := fun (l : List Nat) => l.map (fun c => (c, sevOf c))
  match b, page, bit with
  | .stk, 1, 0 => std [0x0301]
  | .stk, 1, 1 => std [0x0302]
  | .stk, 1, 2 => std [0x0303]
  | .stk, 1, 3 => std [0x0304]
  | .stk, 3, 0 => std [0x0310]
  | .stk, 3, 1 => std [0x0312]
  | .stk, 3, 2 => std [0x0313, 0x0314]
  | .stk, 3, 3 => std [0x0316, 0x0317]
  | .stk, 3, 4 => std [0x0318]
  | .syn, _, 0 => std [0x0201]
  | .syn, _, 1 => std [0x0202]
  | .syn, _, 2 => std [0x0203]
  | .mu, _, 0 => std [0x0910]
  | .blk, _, 0 => std [0x040A]
  | .blk, _, 1 => std [0x040B]
  | .blk, _, 2 => std [0x040C]
  | .igs, 0, 0 => std [0x0505, 0x050B]
  | .igs, 0, 1 => std [0x0506]
  | .igs, 0, 2 => (0x0504, sevStep) :: (0x0504, sevInfo) :: std [0x0507, 0x0508, 0x0509, 0x050A, 0x050C, 0x050D]
  | .igs, 1, 0 => std [0x0410, 0x0411, 0x0412, 0x0413, 0x0414, 0x0415]
  | .igs, 1, 1 => std [0x0810, 0x0811, 0x0812]
  | .asy, 0, 0 => std [0x0610]
  | .asy, 1, 0 => std [0x0640, 0x0641]
  | .mss, _, 0 => std [0x0801, 0x0802, 0x0803, 0x080C]
  | .mss, _, 1 => std [0x0804, 0x0805, 0x080A]
  | .mss, _, 2 => std [0x0809]
  | .mss, _, 3 => std [0x0806, 0x0807]
  | .mss, _, 4 => std [0x0808]
  | .mss, _, 5 => std [0x080B]
  | .me, _, 0 => std [0x0101]
  | .me, _, 1 => std [0x0601]
  | .me, _, 2 => std [0x0602]
  | .me, _, 3 => std [0x0603]
  | .me, _, 4 => std [0x0604]
  | .cc, _, 0 => std [0x0605]
  | .cc, _, 1 => std [0x0607]
  | .cc, _, 2 => std [0x0911]
  | .cc, _, 3 => std [0x0912]
  | .ve, _, 0 => std [0x0608]
  | .ve, _, 1 => std [0x0606]
  | .core, _, 0 => std [0x0609]
  | .cmb, _, 0 => std [0x0902]
  | .hbm, 0, 0 => std [0x0402, 0x0403]
  | .hbm, 0, 1 => std [0x0407]
  | .fab, _, 0 => std [0x0501]
  | .fab, _, 1 => std [0x0502]
  | .brn, _, 0 => std [0x0621]
  | .pwr, _, 0 => std [0x0701]
  | .pwr, _, 1 => std [0x0702]
  | .pwr, _, 2 => std [0x0703, 0x0704]
  | .pwr, _, 3 => std [0x0706]
  | .pwr, _, 4 => [(0x0705, sevDegrade)]
  | .thm, _, 0 => std [0x0710]
  | .thm, _, 1 => std [0x0711]
  | .thm, _, 2 => std [0x0712]
  | _, _, _ => []

/-- The EVT bit of an event on its page. -/
def evtBit (pg : Page) (code sev : Nat) : Option Nat :=
  (List.range (evtWidth pg.blk pg.page)).find? (fun k => (evtEvents pg.blk pg.page k).contains (code, sev))

/-- An occurrence of an event: code, severity, page, identifiers, detail, and the capture words it offers (offset in the page,
value). `test` marks an event of a core UNDER_TEST (R382), `quiet` an occurrence that a once-per-stroke rule keeps out of the
logs, `tally` the amount EVT_CNT rises by. -/
structure Ev where
  code : Nat
  sev : Nat
  page : Nat
  object : Nat
  waiter : Nat
  detail : Nat
  caps : List (Nat × Nat) := []
  test : Bool := false
  forced : Bool := false
  quiet : Bool := false
  tally : Nat := 1
deriving DecidableEq, Repr

/-- An event with the severity of its code. -/
def ev (code page object waiter detail : Nat) : Ev :=
  { code := code, sev := sevOf code, page := page, object := object, waiter := waiter, detail := detail }

/-! ### The logs (R439) -/

/-- Appends to a list bounded by a length; the oldest goes. -/
def pushMax {α : Type} (n : Nat) (l : List α) (x : α) : List α :=
  let l := l ++ [x]
  l.drop (l.length - n)

/-- Size of the host log ring and room in it: one entry always stays free (log entry 9). -/
def State.logSize (s : State) : Nat := 2 ^ s.rfield Reg.logCfg 0 5
def State.logRoom (s : State) : Bool :=
  ((s.rget Reg.logPi).toNat + 1) % s.logSize != (s.rget Reg.logCi).toNat % s.logSize

def State.send (s : State) (m : OutMsg) : State := { s with mgmt := { s.mgmt with out := s.mgmt.out ++ [m] } }

/-- Writes a record to the host log ring with its MSI-X notice. -/
def State.logWrite (s : State) (r : EvtRec) : State :=
  let s := { s with mgmt := { s.mgmt with hostLog := s.mgmt.hostLog ++ [r] } }
  (s.rset Reg.logPi (wOf (((s.rget Reg.logPi).toNat + 1) % s.logSize))).send (.msix (s.rfield Reg.logCfg 8 3))

/-- A record enters the host log: copied where the copy is enabled and MINSEV admits it; counted where the ring is full. -/
def State.hostLogRec (s : State) (r : EvtRec) : State :=
  if s.rbit Reg.logCfg 11 && decide (s.rfield Reg.logCfg 5 3 ≤ r.sev) then
    if s.logRoom then s.logWrite r
    else
      let s := s.bump Reg.logDrop 1
      { s with mgmt := { s.mgmt with dropped := true } }
  else s

/-- A record enters the logs. `masked` keeps INFO and DEGRADE records out of two of them (R466). -/
def State.logRec (s : State) (r : EvtRec) (masked : Bool) : State :=
  let keep := !masked || decide (sevStep ≤ r.sev)
  let s := if keep then
      let s := { s with mgmt := { s.mgmt with ring := pushMax 8192 s.mgmt.ring r } }
      s.hostLogRec r
    else s
  if sevStep ≤ r.sev then
    { s with mgmt := { s.mgmt with nor := { s.mgmt.nor with log := pushMax 262144 s.mgmt.nor.log r } } }
  else s

/-! ### Raising an event -/

/-- The bits that must be clear for a capture: all three on the SYN page, else the event's own (R465, R473). -/
def capMask (pg : Page) (bit : Nat) : Nat := if pg.blk = .syn then 7 else 2 ^ bit

/-- Sets the EVT bit and takes the capture (R465). -/
def State.setEvt (s : State) (pg : Page) (bit : Nat) (caps : List (Nat × Nat)) : State :=
  let w := s.rget (pg.base + oEvt)
  let s := s.rset (pg.base + oEvt) (w ||| BitVec.ofNat 32 (2 ^ bit))
  if s.rbit (pg.base + oCtl) 0 && (w &&& BitVec.ofNat 32 (capMask pg bit)) == 0 then
    caps.foldl (fun s c => s.rset (pg.base + c.1) (wOf c.2)) s
  else s

/-- Whether the record of an event carries JOB (R477). -/
def State.jobFlag (s : State) (e : Ev) : Bool :=
  (s.mgmt.dev == .run || s.mgmt.dev == .drain) && !e.forced && !e.test

/-- A STEP, FENCE or REPLACE event of the job enters the step's verdict (R333). -/
def State.stepMark (s : State) (e : Ev) : State :=
  if s.jobFlag e && decide (sevStep ≤ e.sev) then
    if e.code = 0x0505 ∨ e.code = 0x050B then { s with stp := { s.stp with hmEvent := true } }
    else { s with stp := { s.stp with stepEvent := true } }
  else s

/-- Job stroke number that an event carries (R477, R478). -/
def State.evtStroke (s : State) : DWord := s.stroke.closing.getD s.stroke.jobStroke

def State.recOf (s : State) (pg : Page) (e : Ev) : EvtRec :=
  { elapsed := s.mgmt.elapsed, jobStroke := s.evtStroke.truncate 48, code := e.code, sev := e.sev,
    job := s.jobFlag e, forced := e.forced, block := pg.blk.code, inst := pg.inst, page := pg.page,
    object := wOf e.object, waiter := wOf e.waiter, detail := wOf e.detail }

/-- One occurrence of an event: EVT bit and capture, EVT_CNT, the step's verdict, and the record in the logs. -/
def State.raise (s : State) (e : Ev) : State :=
  match pageAt e.page with
  | none => s
  | some pg =>
    let bit := evtBit pg e.code e.sev
    let s := match bit with | none => s | some k => s.setEvt pg k e.caps
    let s := if pg.blk = .me ∧ e.code ≠ 0x0101 then s else s.bump (pg.base + oEvtCnt) e.tally
    if e.quiet then s
    else
      let s := s.stepMark e
      let masked := match bit with | none => false | some k => !s.rbit (pg.base + oEvtEn) k
      s.logRec (s.recOf pg e) masked

/-- Marks a once-per-stroke key; answers whether it had been marked. -/
def State.once (s : State) (key : Nat × Nat) : Bool × State :=
  if s.stroke.told.contains key then (true, s)
  else (false, { s with stroke := { s.stroke with told := key :: s.stroke.told } })

/-- Raises an event whose record is written at most once per stroke for a key. -/
def State.raiseOnce (s : State) (e : Ev) (key : Nat) : State :=
  let (seen, s) := s.once (e.code, key)
  s.raise { e with quiet := seen }

/-! ### Identifiers (R75, R482) -/

def State.member (s : State) : Nat := s.rfield Reg.igsMember 0 13

/-- Layout M: MEMBER above 19 bits of the raiser's. -/
def State.objM (s : State) (low : Nat) : Nat := s.member * 2 ^ 19 + low
/-- Layout C: position and ID (R75). -/
def State.objC (s : State) (v id : Nat) : Nat := s.member * 2 ^ 19 + v / 8 * 2 ^ 15 + v % 8 * 2 ^ 12 + id % 4096

/-- The pages of the device-level blocks. -/
def pgPci : Nat := 0
def pgMss : Nat := 0x1000
def pgStk (g : Nat) : Nat := 0x10000 + g * 0x1000
def pgHbm (g : Nat) : Nat := 0x20000 + g * 0x1000
def pgBlk : Nat := 0x30000
def pgIgs (g : Nat) : Nat := 0x38000 + g * 0x1000
def pgAsy (g : Nat) : Nat := 0x40000 + g * 0x1000
def pgBrn : Nat := 0x48000
def pgPwr : Nat := 0x50000
def pgThm : Nat := 0x51000
def pgFab (q : Nat) : Nat := 0x200000 + q * 0x1000
def pgCore (p : Nat) : Nat := coreWin p
def pgCc (p : Nat) : Nat := coreWin p + 0x1000
def pgVe (p : Nat) : Nat := coreWin p + 0x2000
def pgMu (p : Nat) : Nat := coreWin p + 0x3000
def pgCmb (p : Nat) : Nat := coreWin p + 0x4000
def pgSyn (p : Nat) : Nat := coreWin p + 0x5000
def pgMe (p e : Nat) : Nat := coreWin p + 0x8000 + e * 0x1000

/-- Raises a device-level event with layout M. -/
def State.raiseM (s : State) (code page low waiter detail : Nat) : State :=
  s.raise (ev code page (s.objM low) waiter detail)

/-- Sets DEGRADED (R430). -/
def State.setDegraded (s : State) : State := { s with mgmt := { s.mgmt with degraded := true } }

def jobLo (s : State) : Nat := s.evtStroke.toNat % 2 ^ 32

end Sys2Proof.Machine
end

