-- ==== Sys2Proof/Machine/Regs.lean ====
section
/-!
DEFINITION. Writes of register words (R463 to R471): which fields a write reaches, pairs, sticky bits and their captures, locks.
What else a write sets in motion stands with the commands of `Machine/Manage.lean`.
-/

namespace Sys2Proof.Machine

open Sys2Proof

/-! ### Who may write -/

/-- The page takes writes at offset `o` on a path now (R433, R463, R464, R472). -/
def State.open? (s : State) (path : Path) (pg : Page) (o : Nat) : Bool :=
  let role := match pg.core? with | none => role0 | some p => s.roleOf p
  !s.hidden path pg && role.role != .disabled && (decide (o < 0x100) || !role.gated) &&
    !(path == .pcie && s.rbit (pg.base + oLock) 2)

/-- The page at an offset, where it takes writes now. -/
def State.target (s : State) (path : Path) (off : Nat) : Option Page :=
  (pageAt off).bind (fun pg => if s.open? path pg (off % 0x1000) then some pg else none)

/-! ### Fields (R468, R469) -/

/-- One field of a written word: what it becomes. -/
def RField.write (f : RField) (locked : Bool) (old new : Word) : Word :=
  let n := fieldNat new f.lsb f.wid
  let put := if f.lo ≤ n ∧ n ≤ f.hi then withField old f.lsb f.wid n else old
  match f.acc with
  | .rw | .wo => put
  | .rwl => if locked then old else put
  | .w1c => old &&& ~~~(BitVec.ofNat 32 (n * 2 ^ f.lsb))
  | .ro | .w1p => old

/-- A word written: every field in turn. -/
def RegRow.write (r : RegRow) (locked : Bool) (old new : Word) : Word :=
  r.fields.foldl (fun w f => f.write locked w new) old

/-- NOC_LDT_SEL takes only a version that the device can pad to (R242). -/
def State.wordOk (s : State) (off : Nat) (v : Word) : Bool :=
  if off = Reg.nocLdtSel then
    let n := fieldNat v 0 8
    decide (n < 8) && s.fuses.ldtCap.getLsbD n
  else true

/-- A half of a pair that a lock keeps: no field of it takes a write now (R468). -/
def RegRow.keptBy (r : RegRow) (locked : Bool) : Bool := locked && r.fields.all (fun f => f.acc == .ro || f.acc == .rwl)

/-- Writes one word of a page's own registers, or one half of a pair (R471). A low half written while it is locked is ignored, and does
not wait for its high half (R33, R105, R233). -/
def State.writeWord (s : State) (path : Path) (pg : Page) (off : Nat) (v : Word) : State :=
  match rowAt pg (off % 0x1000) with
  | none => s
  | some (r, _) =>
    let lk := s.locked pg.base
    let writable := r.fields.any (fun f => f.acc != .ro)
    if !writable then s
    else match r.half with
      | .lo => if r.keptBy lk then s else { s with loHeld := tset none s.loHeld (latchKey path off) (some v) }
      | .hi =>
        let key := latchKey path (off - 4)
        let s' := match tget none s.loHeld key, rowAt pg ((off - 4) % 0x1000) with
          | some lo, some (rl, _) => s.rset (off - 4) (rl.write lk (s.rget (off - 4)) lo)
          | _, _ => s
        let s' := s'.rset off (r.write lk (s'.rget off) v)
        { s' with loHeld := tset none s'.loHeld key none }
      | .none => if s.wordOk off v then s.rset off (r.write lk (s.rget off) v) else s

/-! ### Common words -/

/-- The capture words that clearing an EVT bit clears (R122, R155, R176, R179, R252, R276, R378, R379, R473). -/
def captureWords (b : Blk) (page bit : Nat) : List Nat :=
  let caps := fun n => (List.range n).map (fun k => 0x28 + 4 * k)
  match b, page, bit with
  | .me, _, 0 => caps 6
  | .me, _, 1 => (List.range 5).map (fun k => 0x130 + 4 * k)
  | .cc, _, 0 => caps 6
  | .ve, _, 0 => (List.range 6).map (fun k => 0x120 + 4 * k)
  | .ve, _, 1 => caps 2
  | .mu, _, 0 => caps 3
  | .cmb, _, 0 => caps 3
  | .core, _, 0 => caps 3
  | .hbm, 0, 0 => caps 5
  | .blk, _, 0 => caps 3
  | .blk, _, 1 => caps 3
  | _, _, _ => []

/-- The EVT bit that the KIND of the SYN capture names (R474). -/
def synKindBit (cap0 : Word) : Option Nat :=
  match fieldNat cap0 15 2 with | 0 => none | k + 1 => some k

/-- Writing 1s to EVT (R465, R473). -/
def State.evtClear (s : State) (pg : Page) (bits : Word) : State :=
  let hit := fun k => bits.getLsbD k
  let clr := if pg.blk = .syn then
      match synKindBit (s.rget (pg.base + 0x28)) with
      | none => []
      | some k => if hit k then [0x28, 0x2C, 0x30] else []
    else ((List.range (evtWidth pg.blk pg.page)).filter hit).flatMap (captureWords pg.blk pg.page)
  (s.rset (pg.base + oEvt) (s.rget (pg.base + oEvt) &&& ~~~bits)).rclear (clr.map (fun o => pg.base + o))

/-- The VALID bit of a forced capture: the words it takes and their values (R467). -/
def forcedCaps (b : Blk) (page bit : Nat) : List (Nat × Nat) :=
  let valid := fun o => (o, 2 ^ 31)
  match b, page with
  | .syn, _ => [valid 0x28, (0x2C, 0), (0x30, 0)]
  | _, _ => (captureWords b page bit).zipIdx.map (fun (o, k) => if k = 0 then valid o else (o, 0))

/-- One forced occurrence of the first event of a bit (R467). -/
def State.forceBit (s : State) (pg : Page) (k : Nat) : State :=
  match evtEvents pg.blk pg.page k with
  | [] => s
  | (code, sev) :: _ =>
    s.raise { code := code, sev := sev, page := pg.base, object := 0, waiter := 0, detail := 0xFFFFFFFF,
              caps := forcedCaps pg.blk pg.page k, forced := true }

/-- Writing EVT_FORCE: honoured in READY only. -/
def State.evtForce (s : State) (pg : Page) (bits : Word) : State :=
  if s.mgmt.dev = .ready then
    ((List.range (evtWidth pg.blk pg.page)).filter (fun k => bits.getLsbD k)).foldl (fun s k => s.forceBit pg k) s
  else s

/-- Writing CTL: CAPTURE_EN, and CNT_CLR where its bit is 1. -/
def State.writeCtl (s : State) (pg : Page) (v : Word) : State :=
  let s := s.rset (pg.base + oCtl) (v &&& 1)
  if v.getLsbD 1 then s.rset (pg.base + oEvtCnt) 0 else s

/-- Writing LOCK: SET from any path; CLEAR and HOSTLOCK from the firmware only (R464). -/
def State.writeLock (s : State) (path : Path) (pg : Page) (v : Word) : State :=
  let w := s.rget (pg.base + oLock)
  let fw := path != .pcie
  let locked := (w.getLsbD 0 || v.getLsbD 0) && !(fw && v.getLsbD 1)
  let host := if fw then v.getLsbD 2 else w.getLsbD 2
  s.rset (pg.base + oLock) (wOf (b1 locked 0 + b1 host 2))

/-- A write of a common word (R464). -/
def State.writeCommon (s : State) (path : Path) (pg : Page) (o : Nat) (v : Word) : State :=
  if o = oCtl then s.writeCtl pg v
  else if o = oEvt then s.evtClear pg v
  else if o = oEvtEn then s.rset (pg.base + oEvtEn) v
  else if o = oEvtForce then s.evtForce pg v
  else if o = oLock then s.writeLock path pg v
  else s

/-- Bits of EVT_CNT and every counter that job start clears on a page (R465). -/
def clearEvtCnt (s : State) (bases : List Nat) : State := s.rclear (bases.map (fun b => b + oEvtCnt))

end Sys2Proof.Machine
end

