-- ==== Sys2Proof/Machine/Net.lean ====
section
/-!
DEFINITION. The Igsum transport (R296 to R309): flow contexts, packets and their checks, sequence numbers, acknowledgement and
resend, messages, and the blame records that a lost peer sets in motion (R398 to R401).
-/

namespace Sys2Proof.Machine

open Sys2Proof

/-! ### Table memory (R302, R303, R311, R441) -/

/-- Byte offsets of the tables in the IGS table memory, in the order of R441 (DEDUCED, log entry 20). -/
def igsMemberTab : Nat := 0x0
def igsFlowTab : Nat := 0x20000
def igsCollTab : Nat := 0x60000

def State.tabNat (s : State) (off n : Nat) : Nat := leNat (bytesAt s.fab.table off n)

/-- A flow context (R303). -/
structure FlowCtx where
  peer : Nat
  tc : Nat
  valid : Bool
  hb : Bool
  peerFlow : Nat
  mask : Nat
deriving DecidableEq, Repr

def State.ctx (s : State) (f : Nat) : FlowCtx :=
  let a := igsFlowTab + 64 * f
  let fl := s.tabNat (a + 3) 1
  ⟨s.tabNat a 2 % 8192, s.tabNat (a + 2) 1 % 4, fl % 2 == 1, fl / 2 % 2 == 1, s.tabNat (a + 4) 2 % 4096, s.tabNat (a + 8) 8⟩

def flow0 : FlowSt := ⟨0, [], 0, [], [], 0, false, 0, [], [], [], [], none, none, false, false, 0⟩
def State.flow (s : State) (f : Nat) : FlowSt := tget flow0 s.fab.flows f
def State.setFlow (s : State) (f : Nat) (x : FlowSt) : State :=
  { s with fab := { s.fab with flows := tset flow0 s.fab.flows f x } }
def State.setPort (s : State) (q : Nat) (x : PortSt) : State :=
  { s with fab := { s.fab with ports := tset port0 s.fab.ports q x } }

/-- The valid flow contexts, ascending. -/
def State.validFlows (s : State) : List Nat := (List.range 4096).filter (fun f => (s.ctx f).valid)

/-- The distinct peers of the valid flow contexts (R303). -/
def State.peers (s : State) : List Nat := (s.validFlows.map (fun f => (s.ctx f).peer)).eraseDups

/-- The job's members: this device and its peers (DEDUCED, log entry 37). -/
def State.members (s : State) : List Nat := (s.member :: s.peers).eraseDups

/-- The context that carries a traffic class to a member: the lowest (DEDUCED, log entry 21). -/
def State.flowTo (s : State) (m tc : Nat) : Option Nat :=
  s.validFlows.find? (fun f => (s.ctx f).peer == m && (s.ctx f).tc == tc)

/-! ### Packets (R298) -/

/-- Header bytes 0 to 35. -/
def pktHeader (p : Pkt) : List Byte :=
  [BitVec.ofNat 8 (16 * p.ver + p.typ), p.flags] ++ beBytes 2 p.len ++ beBytes 2 p.flow ++ beBytes 2 p.src ++
  beBytes 4 p.epoch.toNat ++ beBytes 4 p.hmf.toNat ++ beBytes 4 p.seq.toNat ++ beBytes 4 p.coll.toNat ++
  beBytes 4 p.tree.toNat ++ beBytes 4 p.ofs ++ beBytes 4 p.step.toNat

def pktCrc (p : Pkt) : Word := crc32c (pktHeader p ++ p.payload)

/-- Zero bytes up to a multiple of 64. -/
def pad64 (bs : List Byte) : List Byte := bs ++ List.replicate ((64 - bs.length % 64) % 64) 0

/-- Bytes 0 to 3 of a hallmark, as HMF carries them (R456). -/
def hmfOf (h : List Byte) : Word := BitVec.ofNat 32 (beNat ((h ++ List.replicate 4 0).take 4))

/-- The hallmark fragment of an epoch: the current one, or the one before while it drains (R322). -/
def State.hmfFor (s : State) (ep : Word) : Word := hmfOf (if ep + 1 = s.epoch.cur then s.fab.prevHallmark else s.fab.hallmark)

/-- Epoch of the answer to a packet: that of the operation it belongs to, where the device still knows it (R298). -/
def State.answerEpoch (s : State) (ep : Word) : Word := if ep + 1 = s.epoch.cur then ep else s.epoch.cur

/-- Values of FLAGS bits (R298). -/
def flgNf : Nat := 1
def flgLate : Nat := 2
def flgLast : Nat := 4
def flgResent : Nat := 8
def flgCeEcho : Nat := 16

/-- TREE of a node (R298). -/
def treeWord (level shard : Nat) : Word := wOf (shard % 2 ^ 20 + 2 ^ 20 * (level % 32))

/-- A packet of this device in an epoch, with its CRC. -/
def State.pktIn (s : State) (ep : Word) (typ flags flow seq : Nat) (coll tree : Word) (ofs : Nat) (step : DWord)
    (payload : List Byte) : Pkt :=
  let p : Pkt := ⟨1, typ, BitVec.ofNat 8 flags, payload.length, flow, s.member, ep, s.hmfFor ep,
    wOf seq, coll, tree, ofs, loW step, 0, payload⟩
  { p with crc := pktCrc p }

/-- A packet of this device in the current epoch: operations of the one before are over on a device that has begun an epoch (R324). -/
def State.mkPkt (s : State) (typ flags flow seq : Nat) (coll tree : Word) (ofs : Nat) (step : DWord) (payload : List Byte) : Pkt :=
  s.pktIn s.epoch.cur typ flags flow seq coll tree ofs step payload

/-- Header, CRC and payload of a packet: the UDP payload. -/
def pktBytes (p : Pkt) : List Byte := pktHeader p ++ beBytes 4 p.crc.toNat ++ p.payload

/-! ### Ethernet, IP and UDP (R296, R297) -/

/-- Traffic class of a packet on a flow of class `tc` (R297). -/
def pktClass (typ tc : Nat) : Nat := if 3 ≤ typ then 0 else tc

/-- Sum of the 16-bit words of bytes, most significant byte first; an odd last byte counts as the high one. -/
def sum16 : Nat → List Byte → Nat
  | 0, _ => 0
  | n + 1, bs => if bs.isEmpty then 0 else 256 * (bs.getD 0 0).toNat + (bs.getD 1 0).toNat + sum16 n (bs.drop 2)
def wordSum (bs : List Byte) : Nat := sum16 (bs.length / 2 + 1) bs

/-- Internet checksums that hold and that are made, of a sum of words in ones' complement. -/
def sumHolds (n : Nat) : Bool := n % 65535 == 0 && n != 0
def ipSum (n : Nat) : Nat := (65535 - n % 65535) % 65535
def udpSum (n : Nat) : Nat := 65535 - n % 65535

/-- MAC address of port q, and of its next hop. -/
def State.macOf (s : State) (q : Nat) : BitVec 48 :=
  BitVec.ofNat 48 ((s.rget Reg.igsMacLo).toNat + 2 ^ 32 * s.rfield Reg.igsMacHi 0 16 + q)
def State.nextHop (s : State) (q : Nat) : BitVec 48 :=
  BitVec.ofNat 48 ((s.rget (Reg.fabNhMacLo q)).toNat + 2 ^ 32 * s.rfield (Reg.fabNhMacHi q) 0 16)

/-- The IP version in use is 6. -/
def State.usesIp6 (s : State) : Bool := s.rbit Reg.igsCfg 16

/-- The device's own address, and a member's of the member table (R302), in the version in use. -/
def State.ownIp (s : State) : List Byte :=
  if s.usesIp6 then (List.range 4).flatMap (fun i => beBytes 4 (s.rget (Reg.igsIp6 i)).toNat) else beBytes 4 (s.rget Reg.igsIp4).toNat
def State.memberIp (s : State) (m : Nat) : List Byte :=
  let e := bytesAt s.fab.table (igsMemberTab + 16 * (m % 8192)) 16
  if s.usesIp6 then e else e.drop 12

/-- DSCP and PCP of a traffic class. -/
def State.tcMap (s : State) (tc : Nat) : Nat × Nat :=
  let o := [Reg.igsTcMap0, Reg.igsTcMap1, Reg.igsTcMap2, Reg.igsTcMap3].getD tc Reg.igsTcMap3
  (s.rfield o 0 6, s.rfield o 8 3)

/-- Ethernet II header of port q: addresses, an 802.1Q tag where one is sent, the type. -/
def State.etherHeader (s : State) (q pcp : Nat) : List Byte :=
  beBytes 6 (s.nextHop q).toNat ++ beBytes 6 (s.macOf q).toNat ++
  (if s.rbit Reg.igsCfg 17 then [0x81, 0x00] ++ beBytes 2 (2 ^ 13 * pcp + s.rfield Reg.igsCfg 18 12) else []) ++
  (if s.usesIp6 then [0x86, 0xDD] else [0x08, 0x00])

/-- IP header with ECT(0), for a datagram of `len` bytes. The identification of IPv4 is 0 (DESIGN CHOICE, log entry 140). -/
def State.ipHeader (s : State) (dst : List Byte) (flow q dscp len : Nat) : List Byte :=
  let tos := 4 * dscp + 2
  if s.usesIp6 then
    beBytes 4 (6 * 2 ^ 28 + tos * 2 ^ 20 + flow % 4096 * 2 ^ 8 + q) ++ beBytes 2 len ++ [17, 64] ++ s.ownIp ++ dst
  else
    let put := fun (sum : Nat) => [0x45, BitVec.ofNat 8 tos] ++ beBytes 2 (20 + len) ++ [0, 0, 0x40, 0, 64, 17] ++ beBytes 2 sum ++ s.ownIp ++ dst
    put (ipSum (wordSum (put 0)))

/-- The pseudo-header that a UDP checksum covers. -/
def pseudo (src dst : List Byte) (len : Nat) : List Byte := src ++ dst ++ beBytes 4 len ++ [0, 0, 0, 17]

/-- UDP header of a datagram that carries `body`. -/
def State.udpHeader (s : State) (dst : List Byte) (flow q : Nat) (body : List Byte) : List Byte :=
  let len := 8 + body.length
  let put := fun (sum : Nat) => beBytes 2 (0xC000 + flow % 256 * 64 + q) ++ beBytes 2 (s.rfield Reg.igsCfg 0 16) ++ beBytes 2 len ++ beBytes 2 sum
  put (udpSum (wordSum (pseudo s.ownIp dst len ++ put 0 ++ body)))

/-- The headers of a packet of flow `f` on port q. -/
def State.headers (s : State) (f q : Nat) (p : Pkt) : List Byte :=
  let (dscp, pcp) := s.tcMap (pktClass p.typ (s.ctx f).tc)
  let dst := s.memberIp (s.ctx f).peer
  let body := pktBytes p
  s.etherHeader q pcp ++ s.ipHeader dst p.flow q dscp (8 + body.length) ++ s.udpHeader dst p.flow q body

/-- The IP header and what follows it of a frame's headers, behind at most one tag: none where the type is not the one in use. -/
def State.ipPart (s : State) (hdr : List Byte) : Option (List Byte) :=
  let h := hdr.drop 12
  let h := if h.take 2 = [0x81, 0x00] then h.drop 4 else h
  if h.take 2 = (if s.usesIp6 then [0x86, 0xDD] else [0x08, 0x00]) then some (h.drop 2) else none

/-- A datagram for this device (R296, R301): an IP header without options, extension or fragment, from it to its own address, and a UDP
header for IGS_CFG.UDP_PORT, lengths and checksums holding. -/
def State.headersOk (s : State) (r : Rx) : Bool :=
  match s.ipPart r.hdr with
  | none => false
  | some h =>
    let body := pktBytes r.pkt
    let at_ := fun o n => beNat ((h.drop o).take n)
    let n := if s.usesIp6 then 40 else 20
    let (src, dst) := if s.usesIp6 then ((h.drop 8).take 16, (h.drop 24).take 16) else ((h.drop 12).take 4, (h.drop 16).take 4)
    let ip := if s.usesIp6 then at_ 0 1 / 16 == 6 && at_ 4 2 == 8 + body.length && at_ 6 1 == 17
      else at_ 0 1 == 0x45 && at_ 2 2 == 28 + body.length && at_ 6 2 % 0x4000 == 0 && at_ 9 1 == 17 && sumHolds (wordSum (h.take 20))
    let udp := (h.drop n).take 8
    h.length == n + 8 && ip && dst == s.ownIp && beNat ((udp.drop 2).take 2) == s.rfield Reg.igsCfg 0 16 &&
      beNat ((udp.drop 4).take 2) == 8 + body.length && sumHolds (wordSum (pseudo src dst (8 + body.length) ++ udp ++ body))

/-- The IP header of a frame carries CE (R308). -/
def State.carriesCe (s : State) (r : Rx) : Bool :=
  match s.ipPart r.hdr with
  | none => false
  | some h => if s.usesIp6 then beNat (h.take 2) / 16 % 4 == 3 else beNat ((h.drop 1).take 1) % 4 == 3

/-! ### Ports and frames (R293, R304, R305) -/

/-- The ports of a mask that are up and carry a traffic class, ascending: in keep-alive mode a port carries TC0 alone (R293). -/
def State.upPorts (s : State) (mask tc : Nat) : List Nat :=
  (List.range 64).filter (fun q => mask.testBit q && (s.port q).up && (tc == 0 || !(s.port q).keepalive))

/-- Puts a frame of a flow on a port. -/
def State.onPort (s : State) (q f : Nat) (p : Pkt) : State :=
  let x := s.port q
  let fr : SentFrame := ⟨q, x.txCount, s.headers f q p, p⟩
  let s := s.setPort q { x with txCount := x.txCount + 1 }
  { s with fab := { s.fab with sent := s.fab.sent ++ [fr] } }

/-- The port a packet of a type leaves on: entry fmod(SEQ, m) of the m allowed ports that carry it (R304). -/
def State.portFor (s : State) (f typ seq : Nat) : Option Nat :=
  let qs := s.upPorts (s.ctx f).mask (pktClass typ (s.ctx f).tc)
  qs[seq % max 1 qs.length]?

/-- Sends a packet of a flow; with no port for it, it waits in the retained store. -/
def State.transmit (s : State) (f : Nat) (p : Pkt) : State :=
  match s.portFor f p.typ p.seq.toNat with
  | none => s
  | some q => s.onPort q f p

/-- A packet outside the sequence of a flow: ACK, NACK, HELLO, HEARTBEAT, PACE, BLAME (DEDUCED, log entry 22), all of TC0 (R297). -/
def State.sendPlain (s : State) (f typ flags : Nat) (seq : Word) (payload : List Byte) : State :=
  s.transmit f (s.mkPkt typ flags (s.ctx f).peerFlow seq.toNat 0 0 0 s.stroke.step payload)

/-- The answer to a packet of an epoch: ACK or NACK. -/
def State.sendAnswer (s : State) (f typ flags : Nat) (ep seq : Word) (payload : List Byte) : State :=
  s.transmit f (s.pktIn (s.answerEpoch ep) typ flags (s.ctx f).peerFlow seq.toNat 0 0 0 s.stroke.step payload)

/-- A packet in sequence, kept until it is acknowledged (R306). -/
def State.sendSeq (s : State) (f typ flags field : Nat) (coll tree : Word) (ofs : Nat) (step : DWord)
    (payload : List Byte) : State :=
  let x := s.flow f
  let p := s.mkPkt typ flags (s.ctx f).peerFlow x.nextSeq.toNat coll tree ofs step payload
  let q := (s.portFor f typ x.nextSeq.toNat).getD 64
  let s := s.setFlow f { x with nextSeq := x.nextSeq + 1, retained := x.retained ++ [(⟨p, q, 0, field, false⟩ : Retained)] }
  s.transmit f p

/-- Whether a 32-bit word of a payload is an infinity or NaN. -/
def nonFinWord (w : Word) : Bool := w.extractLsb' 23 8 == 0xFF

/-- Whether FP32 bytes hold an infinity or NaN. -/
def nonFinite : Nat → List Byte → Bool
  | 0, _ => false
  | n + 1, bs => nonFinWord (wOf (leNat (bs.take 4))) || nonFinite n (bs.drop 4)

/-- Cuts a message into packets of 4,096 bytes and sends them in sequence (R298). `nf` says whether FLAGS.NF follows the payload;
`base` is the granule offset of the message's first byte. An empty message is one empty packet. -/
def State.sendPieces (f typ flags field : Nat) (coll tree : Word) (step : DWord) (nf : Bool) :
    Nat → Nat → List Byte → State → State
  | 0, _, _, s => s
  | n + 1, base, bs, s =>
    let pay := bs.take 4096
    let last := bs.length ≤ 4096
    let fl := flags + (if nf && nonFinite (pay.length / 4) pay then flgNf else 0) + (if last then flgLast else 0)
    let s := s.sendSeq f typ fl field coll tree base step pay
    if last then s else State.sendPieces f typ flags field coll tree step nf n (base + 64) (bs.drop 4096) s

def State.sendMsg (s : State) (f typ flags field : Nat) (coll tree : Word) (step : DWord) (nf : Bool) (base : Nat)
    (bs : List Byte) : State :=
  State.sendPieces f typ flags field coll tree step nf (bs.length / 4096 + 1) base (pad64 bs) s

/-! ### Rate (R308) -/

/-- Full rate of a flow's allowed ports, in Gb/s times 4,096. -/
def State.fullRate (s : State) (f : Nat) : Nat :=
  400 * 4096 * ((List.range 64).filter (fun q => (s.ctx f).mask.testBit q)).length

def State.rateOf (s : State) (f : Nat) : Nat := (s.flow f).rate.getD (s.fullRate f)

/-- An ACK with CE_ECHO: the rate falls to 7/8, at most once per 10 µs. -/
def State.cutRate (s : State) (f : Nat) : State :=
  let x := s.flow f
  let free := match x.cutAt with | none => true | some t => decide (10000 ≤ (s.mgmt.elapsed - t).toNat)
  if free then s.setFlow f { x with rate := some (s.rateOf f * 7 / 8), cutAt := some s.mgmt.elapsed } else s

/-- Another 10 µs without CE_ECHO: the rate rises by 1 Gb/s up to the full rate. -/
def State.riseRate (s : State) (f : Nat) : State :=
  let r := s.rateOf f + 4096
  s.setFlow f { s.flow f with rate := if s.fullRate f ≤ r then none else some r }

/-! ### Blame (R398 to R401) -/

/-- A suspect enters the blame table (R401). -/
def State.blameRecord (s : State) (reporter suspect reason : Nat) (lastHeard : DWord) : State :=
  match s.blame.find? (fun x => x.member == suspect) with
  | some x =>
    let x' : Suspect := { x with
      reporters := if x.reporters.contains reporter then x.reporters else x.reporters ++ [reporter]
      lastGasp := x.lastGasp || reporter == suspect
      lastHeard := if x.lastHeard.toNat < (loW lastHeard).toNat then loW lastHeard else x.lastHeard }
    { s with blame := s.blame.map (fun y => if y.member = suspect then x' else y) }
  | none =>
    if 64 ≤ s.blame.length then s.bump Reg.asyBlameOvf 1
    else
      let s := { s with blame := s.blame ++ [(⟨suspect, [reporter], reporter == suspect, loW lastHeard⟩ : Suspect)] }
      s.raiseM 0x0640 (pgAsy 1) (suspect * 64) 0 reason

/-- The 32-byte payload of a blame record (R398). -/
def State.blameBytes (s : State) (suspect reason detail : Nat) (lastHeard : DWord) : List Byte :=
  leBytes 2 s.member ++ leBytes 2 suspect ++ [0, BitVec.ofNat 8 reason] ++ leBytes 2 0 ++ leBytes 8 lastHeard.toNat ++
  leBytes 4 s.epoch.cur.toNat ++ leBytes 8 s.stroke.step.toNat ++ leBytes 4 detail

/-- Job stroke number at which a packet from a member was last accepted. -/
def State.heardFrom (s : State) (m : Nat) : DWord :=
  s.fab.flows.foldl (fun best e =>
    if e.2.heard && (s.ctx e.1).peer == m && decide (best.toNat < e.2.lastHeard.toNat) then e.2.lastHeard else best) 0

/-- Sends one blame record to COORD and BACKUP; the device's own table takes it where it is one of them. -/
def State.sendBlame (s : State) (suspect reason detail : Nat) : State :=
  let lh := s.heardFrom suspect
  let body := pad64 (s.blameBytes suspect reason detail lh)
  ([s.job.params.coord, s.job.params.backup].eraseDups).foldl (fun s m =>
    if m = s.member then s.blameRecord s.member suspect reason lh
    else match s.flowTo m 0 with
      | none => s
      | some f => s.sendPlain f 9 flgLast 0 body) s

/-- The first event of an epoch that names a suspect sends its record (R399). -/
def State.blameOnce (s : State) (suspect reason detail : Nat) : State :=
  if s.job.present && !s.blamed.contains suspect then
    ({ s with blamed := suspect :: s.blamed }).sendBlame suspect reason detail
  else s

/-- The last-gasp record, on every port that is up (R400). -/
def State.lastGasp (s : State) (reason detail : Nat) : State :=
  if !s.job.present then s else
  let body := pad64 (s.blameBytes s.member reason detail s.stroke.jobStroke)
  let fs := [s.job.params.coord, s.job.params.backup].eraseDups.filterMap (fun m => (s.flowTo m 0).map (fun f => f))
  fs.foldl (fun s f =>
    (s.upPorts (2 ^ 64 - 1) 0).foldl (fun s q => s.onPort q f (s.mkPkt 9 flgLast (s.ctx f).peerFlow 0 0 0 0 s.stroke.step body)) s) s

/-- A fabric event that names a peer (R328). -/
def State.raisePeer (s : State) (code sev peer : Nat) (coll : Word) (detail : Nat) : State :=
  s.raise { ev code (pgIgs 0) (s.objM (peer * 64)) coll.toNat detail with sev := sev }

/-! ### Receiving (R301, R306, R326) -/

/-- ACK of everything up to the last packet in order (R306). -/
def State.sendAck (s : State) (f : Nat) : State :=
  let x := s.flow f
  let s := s.setFlow f { x with sinceAck := 0, ce := false }
  if x.rxNext = 0 ∧ x.rxGot = [] then s
  else s.sendAnswer f 3 (flgLast + if x.ce then flgCeEcho else 0) x.ep (x.rxNext - 1) []

/-- NACK of a SEQ with a reason (R299), to a packet of an epoch. -/
def State.sendNack (s : State) (f : Nat) (ep seq : Word) (reason : Nat) : State :=
  s.sendAnswer f 4 flgLast ep seq (pad64 (leBytes 4 seq.toNat ++ leBytes 4 reason))

/-- Moves `rxNext` over every SEQ received in order. -/
def advanceRx : Nat → Word → List Nat → Word × List Nat
  | 0, n, got => (n, got)
  | k + 1, n, got => if got.contains n.toNat then advanceRx k (n + 1) (got.filter (· != n.toNat)) else (n, got)

/-- A packet's SEQ has been received already. -/
def FlowSt.seen (x : FlowSt) (seq : Word) : Bool :=
  x.rxGot.contains seq.toNat || decide (2 ^ 31 ≤ (seq - x.rxNext).toNat)

/-- How far a SEQ lies beyond the packets received in order; SEQs are counted modulo 2^32. -/
def FlowSt.beyond (x : FlowSt) (n : Nat) : Nat := (wOf n - x.rxNext).toNat

/-- Missing SEQs with four later packets received and no NACK yet. -/
def FlowSt.gaps (x : FlowSt) : List Nat :=
  let far := x.rxGot.map x.beyond
  ((List.range (far.foldl max 0)).filter (fun k => !far.contains k && decide (4 ≤ (far.filter (fun g => k < g)).length))).map
    (fun k => (x.rxNext + wOf k).toNat) |>.filter (fun n => !x.gapTold.contains n)

/-- NACKs for gaps; the gap carries reason 0 (DEDUCED, log entry 23). -/
def State.tellGaps (s : State) (f : Nat) : State :=
  let gs := (s.flow f).gaps
  let s := s.setFlow f { s.flow f with gapTold := (s.flow f).gapTold ++ gs }
  gs.foldl (fun s n => s.sendNack f (s.flow f).ep (wOf n) 0) s

/-- Sequenced types: DATA, CONTRIB, RESULT and AGREE (DEDUCED, log entry 22). -/
def sequenced (typ : Nat) : Bool := typ == 0 || typ == 1 || typ == 2 || typ == 5

/-- A complete message. -/
structure Msg where
  flow : Nat
  typ : Nat
  src : Nat
  epoch : Word
  flags : Nat
  nf : Bool
  coll : Word
  tree : Word
  base : Nat
  step : Word
  bytes : List Byte
deriving DecidableEq, Repr

/-- The pieces of the message that a packet belongs to lie at SEQs `seq - k`, its first piece at granule `ofs - 64 k`. `k` is
bounded by `lim`, the piece number within the message. -/
def msgStart (p : Pkt) (base : Nat) : Word := p.seq - wOf ((p.ofs - base) / 64)

/-- The pieces from a SEQ up to the one that carries LAST, if all are here. -/
def gather (q : List Pkt) : Nat → Word → Option (List Pkt)
  | 0, _ => none
  | n + 1, seq =>
    match q.find? (fun p => p.seq == seq) with
    | none => none
    | some p => if p.flags.getLsbD 2 then some [p] else (gather q n (seq + 1)).map (fun ps => p :: ps)

/-- A SEQ lies before another one of its flow. -/
def seqBefore (a b : Word) : Bool := decide (2 ^ 31 ≤ (a - b).toNat)

/-- A DATA packet waits in the flow buffer: no receive is armed for its message, by the messages that end before it (R205, R309). -/
def FlowSt.buffers (x : FlowSt) (p : Pkt) : Bool :=
  p.typ == 0 &&
  decide (x.arms.length ≤ (x.rxq.filter (fun q => q.typ == 0 && q.flags.getLsbD 2 && seqBefore q.seq p.seq)).length)

def FlowSt.bytesHeld (x : FlowSt) : Nat :=
  ((x.rxq.filter x.buffers).map (fun p => p.payload.length)).sum + (x.waiting.map (fun w => w.2.2.length)).sum +
  (x.early.map (fun p => p.payload.length)).sum

/-- Bytes in the flow buffer (R309), of the 32 MiB that it has. -/
def State.bufUsed (s : State) : Nat := (s.fab.flows.map (fun e => e.2.bytesHeld)).sum
def flowBuffer : Nat := 32 * 1024 * 1024

/-- Data of a twin restore (R352), which goes to its region and waits in no buffer: on TC3, during the restore's hold, for a member that
restores. -/
def State.restoreFlow (s : State) (f : Nat) : Bool :=
  s.stroke.hold == .restore && s.epoch.restoring.isSome && (s.ctx f).tc == 3

/-- An operation of the epoch before is still draining on this device (R326): an answer to one, a message of which pieces have come, a
collective. -/
def State.draining (s : State) (p : Pkt) : Bool :=
  p.typ == 3 || p.typ == 4 ||
  (s.flow (p.flow % 4096)).rxq.any (fun q => q.typ == p.typ && q.epoch == p.epoch && q.coll == p.coll) ||
  s.fab.colls.any (fun c => c.coll == p.coll && c.epoch == p.epoch && !(c.done && c.cores.all (·.placed)))

/-- A core of the epoch marks a refused contribution of the sender absent at the roots of this device; `Machine/Coll.lean` finds
it here. The collective, the shard and level, and the step word of the packet. -/
structure Refusal323 where
  coll : Word
  tree : Word
  step : Word
  ofs : Nat
deriving DecidableEq, Repr

/-- The collective that an event about a packet names (R328): the one in COLL, which is a tag in a DATA packet (R296). -/
def collIdOf (p : Pkt) : Word := if p.typ = 0 then 0 else p.coll

/-- Checks 4 and 5 of R301 on a packet, with what each failure does; `ce` says whether its frame carried CE. Answers whether it passed. -/
def State.checkEpoch (s : State) (f : Nat) (p : Pkt) (ce : Bool) : Bool × Option Refusal323 × State :=
  if p.epoch ≠ s.epoch.cur ∧ !(p.epoch + 1 = s.epoch.cur ∧ s.draining p) then
    if p.epoch + 1 = s.epoch.cur then
      (false, none, (s.bump Reg.igsEpochRefused 1).sendNack f p.epoch p.seq 3)
    else if p.epoch = s.epoch.cur + 1 then
      if flowBuffer < s.bufUsed + p.payload.length then (false, none, s.sendNack f p.epoch p.seq 4)
      else (false, none, s.setFlow f { s.flow f with early := (s.flow f).early ++ [p] })
    else
      let s := (s.bump Reg.igsEpochRefused 1).sendNack f p.epoch p.seq 3
      let s := s.raisePeer 0x0506 sevStep p.src (collIdOf p) p.epoch.toNat
      (false, some ⟨p.coll, p.tree, p.step, p.ofs⟩, s.blameOnce p.src 5 p.epoch.toNat)
  else
    let hm := s.hmfFor p.epoch
    if p.typ ≠ 6 ∧ (p.hmf ≠ hm ∨ (s.flow f).refused) then
      let s := (s.bump Reg.igsHmRefused 1).sendNack f p.epoch p.seq 2
      let s := if p.hmf ≠ hm then
          let s := s.raiseOnce (ev 0x0505 (pgIgs 0) (s.objM (p.src * 64)) (collIdOf p).toNat p.hmf.toNat) p.src
          s.blameOnce p.src 4 p.hmf.toNat
        else s
      (false, some ⟨p.coll, p.tree, p.step, p.ofs⟩, s)
    else
      let x := s.flow f
      let s := { s with fab := { s.fab with silent := s.fab.silent.filter (· != p.src) } }
      (true, none, s.setFlow f { x with heard := true, lastHeard := s.stroke.jobStroke, ce := x.ce || ce })

/-- Checks 1 to 5 of R301 on a frame, with what each failure does. Answers whether the packet passed. -/
def State.check (s : State) (r : Rx) (f : Nat) : Bool × Option Refusal323 × State :=
  let p := r.pkt
  if !r.fcsOk then
    (false, none, if (s.port r.port).llr then s.send (.linkRetry r.port r.frame) else s)
  else if !s.headersOk r || p.ver != 1 || decide (9 < p.typ) || p.len != p.payload.length then
    (false, none, s.bump Reg.igsHmRefused 1)
  else
    let ce := s.carriesCe r
    let s := if ce then s.bump Reg.igsCeMarked 1 else s
    if !(s.ctx f).valid then (false, none, s)
    else if p.crc ≠ pktCrc p then (false, none, s.sendNack f p.epoch p.seq 1)
    else s.checkEpoch f p ce

/-- Check 6: a sequenced packet enters its flow; a duplicate is acknowledged again. Answers whether it is new. -/
def State.enter (s : State) (f : Nat) (p : Pkt) : Bool × State :=
  let x := s.flow f
  if x.seen p.seq then (false, s.sendAck f)
  else if x.buffers p ∧ !s.restoreFlow f ∧ flowBuffer < s.bufUsed + p.payload.length then (false, s.sendNack f p.epoch p.seq 4)
  else
    let (n, got) := advanceRx (x.rxGot.length + 1) x.rxNext (x.rxGot ++ [p.seq.toNat])
    let s := s.setFlow f { x with rxNext := n, rxGot := got, rxq := x.rxq ++ [p], sinceAck := x.sinceAck + 1, ep := p.epoch,
                                  gapTold := x.gapTold.filter (fun g => !seqBefore (wOf g) n) }
    let s := s.tellGaps f
    (true, if 16 ≤ (s.flow f).sinceAck then s.sendAck f else s)

/-- A packet in sequence without payload stands for a piece of a message that failed at its sender (DESIGN CHOICE, log entry 24): no
message has an empty piece. -/
def isVoid (p : Pkt) : Bool := p.payload.isEmpty && sequenced p.typ

/-- The message that packet `p` completes, `base` being the granule offset at which its message begins. A message with a void piece
is thrown away. -/
def State.complete (s : State) (f : Nat) (p : Pkt) (base : Nat) : Option Msg × State :=
  let x := s.flow f
  match gather x.rxq (x.rxq.length + 1) (msgStart p base) with
  | none => (none, s)
  | some ps =>
    let s := s.setFlow f { x with rxq := x.rxq.filter (fun q => !ps.any (fun r => r.seq == q.seq)) }
    if ps.any isVoid then (none, s)
    else (some ⟨f, p.typ, p.src, p.epoch, p.flags.toNat, ps.any (fun q => q.flags.getLsbD 0), p.coll, p.tree, base, p.step,
      ps.flatMap (·.payload)⟩, s)

/-- The DATA messages that are complete and in order: every packet below their end has arrived (log entry 25). -/
def State.readyData (s : State) (f : Nat) : Nat → List Msg × State
  | 0 => ([], s)
  | n + 1 =>
    let x := s.flow f
    match x.rxq.find? (fun p => p.typ == 0 && p.ofs == 0 &&
        match gather x.rxq (x.rxq.length + 1) p.seq with
        | none => false
        | some ps => ps.all (fun q => decide (2 ^ 31 ≤ (q.seq - x.rxNext).toNat))) with
    | none => ([], s)
    | some p =>
      match s.complete f p 0 with
      | (none, s) => State.readyData s f n
      | (some m, s) =>
        let (ms, s) := State.readyData s f n
        (m :: ms, s)

/-! ### Acknowledgement and resend at the sender (R306) -/

/-- Releases what a cumulative ACK covers. -/
def State.takeAck (s : State) (f : Nat) (seq : Word) : State :=
  let x := s.flow f
  s.setFlow f { x with retained := x.retained.filter (fun r => decide (0 < (r.pkt.seq - seq).toNat ∧ (r.pkt.seq - seq).toNat < 2 ^ 31)) }

/-- Sends a retained packet again, on the port that its SEQ selects now. -/
def State.resend (s : State) (f : Nat) (r : Retained) (counted : Bool) : State :=
  let p := { r.pkt with flags := r.pkt.flags ||| 8 }
  let p := { p with crc := pktCrc p }
  let x := s.flow f
  let q := (s.portFor f p.typ p.seq.toNat).getD 64
  let r' : Retained := { r with resends := if counted then r.resends + 1 else r.resends, port := q, backoff := false }
  let s := s.setFlow f { x with retained := x.retained.map (fun y => if y.pkt.seq = r.pkt.seq then r' else y) }
  (s.bumpPair Reg.igsResendLo 1).transmit f p

/-- The retained packets of the message that packet `p` belongs to: of its header, and with no LAST between. -/
def FlowSt.message (x : FlowSt) (p : Pkt) : List Retained :=
  let ends := (x.retained.filter (fun r => r.pkt.flags.getLsbD 2)).map (fun r => r.pkt.seq)
  x.retained.filter (fun r =>
    let q := r.pkt
    q.typ == p.typ && q.coll == p.coll && q.tree == p.tree && q.step == p.step &&
    !ends.any (fun e => if seqBefore q.seq p.seq then !seqBefore e q.seq && seqBefore e p.seq else !seqBefore e p.seq && seqBefore e q.seq))

/-- The packet that takes the place of a piece of a failed message. -/
def voidOf (p : Pkt) : Pkt :=
  let v := { p with payload := [], len := 0, flags := p.flags ||| 8 }
  { v with crc := pktCrc v }

/-- A message has failed: its packets leave the retained store, and an empty packet goes in the place of each (DESIGN CHOICE, log
entry 24). -/
def State.abandon (s : State) (f : Nat) (r : Retained) : State :=
  let x := s.flow f
  let ms := x.message r.pkt
  let s := s.setFlow f { x with retained := x.retained.filter (fun y => !ms.any (fun m => m.pkt.seq == y.pkt.seq)) }
  ms.foldl (fun s m => s.transmit f (voidOf m.pkt)) (s.bump Reg.igsResendFail 1)

end Sys2Proof.Machine
end

