-- ==== Sys2Proof/Machine/CoreEv.lean ====
section
/-!
DEFINITION. Events of a core (R207, R256, R474, R475), what an instruction may read beside its core (R21), and what its
effects outside the core are made of.
-/

namespace Sys2Proof.Machine

open Sys2Proof

/-! ### Events of class 0x02 and 0x09 -/

/-- KIND of the SYN capture (R474). -/
def synKind (code : Nat) : Nat := code - 0x0200

/-- SOURCE of the SYN capture: of a timeout, the stream code in waiter bits [11:10] (R78). -/
def synSource (code waiter : Nat) : Nat := if code = 0x0203 then waiter / 1024 % 4 else waiter % 8

/-- The page that reports an event of core `p`, with the capture it offers (R252, R256, R473 to R475). -/
def State.corePage (s : State) (p code id waiter detail : Nat) (caps : List Nat) : Nat × List (Nat × Nat) :=
  if code / 256 = 2 then
    (pgSyn p, [(0x28, id % 4096 + 4096 * synSource code waiter + 32768 * synKind code + 2 ^ 31), (0x2C, detail),
      (0x30, jobLo s)])
  else if code = 0x0901 then (if detail / 256 % 8 = 6 then pgCmb p else pgMe p (id / 256 % 4), [])
  else if code = 0x0902 then (pgCmb p, caps.zipIdx.map (fun c => (0x28 + 4 * c.2, c.1)))
  else if code = 0x0910 then
    (pgMu p, [(0x28, id % 256 + 256 * (waiter % 4) + 2 ^ 31), (0x2C, detail), (0x30, jobLo s)])
  else if code = 0x0903 then (pgCore p, [])
  else (pgCc p, [])

/-- The contract-violation counter an event counts in (R254). -/
def misuseReg (p code : Nat) : Option Nat :=
  if code = 0x0910 then some (Reg.coreCvAddr p)
  else if code = 0x0901 then some (Reg.coreCvFmt p)
  else if code = 0x0902 then some (Reg.coreCvGen p)
  else if code = 0x0201 ∨ code = 0x0202 then some (Reg.coreCvSync p)
  else none

/-- Raises an event of core `p`, which stands for position `v`. Its record is written at most once per stroke per core and code
(R207, R250); R256 gives 0x0901 no such bound. -/
def State.coreRaise (s : State) (p v code id waiter detail : Nat) (caps : List Nat) : State :=
  let (page, words) := s.corePage p code id waiter detail caps
  let s := match misuseReg p code with | none => s | some r => s.bump r 1
  let e : Ev := { ev code page (s.objC v id) waiter detail with
    caps := words, test := (s.roleOf p).role == .underTest }
  if code = 0x0901 then s.raise e else s.raiseOnce e p

/-- 0x0910 of an instruction of position `v`, raised on the core that holds it. -/
def State.addrEvent (s : State) (v : Nat) (st : Stream) (opc detail : Nat) : State :=
  match s.holder v with
  | none => s
  | some p => s.coreRaise p v 0x0910 opc st.codeNat detail []

/-! ### The context of an instruction -/

/-- An entry of the region table of core `p`, where it is in use (R252). -/
def State.region (s : State) (p i : Nat) : Option Region :=
  let c := s.rget (Reg.cmbRgnCtl p i)
  let base := s.rfield (Reg.cmbRgnBase p i) 0 19
  let len := fieldNat c 0 19
  let readers := fieldNat c 21 4
  if fieldNat c 19 2 = 1 ∧ 1 ≤ len ∧ 1 ≤ readers ∧ base ≤ 393215 then
    some ⟨i, base, min (base + len - 1) 393215, BitVec.ofNat 4 readers, c.getLsbD 29, c.extractLsb' 25 4⟩
  else none

def State.regions (s : State) (p : Nat) : List Region := (List.range 64).filterMap (s.region p)

/-- SUM_ORDER and Z5_CORES (R32 to R34). -/
def State.sumOrder (s : State) : SumOrder :=
  if s.rbit Reg.numMode 8 then .z5 (s.rfield Reg.numMode 16 7) else .canonical

/-- The loss scale of exponent E as FP32 bits (R337). -/
def lossScaleWord (e : Nat) : Word := wOf (e % 256 * 2 ^ 23)
def State.lossScale (s : State) : Word := lossScaleWord (s.rfield Reg.stkLsStat 0 8)

/-- Granules of a ticket: one for each codeword (R267). -/
def TicketDef.granules (t : TicketDef) : Nat := t.len

/-- Data slots that a ticket's run takes: one for each codeword of HBM, one for each stripe of the bulk tier, the last of which the run may
use in part (R267, R288; DEDUCED, log entry 151). -/
def TicketDef.units (t : TicketDef) : Nat := if t.bulk then (t.len + 3) / 4 else t.len

/-- Codewords that unit `i` of the run moves. -/
def TicketDef.unitLen (t : TicketDef) (i : Nat) : Nat := if t.bulk then min 4 (t.len - 4 * i) else 1

def State.ticketDef (s : State) (v n : Nat) : Option TicketDef := tget none s.mem.ticketDefs (1024 * v + n)

/-- Granules of each defined ticket of a position. -/
def State.ticketLens (s : State) (v : Nat) : Tbl Nat :=
  s.mem.ticketDefs.filterMap (fun e =>
    if e.1 / 1024 = v then e.2.map (fun t => (e.1 % 1024, t.granules)) else none)

/-- In replay mode the ledger gives COMMITTED and the loss scale (R191); the step machinery keeps both in the same place. -/
def State.ctxOf (s : State) (v p : Nat) : Ctx :=
  { vx := v % 8, vy := v / 8, gridW := s.job.grid.1, gridH := s.job.grid.2,
    travel := (List.range 128).map (travelTime s.ldtSel v),
    stroke := s.stroke.jobStroke, step := s.stroke.step,
    seed := BitVec.ofNat 64 (s.rpair Reg.numSeedLo), order := s.sumOrder, committed := s.stp.committed,
    lossScale := s.lossScale,
    shards := (List.range 16).map (fun k => BitVec.ofNat 64 (s.rpair (Reg.coreShardLo p k))),
    rgns := s.regions p, ticketLens := s.ticketLens v }

/-! ### Counters of a core, from outside its instructions -/

/-- Adds to a sync counter of core `p`, with the event of a saturation (R76, R77). -/
def State.ctrAdd (s : State) (p v ctr : Nat) (d : Word) (source : Nat) : State :=
  let r := (Run.fresh (s.core p)).ctrAdd ctr d source
  let s := s.setCore p r.c
  r.fx.foldl (fun s fx => match fx with
    | .ev code id w det caps => s.coreRaise p v code id w det caps
    | _ => s) s

/-- Adds 1 to an enabled counter of the core that holds a position, as an MU update. -/
def State.muUp (s : State) (v : Nat) (ctr : Option Nat) : State :=
  match ctr, s.holder v with
  | some k, some p => s.ctrAdd p v k 1 4
  | _, _ => s

/-! ### Flights (R201) -/

/-- Sends items to a position with a travel time. -/
def State.flight (s : State) (src dst travel : Nat) (st : Stream) (opc : Nat) (items : List Item) : State :=
  if items.isEmpty then s else { s with flights := s.flights ++ [⟨src, dst, travel, st, opc, items⟩] }

/-- Granule items of bytes from an offset up: one for each 64-byte piece, the last one perhaps shorter. -/
def byteItems : Nat → Nat → List Byte → List Item
  | 0, _, _ => []
  | n + 1, off, bs =>
    if bs.isEmpty then [] else .granule off (bs.take 64) :: byteItems n (off + 64) (bs.drop 64)

def itemsOf (off : Nat) (bs : List Byte) : List Item := byteItems (bs.length / 64 + 1) off bs

end Sys2Proof.Machine
end

