-- ==== Sys2Proof/Machine/Coll.lean ====
section
/-!
DEFINITION. Collectives (R124 to R128, R311 to R320, R338 to R344, R500): table entries, nodes at the roots, reports and
decisions, the combination, results and trailers, late lanes, the norm record, and the breaking of a replica (R349, R380).
-/

namespace Sys2Proof.Machine

open Sys2Proof

/-! ### The collective table (R311, R338, R339) -/

/-- A collective table entry. -/
structure CollCfg where
  coll : Word
  kind : Nat
  int : Bool
  sprue : Bool
  tc : Nat
  n : Nat
  stages : Nat
  rowLog2 : Nat
  dl1 : Nat
  dl2 : Nat
  segG : Nat
  segs : Nat
  lenG : Nat
  roots : Nat
  shards : Nat
  normColl : Word
  normBase : Nat
  normEn : Bool
  normSink : Bool
  sinkRef : DWord
  sinkCtr : Nat
deriving DecidableEq, Repr

/-- Entry k of the collective table. -/
def State.collAt (s : State) (k : Nat) : CollCfg :=
  let f := fun o n => s.tabNat (igsCollTab + 64 * k + o) n
  { coll := wOf (f 0 4), kind := f 4 1, int := f 5 1 == 0xA, sprue := f 6 1 == 1, tc := f 7 1 % 4, n := f 8 4,
    stages := f 12 1, rowLog2 := f 13 1, dl1 := f 14 2, dl2 := f 16 2, segG := f 20 4, segs := f 24 4, lenG := f 28 4,
    roots := f 32 8, shards := f 40 8, normColl := wOf (f 48 4), normBase := f 52 4, normEn := f 56 1 % 2 == 1,
    normSink := f 56 1 / 2 % 2 == 1, sinkRef := BitVec.ofNat 64 (f 48 8), sinkCtr := f 57 2 % 4096 }

/-- The entries in use. -/
def State.collEntries (s : State) : List CollCfg :=
  ((List.range 4096).map s.collAt).filter (fun c => c.n != 0)

/-- The entry of an identifier. -/
def State.collCfg (s : State) (coll : Word) : Option CollCfg := s.collEntries.find? (fun c => c.coll == coll)

def CollCfg.two (c : CollCfg) : Bool := c.stages == 2
def CollCfg.final (c : CollCfg) : Nat := if c.two then 2 else 1
/-- Stage-1 groups. -/
def CollCfg.groups (c : CollCfg) : Nat := if c.two then (c.n + 2 ^ c.rowLog2 - 1) / 2 ^ c.rowLog2 else 1

/-- A root table entry (R311). -/
structure RootEnt where
  member : Nat
  v : Nat
  backup : Nat
  bv : Nat
deriving DecidableEq, Repr

/-- Entry k of a collective's root table. -/
def State.rootAt (s : State) (c : CollCfg) (k : Nat) : RootEnt :=
  let w := s.tabNat (c.roots + 8 * k) 8
  ⟨w % 8192, w / 2 ^ 13 % 8 + 8 * (w / 2 ^ 16 % 16), w / 2 ^ 32 % 8192, w / 2 ^ 45 % 8 + 8 * (w / 2 ^ 48 % 16)⟩

def State.rootEnt (s : State) (c : CollCfg) (stage group seg : Nat) : RootEnt :=
  let k := if !c.two then seg else if stage = 1 then group * c.segs + seg else c.groups * c.segs + seg
  s.rootAt c k

/-- Member of a shard: two bytes each (DEDUCED, log entry 26). -/
def State.shardMember (s : State) (c : CollCfg) (j : Nat) : Nat := s.tabNat (c.shards + 2 * j) 2 % 8192

def State.replicaOf (s : State) (m : Nat) : Nat := tget 0 s.job.params.replicas m
def State.replica (s : State) : Nat := s.replicaOf s.member
def State.excluded (s : State) (m : Nat) : Bool := s.stp.epochExcl.contains (s.replicaOf m)

/-- The member that serves as root: the backup where the entry's member lies in an excluded replica (R351). -/
def State.serving (s : State) (e : RootEnt) : Nat := if s.excluded e.member then e.backup else e.member
def State.rootMember (s : State) (c : CollCfg) (stage group seg : Nat) : Nat := s.serving (s.rootEnt c stage group seg)
def State.rootPos (s : State) (c : CollCfg) (stage group seg : Nat) : Nat :=
  let e := s.rootEnt c stage group seg
  if s.excluded e.member then e.bv else e.v

/-- The members of a collective: those of its shards; of a norm collective every member of the job (R339); for a BROADCAST the peers of its
traffic class and this device (DEDUCED, log entry 27). -/
def State.collMembers (s : State) (c : CollCfg) : List Nat :=
  if c.normSink then s.members
  else if c.kind = 3 then
    (s.member :: (s.validFlows.filter (fun f => (s.ctx f).tc == c.tc)).map (fun f => (s.ctx f).peer)).eraseDups
  else ((List.range c.n).map (s.shardMember c)).eraseDups

/-! ### Segments and masks -/

def CollCfg.segOff (c : CollCfg) (seg : Nat) : Nat := 64 * (seg * c.segG)
def CollCfg.segLen (c : CollCfg) (seg : Nat) : Nat := 64 * (min ((seg + 1) * c.segG) c.lenG - seg * c.segG)
/-- The segment's part of a contribution. -/
def CollCfg.cut (c : CollCfg) (seg : Nat) (bs : List Byte) : List Byte := (bs.drop (c.segOff seg)).take (c.segLen seg)

/-- Bits j to j + n - 1. -/
def rangeMask (j n : Nat) : Nat := (2 ^ n - 1) * 2 ^ j
/-- The shards below N that a node (k, j) stands for. -/
def runMask (n level j : Nat) : Nat := rangeMask j (min (j + 2 ^ level) n - j)
def subMask (a b : Nat) : Bool := a &&& b == a
def minusMask (a b : Nat) : Nat := a ^^^ (a &&& b)
def lowBit (n : Nat) (m : Nat) : Nat := ((List.range n).find? (fun j => m.testBit j)).getD 0
def countBits (n : Nat) (m : Nat) : Nat := ((List.range n).filter (fun j => m.testBit j)).length

/-- The shards of a stage and group. -/
def CollCfg.stageMask (c : CollCfg) (stage group : Nat) : Nat :=
  if c.two && stage == 1 then
    rangeMask (group * 2 ^ c.rowLog2) (min ((group + 1) * 2 ^ c.rowLog2) c.n - group * 2 ^ c.rowLog2)
  else rangeMask 0 c.n

/-- Stage of a node: two-stage collectives take nodes of level c and above at stage 2 (R313). -/
def CollCfg.stageOf (c : CollCfg) (level : Nat) : Nat := if c.two && decide (level < c.rowLog2) then 1 else c.final
def CollCfg.groupOf (c : CollCfg) (stage j : Nat) : Nat := if c.two && stage == 1 then j / 2 ^ c.rowLog2 else 0

/-! ### Combination (R125, R127, R343) -/

def wordsFrom : Nat → List Byte → List Word
  | 0, _ => []
  | n + 1, bs => wOf (leNat (bs.take 4)) :: wordsFrom n (bs.drop 4)
def bytesFrom (ws : List Word) : List Byte := ws.flatMap (fun w => leBytes 4 w.toNat)

/-- The elements of a combination, none where every contribution is absent, with the flags it has raised. -/
abbrev Summed := Option (List Word) × Flg

/-- Combines two nodes element by element (`combine` of R125). -/
def combineVals (int : Bool) (x y : Summed) : Summed :=
  match x.1, y.1 with
  | none, v => (v, x.2 ||| y.2)
  | v, none => (v, x.2 ||| y.2)
  | some xs, some ys =>
    let rs := List.zipWith (accAdd int) xs ys
    (some (rs.map (·.1)), rs.foldl (fun f r => f ||| r.2) (x.2 ||| y.2))

/-- The node (k, j) of the tree over the nodes held: level, shard, elements. -/
def treeNode (int : Bool) : Nat → Nat → List (Nat × Nat × List Word) → Summed
  | 0, j, ns => ((ns.find? (fun n => n.1 == 0 && n.2.1 == j)).map (·.2.2), 0)
  | k + 1, j, ns =>
    match ns.find? (fun n => n.1 == k + 1 && n.2.1 == j) with
    | some n => (some n.2.2, 0)
    | none =>
      if ns.isEmpty then (none, 0)
      else
        let m := j + 2 ^ k
        combineVals int (treeNode int k j (ns.filter (fun n => decide (n.2.1 < m))))
          (treeNode int k m (ns.filter (fun n => decide (m ≤ n.2.1))))

/-- Nodes in ascending shard order. -/
def insertNode (x : Nat × Nat × List Word) : List (Nat × Nat × List Word) → List (Nat × Nat × List Word)
  | [] => [x]
  | y :: ys => if x.2.1 < y.2.1 then x :: y :: ys else y :: insertNode x ys

/-- `tree_reduce` over the nodes that a set admits; in Z5 order the chain of R34. -/
def reduceNodes (z5 int : Bool) (level base : Nat) (ns : List CNode) : Summed :=
  let vs := (ns.map (fun n => (n.level, n.shard, wordsFrom (n.bytes.length / 4) n.bytes))).foldl (fun l x => insertNode x l) []
  if z5 then vs.foldl (fun acc n => combineVals int acc (some n.2.2, 0)) (none, 0)
  else treeNode int level base vs

/-- The sum of squares of a segment, as VRED SUMSQ forms it (R338). -/
def sumSquares (ws : List Word) : Word × Flg :=
  let qs := ws.map (fun w => mulFp32 w w)
  let (v, f) := treeReduce false (qs.map (fun q => some q.1))
  (v, qs.foldl (fun f q => f ||| q.2) f)

/-- Flags of a combination go into the word of the stream whose NCOLL brought the collective to the core, of stream U where none has
(DESIGN CHOICE, log entry 139), and into NUM_FLAG_SUM (R93, R94, R106). -/
def State.raiseFlagsAt (s : State) (v : Nat) (st : Stream) (f : Flg) : State :=
  if f = 0 then s
  else
    let s := s.rset Reg.numFlagSum (s.rget Reg.numFlagSum ||| f.zeroExtend 32)
    match s.holder v with
    | none => s
    | some p =>
      let c := s.core p
      s.setCore p (c.setStream st { c.stream st with flags := (c.stream st).flags ||| f })

/-! ### Roots (R312, R316 to R318, R500) -/

/-- Nodes go through the first stage as they are: in Z5 order, whose chain admits no local node, and in the kinds that do not combine
(R34, R127, R313). -/
def State.forwards (s : State) (c : CollCfg) : Bool := s.rbit Reg.numMode 8 || c.kind == 2 || c.kind == 3

/-- Every shard of a stage-1 group lies on one member, which sends the group as one node of level c: the first stage has no part in it
(R127, R313; DESIGN CHOICE, log entry 141). -/
def State.direct (s : State) (c : CollCfg) (g : Nat) : Bool :=
  let size := 2 ^ c.rowLog2
  c.two && !s.forwards c && decide ((g + 1) * size ≤ c.n) &&
  (List.range size).all (fun k => s.shardMember c (g * size + k) == s.shardMember c (g * size))

/-- This device's run of a collective in a step. -/
def State.collRun? (s : State) (coll : Word) (step : DWord) : Option CollRun :=
  s.fab.colls.find? (fun r => r.coll == coll && r.step == step)

/-- Whether a root run is the one of a key. -/
def RootRun.hasKey (r : RootRun) (coll : Word) (step : DWord) (stage group lane seg : Nat) : Bool :=
  r.coll == coll && r.step == step && r.stage == stage && r.group == group && r.lane == lane && r.seg == seg

def State.root? (s : State) (coll : Word) (step : DWord) (stage group lane seg : Nat) : Option RootRun :=
  s.fab.roots.find? (fun r => r.hasKey coll step stage group lane seg)

def State.setRoot (s : State) (r : RootRun) : State :=
  let me := fun (x : RootRun) => x.hasKey r.coll r.step r.stage r.group r.lane r.seg
  let rs := if s.fab.roots.any me then s.fab.roots.map (fun x => if me x then r else x) else s.fab.roots ++ [r]
  { s with fab := { s.fab with roots := rs } }

/-- Shards whose replica is out: excluded for the epoch, or withdrawn in the step (R349, R351). -/
def State.outMask (s : State) (c : CollCfg) : Nat :=
  (List.range c.n).foldl (fun m j =>
    let r := s.replicaOf (s.shardMember c j)
    if s.stp.epochExcl.contains r || s.stp.withdrawn.contains r then m ||| 2 ^ j else m) 0

/-- The shards that the late lane of a step expects: those its previous main lane left out, where that step committed (R315,
R344). -/
def State.lateMask (s : State) (c : CollCfg) (step : DWord) (stage group seg : Nat) : Nat :=
  if c.sprue && c.kind ≠ 2 && c.kind ≠ 3 && s.stp.committed then
    let root := (s.root? c.coll (step - 1) stage group 0 seg).bind (fun r => r.incl.orElse (fun _ => r.decided))
    match ((s.collRun? c.coll (step - 1)).bind (·.incl)).orElse (fun _ => root) with
    | some d => minusMask (c.stageMask stage group) d
    | none => 0
  else 0

/-- The included set of a collective of a step, as the replay ring gives it (R318, R346). -/
def ledgerBits : Nat → Nat → List LedgerEntry → Nat
  | 0, _, _ => 0
  | fuel + 1, pos, es =>
    match es with
    | e :: es' => if e.typ = 2 then leNat (e.body.take 28) * 2 ^ pos + ledgerBits fuel (pos + 224) es' else 0
    | [] => 0

def replaySet (coll : Word) (lane : Nat) : List LedgerEntry → Option Nat
  | [] => none
  | e :: es =>
    if e.typ = 1 ∧ leNat (e.body.take 4) = coll.toNat ∧ e.b1 % 2 = lane then
      some (leNat ((e.body.drop 12).take 16) + ledgerBits (es.length + 1) 128 es)
    else replaySet coll lane es

def State.replayRec (s : State) (step : DWord) : Option LedgerRec := s.stp.replayRecs.find? (fun r => r.step == step)

/-- What the ledger says was included, in replay mode. -/
def State.replayIncl (s : State) (coll : Word) (step : DWord) (lane : Nat) : Option Nat :=
  if s.job.params.replay then (s.replayRec step).map (fun r => (replaySet coll lane r.entries).getD 0) else none

/-- The groups of the first stage of which a set holds a shard, with all their shards. -/
def CollCfg.groupsOf (c : CollCfg) (m : Nat) : Nat :=
  (List.range c.groups).foldl (fun x g => if m &&& c.stageMask 1 g = 0 then x else x ||| c.stageMask 1 g) 0

/-- The part of a ledgered set that a stage and group decide (R29, R313): at the second stage a group enters as one node. -/
def State.replayPart (s : State) (c : CollCfg) (stage group m : Nat) : Nat :=
  if !c.two then m
  else if stage = 1 then m &&& c.stageMask 1 group
  else if s.forwards c then m
  else c.groupsOf m

/-- The set of a root in replay mode, as soon as the record is there (R318, R347). -/
def State.replayDecided (s : State) (coll : Word) (step : DWord) (stage group lane : Nat) : Option Nat :=
  match s.collCfg coll with
  | none => none
  | some c => (s.replayIncl coll step lane).map (s.replayPart c stage group)

/-- A new root run. In replay mode it reports nothing, and its set is the ledger's (R318, R347). -/
def State.newRoot (s : State) (coll : Word) (step : DWord) (stage group lane seg : Nat) (backup : Bool) : RootRun :=
  ⟨coll, step, seg, stage, group, lane, false, [], s.job.params.replay, s.replayDecided coll step stage group lane, false, backup,
    none, none⟩

def State.rootOrNew (s : State) (coll : Word) (step : DWord) (stage group lane seg : Nat) : RootRun :=
  (s.root? coll step stage group lane seg).getD (s.newRoot coll step stage group lane seg false)

def RootRun.covered (r : RootRun) (n : Nat) : Nat := r.nodes.foldl (fun m x => m ||| runMask n x.level x.shard) 0
def RootRun.held (r : RootRun) (n : Nat) : Nat :=
  r.nodes.foldl (fun m x => if x.unobtainable then m else m ||| runMask n x.level x.shard) 0

def CoordRun.hasKey (x : CoordRun) (coll : Word) (step : DWord) (stage group lane : Nat) : Bool :=
  x.coll == coll && x.step == step && x.stage == stage && x.group == group && x.lane == lane

/-- What this device knows of a stage's agreement: as its coordinator, or from the decision it has received. -/
def State.coord (s : State) (coll : Word) (step : DWord) (stage group lane : Nat) : CoordRun :=
  (s.fab.coords.find? (fun x => x.hasKey coll step stage group lane)).getD ⟨coll, step, stage, group, lane, [], none⟩

/-- The shards that no node of the second stage will bring, by the decisions of the first: those left out, where nodes go through as they
are, and the groups left out as a whole otherwise (R313). -/
def State.stageOneOut (s : State) (c : CollCfg) (step : DWord) (lane : Nat) : Nat :=
  if !c.two then 0
  else (List.range c.groups).foldl (fun x g =>
    match (s.coord c.coll step 1 g lane).decided with
    | none => x
    | some d => if s.forwards c then x ||| minusMask (c.stageMask 1 g) d else if d = 0 then x ||| c.stageMask 1 g else x) 0

/-- The shards a root waits for before it reports. -/
def State.rootWants (s : State) (c : CollCfg) (r : RootRun) : Nat :=
  let all := if r.lane = 0 then c.stageMask r.stage r.group else s.lateMask c r.step r.stage r.group r.seg
  minusMask (minusMask all (s.outMask c)) (if r.stage = 2 then s.stageOneOut c r.step r.lane else 0)

/-! ### Agreement messages (R300) -/

/-- The common part of an AGREE payload and its fields. -/
def agreeBytes (kind lane seg n : Nat) (step : DWord) (stage : Nat) (rest : List Byte) : List Byte :=
  [BitVec.ofNat 8 kind, BitVec.ofNat 8 lane] ++ leBytes 2 seg ++ leBytes 4 n ++ leBytes 8 step.toNat ++
  [BitVec.ofNat 8 stage] ++ List.replicate 15 0 ++ rest

/-- Sends an AGREE message to a member on TC0. -/
def State.sendAgree (s : State) (m : Nat) (coll tree : Word) (step : DWord) (bs : List Byte) : State :=
  match s.flowTo m 0 with
  | none => s
  | some f => s.sendMsg f 5 0 0 coll tree step false 0 bs

/-- TREE of a DECISION that hands a segment over to its backup: level 31, and the root-table entry of the segment (DESIGN CHOICE, log
entry 28). -/
def handTree (k : Nat) : Word := treeWord 31 k
def CollCfg.rootIdx (c : CollCfg) (stage group seg : Nat) : Nat :=
  if !c.two then seg else if stage = 1 then group * c.segs + seg else c.groups * c.segs + seg
/-- Group and segment of a root-table entry of a stage. -/
def CollCfg.rootOf (c : CollCfg) (stage k : Nat) : Nat × Nat :=
  if c.two && stage == 1 then (k / max 1 c.segs, k % max 1 c.segs) else (0, if c.two then k - c.groups * c.segs else k)

/-- TREE of an AGREE message names the group of a stage (DESIGN CHOICE, log entry 28). -/
def CollCfg.groupTree (c : CollCfg) (stage group : Nat) : Word :=
  if c.two && stage == 1 then treeWord c.rowLog2 (group * 2 ^ c.rowLog2) else 0

def bitmapBytes (n m : Nat) : List Byte := leBytes ((n + 7) / 8) m

def State.shardEvent (s : State) (code sev : Nat) (c : CollCfg) (m detail : Nat) : State :=
  s.raisePeer code sev m c.coll detail

/-! ### Sending nodes -/

/-- Whether this device may send contributions now: its replica is not broken (R349, R380). -/
def State.mayContribute (s : State) : Bool := s.stp.broken.isNone

/-- Sends segment `seg` of a node to a member. OFS counts from the start of the collective's range, which names the segment
(DEDUCED, log entry 29). -/
def State.sendNode (s : State) (c : CollCfg) (m seg field : Nat) (late : Bool) (step : DWord) (nd : CNode) : State :=
  match s.flowTo m c.tc with
  | none => s
  | some f =>
    s.sendMsg f 1 (if late then flgLate else 0) field c.coll (treeWord nd.level nd.shard) step (!c.int)
      (seg * c.segG) nd.bytes

/-- A node of segment `seg`, its NF found from its bytes (R312). -/
def segNode (c : CollCfg) (seg : Nat) (nd : CNode) : CNode :=
  let bs := c.cut seg nd.bytes
  { nd with bytes := bs, nf := !c.int && nonFinite (bs.length / 4) bs }

/-! ### Breaking a replica (R349, R350, R380) -/

/-- The devices that hold a segment root of a collective of the epoch: where the epoch excludes an entry's member, its backup (R351). -/
def State.rootHolders (s : State) : List Nat :=
  (s.collEntries.flatMap (fun c =>
    (List.range (if c.two then (c.groups + 1) * c.segs else c.segs)).map (fun k => s.serving (s.rootAt c k)))).eraseDups

/-- The body of a WITHDRAW. -/
def State.withdrawBytes (s : State) (cause : Word) : List Byte :=
  pad64 (agreeBytes 5 0 0 0 s.stroke.step 0 (leBytes 4 s.replica ++ leBytes 2 s.member ++ [0, 0] ++ leBytes 4 cause.toNat))

/-- Every shard that a node stands for is out. -/
def State.nodeOut (s : State) (c : CollCfg) (nd : CNode) : Bool := subMask (runMask c.n nd.level nd.shard) (s.outMask c)

/-- Nodes of shards that are out count as unobtainable at a root that has not reported (R349). -/
def State.dropOut (s : State) (r : RootRun) : RootRun :=
  match s.collCfg r.coll with
  | none => r
  | some c =>
    if r.reported || r.decided.isSome then r
    else { r with nodes := r.nodes.map (fun x => if s.nodeOut c x then { x with unobtainable := true } else x) }

/-- Marks a replica withdrawn: its shards are unobtainable at every root of this device that has not reported. -/
def State.markWithdrawn (s : State) (r : Nat) : State :=
  if s.stp.withdrawn.contains r then s
  else
    let s := { s with stp := { s.stp with withdrawn := s.stp.withdrawn ++ [r] } }
    { s with fab := { s.fab with roots := s.fab.roots.map s.dropOut } }

/-- This device's replica breaks: no contribution any more in the step, and WITHDRAW to every root holder. An assay job sends
nothing outside its replica (R385). -/
def State.breakReplica (s : State) (cause : Word) : State :=
  match s.stp.broken with
  | some _ => s
  | none =>
    let s := { s with stp := { s.stp with broken := some cause } }
    let s := s.markWithdrawn s.replica
    let out := s.rootHolders.filter (fun m => m != s.member && (!s.job.assay || s.replicaOf m == s.replica))
    out.foldl (fun s m => s.sendAgree m 0 0 s.stroke.step (s.withdrawBytes cause)) s

/-! ### The step ledger's entries (R346) -/

def State.addEntry (s : State) (e : LedgerEntry) : State := { s with stp := { s.stp with entries := s.stp.entries ++ [e] } }

/-- BITMAP entries behind an INCLUDED entry. -/
def bitmapEntries : Nat → Nat → Nat → Nat → List LedgerEntry
  | 0, _, _, _ => []
  | fuel + 1, pos, n, m =>
    if n ≤ pos then [] else ⟨2, 0, leBytes 28 (m / 2 ^ pos)⟩ :: bitmapEntries fuel (pos + 224) n m

def inclEntries (coll : Word) (n lane m : Nat) : List LedgerEntry :=
  ⟨1, lane, leBytes 4 coll.toNat ++ leBytes 4 n ++ leBytes 4 (countBits n m) ++ leBytes 16 m⟩ ::
    bitmapEntries (n / 224 + 1) 128 n m

def lateEntry (coll : Word) (shard outcome : Nat) (step : DWord) : LedgerEntry :=
  ⟨3, 0, leBytes 4 coll.toNat ++ leBytes 4 shard ++ [BitVec.ofNat 8 outcome, 0, 0, 0] ++ leBytes 8 step.toNat⟩

/-! ### The trailer (R314) -/

/-- Trailer bytes. -/
def trailerBytes (c : CollCfg) (nf late incomplete : Bool) (step : DWord) (incl absent sprued bm : Nat) : List Byte :=
  let ext := decide (256 < c.n)
  leBytes 4 c.coll.toNat ++ leBytes 4 incl ++ leBytes 4 absent ++
  [BitVec.ofNat 8 (b1 nf 0 + b1 late 1 + b1 incomplete 2 + b1 ext 3), 0, 0, 0] ++ leBytes 8 step.toNat ++
  leBytes 4 (if ext then (crc32c (bitmapBytes c.n bm)).toNat else 0) ++ leBytes 4 sprued ++
  leBytes 32 (if ext then 0 else bm)

/-- The main trailer of sets `m` and `l`. -/
def mainTrailer (c : CollCfg) (m l : Nat) (nf incomplete : Bool) (step : DWord) : List Byte :=
  let absent := c.n - countBits c.n m
  trailerBytes c nf (l != 0) incomplete step (countBits c.n m + countBits c.n l) absent (if c.sprue then absent else 0) m

/-- The late trailer. -/
def lateTrailer (c : CollCfg) (l : Nat) (nf incomplete : Bool) (orig : DWord) : List Byte :=
  trailerBytes c nf true incomplete orig (countBits c.n l) 0 0 l

/-- What a RESULT message carries behind its segment: for N > 256 the bitmaps, then the late trailer and the trailer, which so lies in its
last packet (R299; log entry 30). -/
def trailersOf (c : CollCfg) (m l : Nat) (nf incomplete : Bool) (step : DWord) : List Byte :=
  (if 256 < c.n then pad64 (bitmapBytes c.n m) ++ (if l = 0 then [] else pad64 (bitmapBytes c.n l)) else []) ++
  (if l = 0 then [] else lateTrailer c l nf incomplete (step - 1)) ++ mainTrailer c m l nf incomplete step

end Sys2Proof.Machine
end

