-- ==== Sys2Proof/Machine/TransTables.lean ====
section
/-!
DEFINITION. The tables of R170 and R171. Every entry is the FP32 value nearest to the exact real the rule names, worked out
from the rule's own formulas.
-/

namespace Sys2Proof.Machine

open Sys2Proof

/-- EXP_T of R171: entry j is nearest to 2^(j/32). -/
def expT : List Word :=
  [0x3F800000, 0x3F82CD87, 0x3F85AAC3, 0x3F88980F, 0x3F8B95C2, 0x3F8EA43A, 0x3F91C3D3, 0x3F94F4F0, 0x3F9837F0, 0x3F9B8D3A, 0x3F9EF532, 0x3FA27043, 0x3FA5FED7, 0x3FA9A15B, 0x3FAD583F, 0x3FB123F6] ++
  [0x3FB504F3, 0x3FB8FBAF, 0x3FBD08A4, 0x3FC12C4D, 0x3FC5672A, 0x3FC9B9BE, 0x3FCE248C, 0x3FD2A81E, 0x3FD744FD, 0x3FDBFBB8, 0x3FE0CCDF, 0x3FE5B907, 0x3FEAC0C7, 0x3FEFE4BA, 0x3FF5257D, 0x3FFA83B3]

/-- RECIP of R171: entry j is nearest to 128 / (129 + 2j). -/
def recipT : List Word :=
  [0x3F7E03F8, 0x3F7A232D, 0x3F76603E, 0x3F72B9D6, 0x3F6F2EB7, 0x3F6BBDB3, 0x3F6865AC, 0x3F652598, 0x3F61FC78, 0x3F5EE95C, 0x3F5BEB62, 0x3F5901B2, 0x3F562B81, 0x3F53680D, 0x3F50B6A0, 0x3F4E168A] ++
  [0x3F4B8728, 0x3F4907DA, 0x3F46980C, 0x3F443730, 0x3F41E4BC, 0x3F3FA030, 0x3F3D6910, 0x3F3B3EE7, 0x3F392144, 0x3F370FBB, 0x3F3509E7, 0x3F330F63, 0x3F311FD4, 0x3F2F3ADE, 0x3F2D602B, 0x3F2B8F6A] ++
  [0x3F29C84A, 0x3F280A81, 0x3F2655C4, 0x3F24A9CF, 0x3F23065E, 0x3F216B31, 0x3F1FD80A, 0x3F1E4CAD, 0x3F1CC8E1, 0x3F1B4C70, 0x3F19D723, 0x3F1868C8, 0x3F17012E, 0x3F15A025, 0x3F144581, 0x3F12F114] ++
  [0x3F11A2B4, 0x3F105A38, 0x3F0F177A, 0x3F0DDA52, 0x3F0CA29C, 0x3F0B7034, 0x3F0A42F8, 0x3F091AC7, 0x3F07F781, 0x3F06D905, 0x3F05BF37, 0x3F04A9FA, 0x3F039930, 0x3F028CC0, 0x3F01848E, 0x3F008081]

/-- LOG_L of R171: entry j is nearest to -ln of the stored RECIP entry. -/
def logLT : List Word :=
  [0x3BFF015B, 0x3CBDC8D6, 0x3D1CF437, 0x3D5A16F0, 0x3D8B29B9, 0x3DA8D837, 0x3DC61A33, 0x3DE2F2A6, 0x3DFF648A, 0x3E0DB958, 0x3E1B8FE1, 0x3E29372F, 0x3E36B07E, 0x3E43FD04, 0x3E511DE0, 0x3E5E1436] ++
  [0x3E6AE10A, 0x3E778570, 0x3E82012E, 0x3E882C5F, 0x3E8E44C6, 0x3E944AD0, 0x3E9A3EEE, 0x3EA02185, 0x3EA5F2FD, 0x3EABB3BA, 0x3EB16416, 0x3EB70476, 0x3EBC952A, 0x3EC2168E, 0x3EC788F5, 0x3ECCECAC] ++
  [0x3ED24205, 0x3ED78949, 0x3EDCC2C5, 0x3EE1EEBE, 0x3EE70D79, 0x3EEC1F3A, 0x3EF12441, 0x3EF61CCF, 0x3EFB0921, 0x3EFFE96F, 0x3F025EFD, 0x3F04C37B, 0x3F07224C, 0x3F097B8D, 0x3F0BCF55, 0x3F0E1DC0] ++
  [0x3F1066E6, 0x3F12AADF, 0x3F14E9C0, 0x3F1723A2, 0x3F19589A, 0x3F1B88BE, 0x3F1DB423, 0x3F1FDADD, 0x3F21FCFE, 0x3F241A9F, 0x3F2633CE, 0x3F28489E, 0x3F2A5924, 0x3F2C656D, 0x3F2E6D8E, 0x3F307197]

/-- RSQ of R171: entry j is nearest to the square root of 128 / (129 + 2j). -/
def rsqT : List Word :=
  [0x3F7F017E, 0x3F7D0D3E, 0x3F7B2452, 0x3F79464E, 0x3F7772CB, 0x3F75A969, 0x3F73E9CB, 0x3F723399, 0x3F708681, 0x3F6EE232, 0x3F6D4660, 0x3F6BB2C5, 0x3F6A271A, 0x3F68A31D, 0x3F672691, 0x3F65B139] ++
  [0x3F6442DB, 0x3F62DB41, 0x3F617A36, 0x3F601F87, 0x3F5ECB04, 0x3F5D7C7F, 0x3F5C33CC, 0x3F5AF0BF, 0x3F59B330, 0x3F587AF7, 0x3F5747EE, 0x3F5619F2, 0x3F54F0DF, 0x3F53CC93, 0x3F52ACEE, 0x3F5191D1] ++
  [0x3F507B1D, 0x3F4F68B6, 0x3F4E5A7F, 0x3F4D505E, 0x3F4C4A38, 0x3F4B47F4, 0x3F4A497A, 0x3F494EB3, 0x3F485787, 0x3F4763E2, 0x3F4673AC, 0x3F4586D3, 0x3F449D42, 0x3F43B6E6, 0x3F42D3AD, 0x3F41F383] ++
  [0x3F411659, 0x3F403C1C, 0x3F3F64BD, 0x3F3E902C, 0x3F3DBE58, 0x3F3CEF34, 0x3F3C22B1, 0x3F3B58C0, 0x3F3A9154, 0x3F39CC60, 0x3F3909D6, 0x3F3849AA, 0x3F378BD0, 0x3F36D03D, 0x3F3616E4, 0x3F355FBA] ++
  [0x3F34AAB4, 0x3F33F7C9, 0x3F3346ED, 0x3F329816, 0x3F31EB3B, 0x3F314052, 0x3F309752, 0x3F2FF032, 0x3F2F4AE9, 0x3F2EA76E, 0x3F2E05BA, 0x3F2D65C3, 0x3F2CC782, 0x3F2C2AF0, 0x3F2B9004, 0x3F2AF6B7] ++
  [0x3F2A5F03, 0x3F29C8E0, 0x3F293446, 0x3F28A131, 0x3F280F98, 0x3F277F76, 0x3F26F0C4, 0x3F26637D, 0x3F25D79A, 0x3F254D15, 0x3F24C3EA, 0x3F243C11, 0x3F23B587, 0x3F233045, 0x3F22AC46, 0x3F222985] ++
  [0x3F21A7FE, 0x3F2127AC, 0x3F20A889, 0x3F202A91, 0x3F1FADC0, 0x3F1F3210, 0x3F1EB77F, 0x3F1E3E06, 0x3F1DC5A3, 0x3F1D4E52, 0x3F1CD80D, 0x3F1C62D1, 0x3F1BEE9B, 0x3F1B7B67, 0x3F1B0930, 0x3F1A97F3] ++
  [0x3F1A27AE, 0x3F19B85B, 0x3F1949F8, 0x3F18DC82, 0x3F186FF5, 0x3F18044E, 0x3F17998A, 0x3F172FA5, 0x3F16C69E, 0x3F165E70, 0x3F15F718, 0x3F159095, 0x3F152AE3, 0x3F14C5FF, 0x3F1461E7, 0x3F13FE97] ++
  [0x3F139C0E, 0x3F133A49, 0x3F12D945, 0x3F127900, 0x3F121978, 0x3F11BAA9, 0x3F115C92, 0x3F10FF30, 0x3F10A281, 0x3F104684, 0x3F0FEB35, 0x3F0F9092, 0x3F0F369A, 0x3F0EDD4A, 0x3F0E84A0, 0x3F0E2C9B] ++
  [0x3F0DD538, 0x3F0D7E75, 0x3F0D2851, 0x3F0CD2C9, 0x3F0C7DDC, 0x3F0C2988, 0x3F0BD5CB, 0x3F0B82A4, 0x3F0B3010, 0x3F0ADE0E, 0x3F0A8C9D, 0x3F0A3BBA, 0x3F09EB64, 0x3F099B9A, 0x3F094C59, 0x3F08FDA1] ++
  [0x3F08AF6F, 0x3F0861C3, 0x3F08149B, 0x3F07C7F5, 0x3F077BD0, 0x3F07302A, 0x3F06E503, 0x3F069A58, 0x3F065029, 0x3F060674, 0x3F05BD38, 0x3F057474, 0x3F052C25, 0x3F04E44C, 0x3F049CE7, 0x3F0455F4] ++
  [0x3F040F72, 0x3F03C961, 0x3F0383BF, 0x3F033E8B, 0x3F02F9C3, 0x3F02B568, 0x3F027176, 0x3F022DEF, 0x3F01EAD0, 0x3F01A818, 0x3F0165C6, 0x3F0123DA, 0x3F00E253, 0x3F00A12E, 0x3F00606D, 0x3F00200C]

/-- ERF_A of R171: row j holds the Taylor coefficients of erf at 0.5 + (2j + 1)/16. -/
def erfAT : List (List Word) :=
  [[0x3F12DC54, 0x3F5283A7, 0xBEECD41C, 0xBDCE20E9, 0x3E3ADF5E, 0xBC320857, 0xBD3EFC45],
   [0x3F2B4922, 0x3F340FF9, 0xBEF795F7, 0xBC5212A3, 0x3E29920B, 0xBD2AC5A6, 0xBD0DBD6B],
   [0x3F3FDCE0, 0x3F1546E7, 0xBEF29338, 0x3D7F03CB, 0x3E07D118, 0xBD7D10F6, 0xBC98AA37],
   [0x3F50AA8D, 0x3EEFE513, 0xBEE0E6C2, 0x3DF264CC, 0x3DBA3F19, 0xBD8E8F80, 0xBB23B2A1],
   [0x3F5DF788, 0x3EBAD48D, 0xBEC681D6, 0x3E1CAA3C, 0x3D44707C, 0xBD87BE0B, 0x3C2F1168],
   [0x3F682C06, 0x3E8D06E3, 0xBEA7782D, 0x3E2B245B, 0x3C207DD6, 0xBD606DC5, 0x3C9C461F],
   [0x3F6FC2F5, 0x3E4E5ADF, 0xBE876BA2, 0x3E283367, 0xBCA0CFD1, 0xBD1FA0BB, 0x3CB68EB9]] ++
  [[0x3F753B98, 0x3E1253DC, 0xBE52588C, 0x3E18CE3D, 0xBD1EDADF, 0xBCB80CDF, 0x3CACE9D5],
   [0x3F790E50, 0x3DC92385, 0xBE1D23C0, 0x3E0229FD, 0xBD453E35, 0xBC03AE04, 0x3C8B7CE5],
   [0x3F7BA537, 0x3D85FCBF, 0xBDE21A83, 0x3DD1B43E, 0xBD4B23D2, 0x3B34C083, 0x3C3F43AB],
   [0x3F7D586F, 0x3D2D0474, 0xBD9CCC09, 0x3DA0A078, 0xBD3A9AD3, 0x3C1BA644, 0x3BD20385],
   [0x3F7E6D66, 0x3CD88B05, 0xBD51C6AD, 0x3D6ADEC9, 0xBD1D9AEE, 0x3C4EBB58, 0x3B0A6444],
   [0x3F7F1840, 0x3C83570A, 0xBD0771C2, 0x3D245894, 0xBCF8AADA, 0x3C551604, 0xBA5DFBF1],
   [0x3F7F7E67, 0x3C1A6BEE, 0xBCA8E60C, 0x3CDC92D5, 0xBCB8F3EA, 0x3C3F52C0, 0xBB2375CF]] ++
  [[0x3F7FB99C, 0x3BAFF93B, 0xBC4B782C, 0x3C8E2D32, 0xBC827AE5, 0x3C1C150A, 0xBB4AE55D],
   [0x3F7FDADF, 0x3B425D18, 0xBBECE175, 0x3C3044C3, 0xBC2F58E4, 0x3BEC2A7C, 0xBB44BB8D],
   [0x3F7FECFC, 0x3AD0121B, 0xBB854B99, 0x3BD25FA4, 0xBBE11C01, 0x3BA7A004, 0xBB264D16],
   [0x3F7FF68B, 0x3A57E42F, 0xBB110D50, 0x3B71E4D5, 0xBB8A58DD, 0x3B60E0CE, 0xBAFF561F],
   [0x3F7FFB6F, 0x39D91D2D, 0xBA98A884, 0x3B06121A, 0xBB231809, 0x3B0F4269, 0xBAB5A0C4],
   [0x3F7FFDDC, 0x3953A034, 0xBA1B69A6, 0x3A8F5B71, 0xBAB8A75C, 0x3AADF604, 0xBA72310F],
   [0x3F7FFF07, 0x38C7EE0E, 0xB9991242, 0x3A13EE0E, 0xBA49017A, 0x3A49DA65, 0xBA1874F3]] ++
  [[0x3F7FFF92, 0x383711B4, 0xB911E21B, 0x39935F80, 0xB9D28FDB, 0x39E0412A, 0xB9B61EE0],
   [0x3F7FFFD1, 0x37A2790F, 0xB8868C41, 0x390DCB27, 0xB9546BC3, 0x396EEB70, 0xB94F295C],
   [0x3F7FFFEC, 0x370BC1E7, 0xB7F03546, 0x3883CBC6, 0xB8CE81CC, 0x38F4688A, 0xB8E0FB93],
   [0x3F7FFFF8, 0x366909CC, 0xB74F8CBA, 0x37ECC15F, 0xB841907E, 0x387050E6, 0xB869C211],
   [0x3F7FFFFD, 0x35BC4FDC, 0xB6AD999E, 0x374D897F, 0xB7AF0349, 0x37E35039, 0xB7E8BC66],
   [0x3F7FFFFF, 0x35137CF0, 0xB60C9315, 0x36AC8060, 0xB718B36F, 0x374EFE62, 0xB75E558F],
   [0x3F800000, 0x345FEBAB, 0xB55C6BFC, 0x360BFC9F, 0xB6809D82, 0x36B5922F, 0xB6CC03BB]]

/-- ERF_S of R170. -/
def erfST : List Word :=
  [0x3F906EBB, 0xBEC093A3, 0x3DE71791, 0xBCDC1672, 0x3BAB2DE7, 0xBA6016DA, 0x38FCD193]

end Sys2Proof.Machine
end

