-- ==== Sys2Proof/Machine/Transcend.lean ====
section
/-!
DEFINITION. The transcendental functions of the vector engine (R168 to R172), bit for bit.
-/

namespace Sys2Proof.Machine

open Sys2Proof

/-- The functions of R169 (VTR selects one). -/
inductive TrFn
  | exp | log | rcp | rsqrt | tanh | sigmoid | erf
deriving DecidableEq, Repr

/-! ### Quiet internal operations: the algorithms' steps raise no flag (R168) -/

def qFma (a b c : Word) : Word := (fmaFp32 a b c).1
def qMul (a b : Word) : Word := (mulFp32 a b).1
def qAdd (a b : Word) : Word := (addFp32 a b).1
def qNeg (b : Word) : Word := b ^^^ 0x80000000
def qVal (b : Word) : Dy := (decodeFloat .fp32 b).mag
def qRound (neg : Bool) (x : Dy) : Word := (roundRneFp32 ⟨.fin, neg, x⟩).1
/-- `fp32(v)` of R172 for an integer. -/
def qInt (k : Int) : Word := packFloat .fp32 (decide (k < 0)) (Dy.ofNat k.natAbs)
/-- Horner evaluation from the highest coefficient down: `t := fma(x, t, c)`. -/
def horner (x : Word) (t : Word) (cs : List Word) : Word := cs.foldl (fun t c => qFma x t c) t

def cONE : Word := 0x3F800000
def cHALF : Word := 0x3F000000

/-- `exp_core` of R172. -/
def expCore (x : Word) : Word :=
  let k := (decodeFloat .fp32 (qMul x 0x4238AA3B)).sv.rint
  let r := qFma (qInt (-k)) 0x3CB17200 x
  let r := qFma (qInt (-k)) 0x333FBE8E r
  let j := k % 32
  let t := horner r 0x3D2AAAAB [0x3E2AAAAB, 0x3F000000, cONE]
  let y := qFma (expT.getD j.toNat 0) (qMul r t) (expT.getD j.toNat 0)
  qRound false ((qVal y).scale ((k - j) / 32))

/-- `log1p_poly` of R172. -/
def log1pPoly (r : Word) : Word :=
  qMul r (horner r 0x3E124925 [0xBE2AAAAB, 0x3E4CCCCD, 0xBE800000, 0x3EAAAAAB, 0xBF000000, cONE])

/-- The significand of a value in [1, 2) and, from `sh`, its table index `floor((m - 1) * 64)`. -/
def tabIndex (m : Dy) : Nat := m.floorUnits (-6) - 64

/-- `log_core` of R172. -/
def logCore (x : Word) : Word :=
  let v := qVal x
  if (⟨31, -5⟩ : Dy).lt v && v.lt ⟨33, -5⟩ then log1pPoly (qAdd x 0xBF800000)
  else
    let e := v.floorLog2
    let mb := packFloat .fp32 false (v.scale (-e))
    let j := tabIndex (qVal mb)
    let r := qFma mb (recipT.getD j 0) 0xBF800000
    let h := qFma (qInt e) 0x3F317200 (logLT.getD j 0)
    let l := qFma (qInt e) 0x35BFBE8E (log1pPoly r)
    qAdd h l

/-- One Newton step of `rcp_core`. -/
def rcpStep (mb y : Word) : Word := qFma y (qFma (qNeg mb) y cONE) y

/-- `rcp_core` of R172. -/
def rcpCore (x : Word) : Word :=
  let v := qVal x
  let e := v.floorLog2
  let mb := packFloat .fp32 false (v.scale (-e))
  let y := recipT.getD (tabIndex (qVal mb)) 0
  let y := rcpStep mb (rcpStep mb y)
  qRound (x.msb) ((qVal y).scale (-e))

/-- One Newton step of `rsqrt_core`. -/
def rsqrtStep (mb y : Word) : Word :=
  let d := qFma (qNeg (qMul mb y)) y cONE
  qFma (qMul y cHALF) d y

/-- `rsqrt_core` of R172. -/
def rsqrtCore (x : Word) : Word :=
  let v := qVal x
  let e := 2 * (v.floorLog2 / 2)
  let mb := packFloat .fp32 false (v.scale (-e))
  let y := rsqT.getD (tabIndex (qVal mb)) 0
  let y := rsqrtStep mb (rsqrtStep mb y)
  qRound false ((qVal y).scale (-e / 2))

/-- `tanh_core` of R172. -/
def tanhCore (a : Word) : Word :=
  if (qVal a).lt (Dy.pow2 (-3)) then
    let z := qMul a a
    let t := horner z 0x3CB327A4 [0xBD5D0DD1, 0x3E088889, 0xBEAAAAAB]
    qFma a (qMul z t) a
  else
    let e := expCore (qAdd a a)
    qFma 0xC0000000 (rcpCore (qAdd e cONE)) cONE

/-- `sigmoid_core` of R172. -/
def sigmoidCore (x : Word) : Word := rcpCore (qAdd (expCore (qNeg x)) cONE)

/-- `erf_core` of R172. -/
def erfCore (a : Word) : Word :=
  if (qVal a).lt (Dy.pow2 (-1)) then
    let z := qMul a a
    let c := fun k => erfST.getD k 0
    qMul a (horner z (c 6) [c 5, c 4, c 3, c 2, c 1, c 0])
  else
    let j := (qVal a).floorUnits (-3) - 4
    let row := erfAT.getD j []
    let c := fun n => row.getD n 0
    let h := qAdd a (packFloat .fp32 true ⟨9 + 2 * j, -4⟩)
    horner h (c 6) [c 5, c 4, c 3, c 2, c 1, c 0]

/-- The result of a core function with the flags R168 gives it: OF and NF for an infinity, UF for a zero, NX where
`exact` is false. -/
def trFlags (exact : Bool) (b : Word) : Word × Flg :=
  let v := decodeFloat .fp32 b
  let i := if v.cls = .inf then flOF ||| flNF else 0
  let u := if v.isZero && !exact then flUF else 0
  let n := if exact then 0 else flNX
  (b, i ||| u ||| n)

/-- Puts the sign of `x` on a magnitude's bits. -/
def withSign (neg : Bool) (b : Word) : Word := if neg then b ||| 0x80000000 else b &&& 0x7FFFFFFF

/-- Compares a finite value with an integer: value `<` n. -/
def valLt (v : FVal) (n : Int) : Bool := v.sv.lt ⟨n, 0⟩
def valGt (v : FVal) (n : Int) : Bool := (⟨n, 0⟩ : Sd).lt v.sv

/-- A transcendental of an FP32 value (R168, R169, R172). -/
def trEval (fn : TrFn) (x : Word) : Word × Flg :=
  let v := decodeFloat .fp32 x
  match v.cls with
  | .nan => (0x7FC00000, flNF)
  | .inf =>
    match fn with
    | .exp => if v.neg then (0, 0) else (0x7F800000, flNF)
    | .log => if v.neg then (0x7FC00000, flNV ||| flNF) else (0x7F800000, flNF)
    | .rcp => (if v.neg then 0x80000000 else 0, 0)
    | .rsqrt => if v.neg then (0x7FC00000, flNV ||| flNF) else (0, 0)
    | .tanh => (withSign v.neg cONE, 0)
    | .sigmoid => (if v.neg then 0 else cONE, 0)
    | .erf => (withSign v.neg cONE, 0)
  | .fin =>
    let z := v.mag.m == 0
    match fn with
    | .exp =>
      if z then (cONE, 0)
      else if valGt v 89 then (0x7F800000, flOF ||| flNX ||| flNF)
      else if valLt v (-104) then (0, flUF ||| flNX)
      else trFlags false (expCore x)
    | .log =>
      if z then (0xFF800000, flDZ ||| flNF)
      else if v.neg then (0x7FC00000, flNV ||| flNF)
      else if x = cONE then (0, 0)
      else trFlags false (logCore x)
    | .rcp =>
      if z then (packInf .fp32 v.neg, flDZ ||| flNF)
      else
        let b := rcpCore x
        trFlags ((decodeFloat .fp32 b).cls == .fin && ((qVal b).mul v.mag).same (Dy.ofNat 1)) b
    | .rsqrt =>
      if z then (packInf .fp32 v.neg, flDZ ||| flNF)
      else if v.neg then (0x7FC00000, flNV ||| flNF)
      else
        let b := rsqrtCore x
        trFlags ((decodeFloat .fp32 b).cls == .fin &&
          (((qVal b).mul (qVal b)).mul v.mag).same (Dy.ofNat 1)) b
    | .tanh =>
      if z then (x, 0)
      else if (Dy.ofNat 10).le v.mag then (withSign v.neg cONE, flNX)
      else trFlags false (withSign v.neg (tanhCore (withSign false x)))
    | .sigmoid =>
      if !(valLt v 18) then (cONE, flNX)
      else if valLt v (-88) then (0, flUF ||| flNX)
      else trFlags z (sigmoidCore x)
    | .erf =>
      if z then (x, 0)
      else if (Dy.ofNat 4).le v.mag then (withSign v.neg cONE, flNX)
      else trFlags false (withSign v.neg (erfCore (withSign false x)))

end Sys2Proof.Machine
end

