-- ==== Sys2Proof/Machine/CollRun.lean ====
section
/-!
DEFINITION. How a collective moves on (R312 to R320, R338, R339, R343, R344): nodes arrive at roots, roots report, coordinators decide,
roots combine, results arrive and are written. Each happening may set off others on the same device; they are carried out one
after another.
-/

namespace Sys2Proof.Machine

open Sys2Proof

/-- A happening of a collective on this device. -/
inductive CAct
  /-- A node reaches a root. -/
  | arrive (coll : Word) (step : DWord) (lane seg src : Nat) (node : CNode)
  /-- A node that went through the first stage as it was reaches a root of the second on the same device. -/
  | forward (coll : Word) (step : DWord) (lane seg src : Nat) (node : CNode)
  /-- A root looks at what it holds. -/
  | check (coll : Word) (step : DWord) (stage group lane seg : Nat)
  /-- A report of a member reaches this device's coordinator. -/
  | report (coll : Word) (step : DWord) (stage group lane seg src mask : Nat)
  /-- A decision reaches this device's roots. -/
  | decide (coll : Word) (step : DWord) (stage group lane mask : Nat)
  /-- A decision hands this device the segment of a root-table entry, of which it is the backup (R307). -/
  | hand (coll : Word) (step : DWord) (stage k lane mask : Nat)
  /-- A result segment reaches this device. -/
  | result (coll : Word) (step : DWord) (seg : Nat) (data : List Byte) (m l : Nat) (nf incomplete : Bool)
deriving DecidableEq, Repr

/-! ### Nodes at a root -/

/-- Whether this device serves a key's segment as root or has taken it as backup. -/
def State.rootHere (s : State) (c : CollCfg) (step : DWord) (stage group lane seg : Nat) : Bool :=
  s.rootMember c stage group seg == s.member || (s.root? c.coll step stage group lane seg).isSome

/-- The root scratch of core `v`: its offset in that core's memory and its bytes, where the descriptor's reference is good (R310, R312). -/
def State.scratchOf (s : State) (coll : Word) (step : DWord) (v : Nat) : Option (Nat × Nat) :=
  match (s.collRun? coll step).bind (fun r => r.cores.find? (fun x => x.core == v && x.scratch != 0)) with
  | none => none
  | some x =>
    match s.holder v with
    | none => none
    | some p =>
      let c := s.ctxOf v p
      if cmOk c x.scratch (64 * x.scratchG) true 64 && refPos c x.scratch == v then some (refOff x.scratch, 64 * x.scratchG) else none

/-- The core that serves a root's run here: the backup's own once it has taken the segment over (R319). -/
def State.runPos (s : State) (c : CollCfg) (r : RootRun) : Nat :=
  if r.backup then (s.rootEnt c r.stage r.group r.seg).bv else s.rootPos c r.stage r.group r.seg

/-- The nodes that a root holds stand in its scratch, in the order of their arrival, as far as it has room (R312; DESIGN CHOICE, log
entry 142). -/
def State.placeScratch (s : State) (c : CollCfg) (r : RootRun) : State :=
  let v := s.runPos c r
  match s.scratchOf r.coll r.step v, s.holder v with
  | some (off, room), some p =>
    let bs := (r.nodes.flatMap (·.bytes)).take room
    s.setCore p { s.core p with cm := setBytes (s.core p).cm off bs }
  | _, _ => s

/-- Stage at which a node meets its root: nodes of level c and above the second, and those that the first stage has sent on (R313). -/
def State.stageFor (s : State) (c : CollCfg) (step : DWord) (lane seg : Nat) (nd : CNode) : Nat :=
  if c.stageOf nd.level = 2 then 2
  else if s.forwards c && c.two && !s.rootHere c step 1 (c.groupOf 1 nd.shard) lane seg then 2
  else 1

/-- A root keeps taking nodes: until it has reported; a backup until it has its set; in replay until the ledger's set is whole; behind a
decision only those that the set admits (R318, R319, R500). -/
def State.rootTakes (s : State) (c : CollCfg) (r : RootRun) (nd : CNode) : Bool :=
  match r.decided with
  | none => !r.reported || r.backup || s.job.params.replay
  | some d => !r.sent && (r.backup || s.job.params.replay) && subMask (runMask c.n nd.level nd.shard) d

/-- A node meets a root of a stage (R500); one of a replica that is out is unobtainable (R349, R351). A main node of a closed step without
a run, or of a run that has reported, is discarded; so is a late node for a run other than the one of the next step (R344). -/
def State.takeNode (s : State) (c : CollCfg) (step : DWord) (stage lane seg src : Nat) (nd : CNode) : State × List CAct :=
  if c.n ≤ nd.shard then (s, [])
  else
    let group := c.groupOf stage nd.shard
    let known := s.root? c.coll step stage group lane seg
    if known.isNone ∧ step.toNat < s.stroke.step.toNat then (s, [])
    else if !s.rootHere c step stage group lane seg then (s, [])
    else
      let r := s.rootOrNew c.coll step stage group lane seg
      let nd := if r.decided.isNone && s.nodeOut c nd then { nd with unobtainable := true } else nd
      if !s.rootTakes c r nd then (s, [])
      else
        let lap := r.covered c.n &&& runMask c.n nd.level nd.shard
        if lap ≠ 0 then
          if nd.unobtainable ∨ r.nodes.any (fun x => x.unobtainable && x.shard == nd.shard && x.level == nd.level) then (s, [])
          else (s.shardEvent 0x050D sevStep c src (lowBit c.n lap), [])
        else
          let r := { r with nodes := r.nodes ++ [nd] }
          ((s.setRoot r).placeScratch c r, [.check c.coll step stage group lane seg])

/-- A node arrives at this device. -/
def State.onArrive (s : State) (coll : Word) (step : DWord) (lane seg src : Nat) (nd : CNode) : State × List CAct :=
  match s.collCfg coll with
  | none => (s, [])
  | some c => s.takeNode c step (s.stageFor c step lane seg nd) lane seg src nd

/-- A node that a first stage on this device has sent on. -/
def State.onForward (s : State) (coll : Word) (step : DWord) (lane seg src : Nat) (nd : CNode) : State × List CAct :=
  match s.collCfg coll with
  | none => (s, [])
  | some c => s.takeNode c step 2 lane seg src nd

/-! ### Reports and decisions -/

/-- Body of a REPORT. -/
def reportBytes (c : CollCfg) (r : RootRun) : List Byte :=
  pad64 (agreeBytes 1 r.lane r.seg c.n r.step r.stage (bitmapBytes c.n (r.held c.n)))

/-- A root reports to its coordinator, or to the one that has taken over: here, or by AGREE (R312, R317, R319). -/
def State.sendReport (s : State) (c : CollCfg) (r : RootRun) : State × List CAct :=
  let s := s.setRoot { r with reported := true }
  let m := r.coord.getD (s.rootMember c r.stage r.group 0)
  if m = s.member then (s, [.report r.coll r.step r.stage r.group r.lane r.seg s.member (r.held c.n)])
  else (s.sendAgree m r.coll (c.groupTree r.stage r.group) r.step (reportBytes c r), [])

def State.setCoord (s : State) (x : CoordRun) : State :=
  let rest := s.fab.coords.filter (fun y => !y.hasKey x.coll x.step x.stage x.group x.lane)
  { s with fab := { s.fab with coords := rest ++ [x] } }

/-- Body of a DECISION. -/
def decisionBytes (c : CollCfg) (step : DWord) (stage lane mask : Nat) : List Byte :=
  pad64 (agreeBytes 2 lane 0 c.n step stage (bitmapBytes c.n mask))

/-- A decision goes to members; this device takes its own at once. -/
def State.decisionTo (s : State) (c : CollCfg) (x : CoordRun) (mask : Nat) (dests : List Nat) : State × List CAct :=
  let body := decisionBytes c x.step x.stage x.lane mask
  ((dests.filter (· != s.member)).foldl (fun s m => s.sendAgree m x.coll (c.groupTree x.stage x.group) x.step body) s,
    if dests.contains s.member then [.decide x.coll x.step x.stage x.group x.lane mask] else [])

/-- The decision reaches every root of the stage, the backups that have taken a segment, and for stage 1 the roots of stage 2, which
need it for the trailer (DESIGN CHOICE, log entry 31). -/
def State.sendDecision (s : State) (c : CollCfg) (x : CoordRun) (mask : Nat) : State × List CAct :=
  let segs := List.range c.segs
  let taken := segs.filter (fun k => match tget none x.reports k with | some b => b.testBit c.n | none => false)
  s.decisionTo c x mask
    (segs.map (s.rootMember c x.stage x.group) ++ taken.map (fun k => (s.rootEnt c x.stage x.group k).backup) ++
      (if c.two && x.stage == 1 then segs.map (s.rootMember c 2 0) else [])).eraseDups

/-- The coordinator decides: the AND of the reports (R312). The shards that the second stage finds left out by the first are that one's
(R313, R317). -/
def State.decideNow (s : State) (c : CollCfg) (x : CoordRun) : State × List CAct :=
  let all := c.stageMask x.stage x.group
  let mask := (List.range c.segs).foldl (fun m k => m &&& (tget none x.reports k).getD 0) all
  let absent := minusMask (minusMask all mask) (if x.stage = 2 then s.stageOneOut c x.step x.lane else 0)
  let s := s.setCoord { x with decided := some mask }
  let s := if x.lane = 0 ∧ absent ≠ 0 then
      let k := countBits c.n absent
      (s.bump Reg.igsAbsent k).shardEvent 0x0507 sevInfo c (s.shardMember c (lowBit c.n absent)) k
    else s
  s.sendDecision c x mask

/-- A report at a coordinator; one that comes behind the decision is answered with it (R320). -/
def State.onReport (s : State) (coll : Word) (step : DWord) (stage group lane seg src mask : Nat) : State × List CAct :=
  match s.collCfg coll with
  | none => (s, [])
  | some c =>
    let x := s.coord coll step stage group lane
    match x.decided with
    | some d => s.decisionTo c x d [src]
    | none =>
      let x := { x with reports := tput x.reports seg (some mask) }
      let s := s.setCoord x
      if (List.range c.segs).all (fun k => (tget none x.reports k).isSome) then s.decideNow c x else (s, [])

/-- This device takes segment `k` from its root (R319): 0x0508, and the blame record of reason 3 (R398). -/
def State.failover (s : State) (c : CollCfg) (stage group k : Nat) : State :=
  let m := (s.rootEnt c stage group k).member
  ((s.bump Reg.igsFailover 1).shardEvent 0x0508 sevInfo c m k).blameOnce m 3 k

/-- A decision fixes the set of every root of the key on this device, and where the first stage's is new, what the second waits for. -/
def State.onDecide (s : State) (coll : Word) (step : DWord) (stage group lane mask : Nat) : State × List CAct :=
  match s.collCfg coll with
  | none => (s, [])
  | some c =>
    let s := s.setCoord { s.coord coll step stage group lane with decided := some mask }
    let mine := (List.range c.segs).filter (fun k => s.rootHere c step stage group lane k)
    let s := mine.foldl (fun s k =>
      let r := s.rootOrNew coll step stage group lane k
      match r.decided with
      | some _ => s.setRoot r
      | none => s.setRoot { r with decided := some mask, reported := true }) s
    (s, mine.map (fun k => .check coll step stage group lane k) ++
      (if c.two && stage == 1 then (List.range c.segs).map (fun k => .check coll step 2 0 lane k) else []))

/-- A segment handed over with its decided set: the backup takes it without a deadline (R307, R319). -/
def State.onHand (s : State) (coll : Word) (step : DWord) (stage k lane mask : Nat) : State × List CAct :=
  match s.collCfg coll with
  | none => (s, [])
  | some c =>
    let (group, seg) := c.rootOf stage k
    if (s.rootEnt c stage group seg).backup ≠ s.member ∨ c.segs ≤ seg then (s, [])
    else
      let known := s.root? coll step stage group lane seg
      let r := known.getD (s.newRoot coll step stage group lane seg true)
      let s := s.setRoot { r with decided := some (r.decided.getD mask), reported := true }
      let s := if known.isNone && lane == 0 then s.failover c stage group seg else s
      (s, [.check coll step stage group lane seg])

/-! ### Combination and results -/

/-- The shards a node stands for: the node that a first stage has formed, those that its stage decided, in replay by the ledger (R313,
R318); none where that is not known yet. -/
def State.nodeMask (s : State) (c : CollCfg) (step : DWord) (lane : Nat) (nd : CNode) : Option Nat :=
  let run := runMask c.n nd.level nd.shard
  let g := nd.shard / 2 ^ c.rowLog2
  if c.two && nd.level == c.rowLog2 && !s.forwards c && !s.direct c g then
    (if s.job.params.replay then s.replayIncl c.coll step lane else (s.coord c.coll step 1 g lane).decided).map (fun d => run &&& d)
  else some run

/-- The nodes that a decided set admits. -/
def RootRun.admitted (r : RootRun) (n d : Nat) : List CNode :=
  r.nodes.filter (fun x => !x.unobtainable && subMask (runMask n x.level x.shard) d)

/-- Union of the shards of nodes; none where some group's decision is not known. -/
def State.unionMask (s : State) (c : CollCfg) (step : DWord) (lane : Nat) : List CNode → Option Nat
  | [] => some 0
  | nd :: nds =>
    match s.nodeMask c step lane nd, s.unionMask c step lane nds with
    | some a, some b => some (a ||| b)
    | _, _ => none

/-- A root run that has its set and every node of it. -/
def RootRun.ready (r : RootRun) (n : Nat) : Option (List CNode) :=
  match r.decided with
  | none => none
  | some d => if subMask (d &&& r.held n) d && subMask d (r.held n) then some (r.admitted n d) else none

/-- The data that a segment's root forms from its lanes (R313, R343), and the flags that this raises. -/
def State.segmentData (s : State) (c : CollCfg) (seg : Nat) (main late : List CNode) : List Byte × Flg :=
  let z5 := s.rbit Reg.numMode 8
  let n := c.segLen seg
  let at_ := fun j => match main.find? (fun x => x.shard == j) with | some x => x.bytes | none => List.replicate n 0
  if c.kind = 2 then ((List.range c.n).flatMap at_, 0)
  else if c.kind = 3 then (at_ 0, 0)
  else
    let m := reduceNodes z5 c.int (levelsFor c.n) 0 main
    let l := reduceNodes z5 c.int (levelsFor c.n) 0 late
    match combineVals c.int m l with
    | (none, f) => (List.replicate n 0, f)
    | (some ws, f) => (bytesFrom (ws.map (fun w => treeEnd c.int (some w))), f)

/-- Whether a member takes a segment's data, or only its trailer (R313). -/
def State.takesData (s : State) (c : CollCfg) (m seg : Nat) : Bool :=
  if c.kind = 1 then s.rootMember c c.final 0 seg == m
  else if c.kind = 4 then s.rootMember c c.final 0 0 == m
  else true

/-- Sends a segment's result to every member of the collective. -/
def State.broadcast (s : State) (c : CollCfg) (step : DWord) (seg : Nat) (data : List Byte) (m l : Nat) (nf inc : Bool) :
    State × List CAct :=
  let tr := trailersOf c m l nf inc step
  let dests := (s.collMembers c).filter (fun x => x != s.member && (!s.job.assay || s.replicaOf x == s.replica))
  let s := dests.foldl (fun s x =>
    match s.flowTo x c.tc with
    | none => s
    | some f => s.sendMsg f 2 0 (s.rootPos c c.final 0 seg / 32) c.coll (wOf seg) step (!c.int) 0
        ((if s.takesData c x seg then data else []) ++ tr)) s
  (s, if (s.collMembers c).contains s.member then
      [.result c.coll step seg (if s.takesData c s.member seg then data else []) m l nf inc] else [])

/-- Flags that a root raises (log entry 139). -/
def State.rootFlags (s : State) (c : CollCfg) (step : DWord) (stage group seg : Nat) (f : Flg) : State :=
  let v := s.rootPos c stage group seg
  let st := ((s.collRun? c.coll step).bind (fun r => r.cores.find? (fun x => x.core == v))).elim Stream.u (·.st)
  s.raiseFlagsAt v st f

/-- A segment's sum of squares goes to the norm collective as shard NORM_BASE + s (R338). -/
def State.sendNorm (s : State) (c : CollCfg) (step : DWord) (seg : Nat) (data : List Byte) : State × List CAct :=
  if !c.normEn || !s.mayContribute then (s, [])
  else match s.collCfg c.normColl with
  | none => (s, [])
  | some k =>
    let (sq, f) := sumSquares (wordsFrom (data.length / 4) data)
    let s := s.rootFlags c step c.final 0 seg f
    let bs := leBytes 4 sq.toNat ++ List.replicate 60 0
    let nd : CNode := ⟨c.normBase + seg, 0, s.member, nonFinWord sq, bs, false, s.rootPos c c.final 0 seg / 32⟩
    let m := s.rootMember k (k.stageOf 0) (k.groupOf (k.stageOf 0) nd.shard) 0
    if m = s.member then (s, [.arrive k.coll step 0 0 s.member nd])
    else (s.sendNode k m 0 (s.rootPos c c.final 0 seg / 32) false step nd, [])

/-- A replay needs a node that cannot be had: 0x050A, and the replay stops (R318). -/
def State.replayStop (s : State) (c : CollCfg) (shard : Nat) : State :=
  let s := s.shardEvent 0x050A sevStep c (s.shardMember c shard) shard
  { s with stroke := { s.stroke with drainNext := true } }

/-- What a root of the first stage sends on (R313): the group's node, or each of its nodes as it is. -/
def State.stageOneNodes (s : State) (c : CollCfg) (r : RootRun) (main : List CNode) : List CNode × Flg :=
  let base := r.group * 2 ^ c.rowLog2
  let pos := s.runPos c r / 32
  if s.forwards c then (main.map (fun x => { x with field := pos }), 0)
  else match reduceNodes (s.rbit Reg.numMode 8) c.int c.rowLog2 base main with
    | (none, f) => ([], f)
    | (some ws, f) => ([⟨base, c.rowLog2, s.member, main.any (·.nf), bytesFrom ws, false, pos⟩], f)

/-- A root of the first stage sends its part on to the second; one whose replica is broken sends nothing more (R349). -/
def State.sendStageOne (s : State) (c : CollCfg) (r : RootRun) (main : List CNode) : State × List CAct :=
  let s := s.setRoot r
  if !s.mayContribute then (s, [])
  else
    let (nds, f) := s.stageOneNodes c r main
    let s := s.rootFlags c r.step 1 r.group r.seg f
    let m := s.rootMember c 2 0 r.seg
    nds.foldl (fun (acc : State × List CAct) nd =>
      if m = acc.1.member then (acc.1, acc.2 ++ [.forward r.coll r.step r.lane r.seg acc.1.member nd])
      else (acc.1.sendNode c m r.seg nd.field (r.lane == 1) (if r.lane = 1 then r.step - 1 else r.step) nd, acc.2)) (s, [])

/-- A root looks at what it holds: it reports, or finishes its part. -/
def State.onCheck (s : State) (coll : Word) (step : DWord) (stage group lane seg : Nat) : State × List CAct :=
  match s.collCfg coll, s.root? coll step stage group lane seg with
  | some c, some r =>
    if r.sent then (s, [])
    else match r.decided with
    | none =>
      if !r.reported && subMask (s.rootWants c r) (r.covered c.n) then s.sendReport c r else (s, [])
    | some d =>
      let lost := r.nodes.foldl (fun m x =>
        let run := runMask c.n x.level x.shard
        if x.unobtainable || !subMask run d then m ||| run else m) 0
      if s.job.params.replay ∧ lost &&& d ≠ 0 then
        ((s.setRoot { r with sent := true }).replayStop c (lowBit c.n (lost &&& d)), [])
      else match r.ready c.n with
      | none => (s, [])
      | some main =>
        if c.two && stage == 1 then s.sendStageOne c { r with sent := true } main
        else if lane = 1 then (s, [.check coll step stage group 0 seg])
        else
          let late := s.root? coll step stage group 1 seg
          let wantsLate := s.lateMask c step stage group seg ≠ 0 || late.isSome
          let lates := match late with
            | some q => q.ready c.n
            | none => if wantsLate then none else some []
          match lates, s.unionMask c step 0 main, (lates.bind (s.unionMask c step 1)) with
          | some ls, some m, some l =>
            let (data, f) := s.segmentData c seg main ls
            let s := s.rootFlags c step stage group seg f
            let nf := main.any (·.nf) || ls.any (·.nf) || (!c.int && nonFinite (data.length / 4) data)
            let s := s.setRoot { r with sent := true, incl := some m }
            let s := match late with | some q => s.setRoot { q with sent := true } | none => s
            let (s, a) := s.sendNorm c step seg data
            let (s, b) := s.broadcast c step seg data m l nf false
            (s, a ++ b)
          | _, _, _ => (s, [])
  | _, _ => (s, [])

/-! ### The receiving side (R206, R312, R314) -/

def State.collRunOrNew (s : State) (coll : Word) (step : DWord) : CollRun :=
  (s.collRun? coll step).getD ⟨coll, step, s.epoch.cur, [], [], [], [], [], 0, [], [], none, none, false, false, false⟩

def State.setCollRun (s : State) (r : CollRun) : State :=
  let me := fun (x : CollRun) => x.coll == r.coll && x.step == r.step
  let rs := if s.fab.colls.any me then s.fab.colls.map (fun x => if me x then r else x) else s.fab.colls ++ [r]
  { s with fab := { s.fab with colls := rs } }

/-- The items that write a result, its bitmaps and trailers for one core (R313, R314). -/
def resultItems (c : CollCfg) (segs : List (Nat × List Byte)) (off : Nat) (step : DWord) (r : CollRun) : List Item :=
  let put := fun (p : Nat × List Byte) =>
    if c.kind = 2 then
      (List.range c.n).flatMap (fun j =>
        itemsOf (off + 64 * c.lenG * j + c.segOff p.1) ((p.2.drop (j * c.segLen p.1)).take (c.segLen p.1)))
    else itemsOf (off + c.segOff p.1) p.2
  let end_ := off + 64 * c.lenG * (if c.kind = 2 then c.n else 1)
  let m := r.incl.getD 0
  let l := r.lateIncl.getD 0
  segs.flatMap put ++ itemsOf end_ (mainTrailer c m l r.nf r.incomplete step ++
    (if l = 0 then [] else lateTrailer c l r.nf r.incomplete (step - 1)))

/-- Segments that core `v` of this device takes. -/
def State.coreSegs (s : State) (c : CollCfg) (v : Nat) (r : CollRun) : List (Nat × List Byte) :=
  r.segs.filter (fun p => if c.kind = 1 then s.rootPos c c.final 0 p.1 == v else true)

/-- The bitmaps of a run with more than 256 shards, as they stand at BITMAP (R314). -/
def bitmapImage (c : CollCfg) (r : CollRun) : List Byte :=
  let l := r.lateIncl.getD 0
  let one := (c.n + 7) / 8
  if 256 < c.n then
    bitmapBytes c.n (r.incl.getD 0) ++ (if l = 0 then [] else List.replicate ((64 - one % 64) % 64) 0 ++ bitmapBytes c.n l)
  else []

/-- Sends the result and the trailers of a finished run to the memory its core's descriptor names. -/
def State.deliverResult (s : State) (c : CollCfg) (r : CollRun) (k : Nat) (x : CollCore) : State :=
  match s.holder x.core with
  | none => s
  | some p =>
    let ctx := s.ctxOf x.core p
    let l := r.lateIncl.getD 0
    let len := 64 * c.lenG * (if c.kind = 2 then c.n else 1) + 64 + (if l = 0 then 0 else 64)
    let ok := cmOk ctx x.result len false 64
    let s := if ok then s else s.addrEvent x.core x.st 0x82 (x.result.toNat % 2 ^ 32)
    let d := if ok then refPos ctx x.result else x.core
    let items := (if ok then resultItems c (s.coreSegs c x.core r) (refOff x.result) r.step r else []) ++
      (match x.ctr with | none => [] | some n => [Item.done x.core n]) ++ [Item.written r.coll r.step k]
    s.flight x.core d (ctx.travel.getD d 0) x.st 0x82 items

/-- Serves one core of a finished run: the bitmaps first, and what follows them once they are in place (R314). -/
def State.deliverColl (s : State) (c : CollCfg) (r : CollRun) (k : Nat) (x : CollCore) : State :=
  match s.holder x.core with
  | none => s
  | some p =>
    let ctx := s.ctxOf x.core p
    let bms := bitmapImage c r
    if bms.isEmpty then s.deliverResult c r k x
    else if cmOk ctx x.bitmap bms.length false 64 then
      let d := refPos ctx x.bitmap
      s.flight x.core d (ctx.travel.getD d 0) x.st 0x82 (itemsOf (refOff x.bitmap) bms ++ [Item.mapped r.coll r.step k])
    else (s.addrEvent x.core x.st 0x82 (x.bitmap.toNat % 2 ^ 32)).deliverResult c r k x

/-- Every core of a finished run that has not been served. -/
def State.deliverAll (s : State) (c : CollCfg) (r : CollRun) : State :=
  let s := r.cores.zipIdx.foldl (fun s (x, k) => if x.sent then s else s.deliverColl c r k x) s
  s.setCollRun { r with cores := r.cores.map (fun x => { x with sent := true }) }

/-- `clip_coef` of R339. Of a negative sum the coefficient is a free value: `rsqrt_core` takes only x > 0 (R172; log
entry 52). -/
def clipCoef (sq thresh ls : Word) : Word :=
  let t := decodeFloat .fp32 thresh
  if t.cls != .fin || t.neg || t.mag.m == 0 then 0x3F800000
  else
    let v := decodeFloat .fp32 sq
    if v.cls != .fin then 0x7FC00000
    else if v.mag.m = 0 then 0x3F800000
    else if v.neg then Config.clipNegative sq thresh ls
    else
      let c := (mulFp32 (mulFp32 thresh ls).1 (rsqrtCore sq)).1
      let w := decodeFloat .fp32 c
      if w.cls == .fin && w.mag.lt (Dy.ofNat 1) then c else 0x3F800000

/-- The norm record (R339). -/
def State.normRecord (s : State) (c : CollCfg) (r : CollRun) : List Byte × Bool × Word :=
  let sq := wOf (leNat (((r.segs.headD (0, [])).2).take 4))
  let m := r.incl.getD 0
  let nf := nonFinWord sq
  let inc := r.incomplete || decide (countBits c.n m < c.n)
  (leBytes 4 sq.toNat ++ leBytes 4 (s.rget Reg.stkClip).toNat ++ leBytes 4 s.lossScale.toNat ++
    leBytes 4 (clipCoef sq (s.rget Reg.stkClip) s.lossScale).toNat ++ leBytes 4 (countBits c.n m) ++
    [BitVec.ofNat 8 (b1 nf 0 + b1 inc 1), 0, 0, 0] ++ leBytes 8 r.step.toNat ++ List.replicate 32 0, nf, sq)

/-- Writes the norm record of a finished norm collective, and its counter; the step waits for it as for a result (R206, R339, R501). A
reference that fails `cm_ok` raises 0x0910, and the counter rises all the same. -/
def State.writeNorm (s : State) (c : CollCfg) (r : CollRun) : State :=
  let (bs, nf, sq) := s.normRecord c r
  let d := refVy c.sinkRef * 8 + refVx c.sinkRef
  let part : CollCore := ⟨d, .u, c.sinkRef, 0, 0, 0, none, true, false⟩
  let s := s.setCollRun { r with cores := r.cores ++ [part] }
  let s := match s.holder d with
    | none => s.setCollRun { r with cores := r.cores ++ [{ part with placed := true }] }
    | some p =>
      let ok := cmOk (s.ctxOf d p) c.sinkRef 64 false 64
      let s := if ok then s else s.addrEvent d .u 0x82 (c.sinkRef.toNat % 2 ^ 32)
      s.flight d d 1 .u 0x82 ((if ok then itemsOf (refOff c.sinkRef) bs else []) ++
        [Item.counter c.sinkCtr 1, Item.written r.coll r.step r.cores.length])
  let s := if nf then { s with stp := { s.stp with normNf := true } } else s
  if c.coll = s.rget Reg.stkNormColl then { s with stp := { s.stp with sumsq := some sq } } else s

/-- Own shards of a run's main nodes, and of its late ones. -/
def nodesMask (n : Nat) (ns : List CNode) : Nat := ns.foldl (fun m x => m ||| runMask n x.level x.shard) 0

def bitsOfMask (n m : Nat) : List Nat := (List.range n).filter (fun j => m.testBit j)

/-- What becomes of own contributions when the trailer is known (R315, R344). Those kept for the late lane are ledgered when the step's
outcome is (R501). -/
def State.settleOwn (s : State) (c : CollCfg) (r : CollRun) : State × CollRun :=
  let m := r.incl.getD 0
  let l := r.lateIncl.getD 0
  let out := minusMask (nodesMask c.n r.nodes) m
  let lateOut := minusMask (nodesMask c.n r.late) l
  let s := (bitsOfMask c.n lateOut).foldl (fun s j => s.addEntry (lateEntry r.coll j 2 r.lateStep)) s
  if c.sprue then
    (s, { r with nodes := r.nodes.filter (fun x => !subMask (runMask c.n x.level x.shard) m), late := [] })
  else
    let s := (bitsOfMask c.n out).foldl (fun s j => s.addEntry (lateEntry r.coll j 1 r.step)) s
    (s, { r with nodes := [], late := [] })

/-- The device's result of a run as it stands in memory, for its CRC and its trace copy: of an ALLGATHER each contribution at its shard's
place (R31, R313). -/
def resultBytes (c : CollCfg) (r : CollRun) : List Byte :=
  if c.kind = 2 then
    (List.range c.n).flatMap (fun j => r.segs.flatMap (fun p => (p.2.drop (j * c.segLen p.1)).take (c.segLen p.1)))
  else r.segs.flatMap (·.2)

/-- Every segment and the trailers are here (R206, R314, R333, R345, R349). -/
def State.finishColl (s : State) (c : CollCfg) (r : CollRun) : State :=
  let m := r.incl.getD 0
  let l := r.lateIncl.getD 0
  let r := { r with done := true }
  let s := (inclEntries r.coll c.n 0 m ++ (if l = 0 then [] else inclEntries r.coll c.n 1 l)).foldl State.addEntry s
  let s := if 1 ≤ s.job.params.trace then
      s.addEntry ⟨8, 0, leBytes 4 r.coll.toNat ++ leBytes 4 (crc32c (resultBytes c r)).toNat⟩ else s
  let s := if s.job.params.trace = 2 ∧ s.job.traceCopy then
      { s with job := { s.job with traceOut := s.job.traceOut ++ [(r.coll, r.step, resultBytes c r)] } } else s
  let s := if r.nf ∧ !c.normSink then { s with stp := { s.stp with nfTrailers := s.stp.nfTrailers + 1 } } else s
  let (s, r) := s.settleOwn c r
  let s := if c.tc = 1 ∧ countBits c.n m < c.n then s.breakReplica r.coll else s
  if c.normSink then (s.setCollRun r).writeNorm c r else s.deliverAll c r

/-- A result segment arrives (R312). -/
def State.onResult (s : State) (coll : Word) (step : DWord) (seg : Nat) (data : List Byte) (m l : Nat) (nf inc : Bool) : State :=
  match s.collCfg coll with
  | none => s
  | some c =>
    let r := s.collRunOrNew coll step
    if r.done || r.trailers.contains seg then s
    else
      let r := { r with
        segs := if data.isEmpty then r.segs else tput r.segs seg data
        trailers := r.trailers ++ [seg], incl := some (r.incl.getD m), lateIncl := some (r.lateIncl.getD l)
        nf := r.nf || nf, incomplete := r.incomplete || inc }
      if (List.range c.segs).all (fun k => r.trailers.contains k) then s.finishColl c r else s.setCollRun r

/-! ### Carrying happenings out -/

/-- Every root looks again. -/
def State.allChecks (s : State) : List CAct := s.fab.roots.map (fun r => .check r.coll r.step r.stage r.group r.lane r.seg)

/-- One happening, and those it sets off; where the replica breaks, roots that waited for it look again (R349). -/
def State.collAct (s : State) : CAct → State × List CAct
  | .arrive coll step lane seg src nd => s.onArrive coll step lane seg src nd
  | .forward coll step lane seg src nd => s.onForward coll step lane seg src nd
  | .check coll step stage group lane seg => s.onCheck coll step stage group lane seg
  | .report coll step stage group lane seg src mask => s.onReport coll step stage group lane seg src mask
  | .decide coll step stage group lane mask => s.onDecide coll step stage group lane mask
  | .hand coll step stage k lane mask => s.onHand coll step stage k lane mask
  | .result coll step seg data m l nf inc =>
    let t := s.onResult coll step seg data m l nf inc
    (t, if t.stp.broken = s.stp.broken then [] else t.allChecks)

/-- Carries happenings out in order; `fuel` bounds how many, well above what any set-off needs. -/
def State.collRunAll : Nat → List CAct → State → State
  | 0, _, s => s
  | _ + 1, [], s => s
  | n + 1, a :: as, s =>
    let (s, more) := s.collAct a
    State.collRunAll n (as ++ more) s

def collFuel : Nat := 2 ^ 24
def State.collGo (s : State) (as : List CAct) : State := State.collRunAll collFuel as s

/-- Every undecided root looks again. -/
def State.recheck (s : State) : State := s.collGo s.allChecks

end Sys2Proof.Machine
end

