-- ==== Sys2Proof/Machine/MemOps.lean ====
section
/-!
DEFINITION. HBM3E and the bulk tier (R258 to R291, R329 to R331): where an address lies, the check codes, reads and writes of
codewords with their events, tickets and deliveries, and what replaces a lost channel.
-/

namespace Sys2Proof.Machine

open Sys2Proof

/-- The job executes on this device: streams issue and calendars run (R428, R385); not on a member that waits for its restore or that a
failed restore left out (R352). -/
def State.live (s : State) : Bool :=
  s.job.present && (s.mgmt.dev == .run || (s.mgmt.dev == .quarantine && s.job.assay)) &&
  (!s.job.assay || decide (s.stroke.jobStroke.toNat < s.job.assayLimit)) && !s.job.params.restore && !s.epoch.leftOut

/-! ### Addresses (R261 to R263, R329 to R331) -/

/-- `hbm_locate` of R262: channel, offset in it. -/
def locate (n a : Nat) : Nat × Nat :=
  let g := a / 256
  let j := g / n
  ((g % n + 97 * j) % n, j * 256 + a % 256)

/-- Stripes and bytes of a pseudo-channel, and the offsets of one channel's bytes in the memories of `MemSt`. -/
def pcStripes : Nat := 9765625
def pcBytes : Nat := 2500000000
def hbmKey (l off : Nat) : Nat := 2500000000 * l + off
def blkKey (l off : Nat) : Nat := 2 ^ 37 * l + off

/-- Narrow banks (R264) and general stripes per channel (R263). -/
def State.narrowBanks (s : State) : Nat := match s.rfield Reg.hbmCfg 0 2 with | 0 => 0 | 1 => 4 | 2 => 8 | _ => 16
def generalStripes (nb : Nat) : Nat := pcStripes - pcStripes * nb / 64

/-- `pc_place` of R263: bank, column group, row. -/
def pcPlace (j nb jg : Nat) : Nat × Nat × Nat :=
  if j < jg then
    let m := 64 - nb
    (j % m, j / m % 4, j / (4 * m))
  else
    let jn := j - jg
    (64 - nb + jn % nb, jn / nb % 4, jn / (4 * nb))

/-- Bulk channels in service, ascending, and the capacity of one in bytes (R287, R288). -/
def State.bulkChans (s : State) : List Nat := (List.range 12).filter (fun k => s.rbit Reg.blkStat k)
def State.bulkCap (s : State) : Nat := s.rfield Reg.blkCfg 4 3 * 32000000000

/-- A state region (R329, R353): tier, base, length and offset in stripes, the committed copy. -/
structure StateRgn where
  idx : Nat
  bulk : Bool
  base : Nat
  len : Nat
  ofs : Nat
  sel : Bool
deriving DecidableEq, Repr

def State.stateRgn (s : State) (i : Nat) : Option StateRgn :=
  let c := s.rget (Reg.stkSregCtl i)
  if c.getLsbD 0 then
    some ⟨i, c.getLsbD 1, (s.rget (Reg.stkSregBase i)).toNat, (s.rget (Reg.stkSregLen i)).toNat,
      (s.rget (Reg.stkSregOfs i)).toNat, c.getLsbD 2⟩
  else none

def State.stateRgns (s : State) : List StateRgn := (List.range 32).filterMap s.stateRgn

/-- The region whose copy 0 holds an address. -/
def State.rgnOf (s : State) (bulk : Bool) (a : Nat) : Option StateRgn :=
  s.stateRgns.find? (fun r => r.bulk == bulk && decide (r.base ≤ a / 256 ∧ a / 256 < r.base + r.len))

/-- R330: an address in copy 0 goes to the committed copy for a read, to the pending copy for a write. -/
def State.xlate (s : State) (bulk write : Bool) (a : Nat) : Nat :=
  match s.rgnOf bulk a with
  | none => a
  | some r => if r.sel != write then a + 256 * r.ofs else a

/-- Notes that the step has written a state region (R332). -/
def State.noteWrote (s : State) (bulk : Bool) (a : Nat) : State :=
  match s.rgnOf bulk a with
  | none => s
  | some r => if s.stp.wrote.contains r.idx then s else { s with stp := { s.stp with wrote := s.stp.wrote ++ [r.idx] } }

/-! ### Region classes and codes (R274, R275) -/

/-- Class and entry of an HBM address: Correct or not, and its entry if it lies in one. -/
def State.classOf (s : State) (a : Nat) : Bool × Option Nat :=
  let m := a / 2 ^ 20
  match (List.range 64).find? (fun i =>
      let c := s.rget (Reg.hbmRgnCtl i)
      let b := s.rfield (Reg.hbmRgnBase i) 0 20
      (fieldNat c 20 2 == 1 || fieldNat c 20 2 == 2) && decide (b ≤ m ∧ m < b + fieldNat c 0 20)) with
  | none => (false, none)
  | some i => (s.rfield (Reg.hbmRgnCtl i) 20 2 == 1, some i)

/-- Multiplication in GF(2^8) with x^8 + x^4 + x^3 + x^2 + 1. -/
def gfMul : Nat → Nat → Nat → Nat
  | 0, _, _ => 0
  | n + 1, a, b =>
    let a2 := if 128 ≤ a then (2 * a) ^^^ 0x11D else 2 * a
    (if b % 2 = 1 then a else 0) ^^^ gfMul n a2 (b / 2)
def gfPow (a : Nat) : Nat → Nat
  | 0 => 1
  | n + 1 => gfMul 8 a (gfPow a n)

/-- Degree at which a stored place of a codeword stands: data bytes first, then the five address bytes, then the check bytes
(DEDUCED, log entry 33). -/
def rsDegree (place : Nat) : Nat := if place < 64 then 76 - place else 71 - place

/-- Syndrome i of the bytes that came back wrong: the stored codeword itself has none. -/
def rsSyndrome (err : List (Nat × Byte)) (i : Nat) : Nat :=
  err.foldl (fun x e => x ^^^ gfMul 8 e.2.toNat (gfPow (gfPow 2 i) (rsDegree e.1))) 0
def rsSyndromes (err : List (Nat × Byte)) : List Nat := (List.range 8).map (rsSyndrome err)

/-- The symbol and value that the syndromes name, if they are those of one wrong symbol (R275). -/
def rsLocate (syn : List Nat) : Option (Nat × Nat) :=
  let s0 := syn.getD 0 0
  if s0 = 0 then none
  else ((List.range 77).find? (fun d =>
    (List.range 8).all (fun i => syn.getD i 0 == gfMul 8 s0 (gfPow (gfPow 2 i) d)))).map (fun d => (d, s0))

/-- The check bytes of a Correct-class codeword: the remainder of the data and address symbols, highest degree first. -/
def rsGenerator : List Nat :=
  (List.range 8).foldl (fun g i =>
    let r := gfPow 2 i
    List.zipWith (fun a b => a ^^^ b) (g ++ [0]) (0 :: g.map (fun c => gfMul 8 c r))) [1]
def rsStep (rem : List Nat) (sym : Nat) : List Nat :=
  let f := sym ^^^ rem.headD 0
  List.zipWith (fun r g => r ^^^ gfMul 8 f g) (rem.drop 1 ++ [0]) (rsGenerator.drop 1)
def rsCheck (data : List Byte) (cw : Nat) : List Byte :=
  ((data ++ leBytes 5 cw).foldl (fun rem b => rsStep rem b.toNat) (List.replicate 8 0)).map (BitVec.ofNat 8)

/-- CRC-32 of R275 over the data and the codeword's address. -/
def crc32 (bs : List Byte) : Word := ~~~(bs.foldl (crcByte 0xEDB88320) 0xFFFFFFFF)
def crcCheck (data : List Byte) (cw : Nat) : List Byte := leBytes 4 (crc32 (data ++ leBytes 5 cw)).toNat ++ [0, 0, 0, 0]

/-- The side-band bytes stored with a codeword. -/
def sideBand (correct : Bool) (data : List Byte) (cw : Nat) : List Byte :=
  if correct then rsCheck data cw else crcCheck data cw

/-- What a read makes of a codeword: good, corrected, failing with a syndrome, failing with check bytes that fail (of a channel that was
lost, or for a merged write), of a channel without backing, of a stack out of service, or beyond the capacity. -/
inductive ReadOut
  | clean
  | corrected
  | failed (syndrome : Word)
  | bad (lost : Bool)
  | unbacked
  | outOfService
  | beyond
deriving DecidableEq, Repr

/-- The data cannot be relied on. -/
def ReadOut.fails : ReadOut → Bool
  | .clean | .corrected | .beyond => false
  | _ => true

/-- Bytes with some of them changed. -/
def flipBytes (bs : List Byte) (err : List (Nat × Byte)) : List Byte :=
  bs.zipIdx.map (fun p => err.foldl (fun b e => if e.1 = p.2 then b ^^^ e.2 else b) p.1)

/-- Decoding of a read codeword (R275, R276): its data, the side-band bytes stored with it, its address and class now, and how it comes back.
Answers the data delivered and the outcome. -/
def decodeRead (correct : Bool) (data side : List Byte) (cw : Nat) (err : List (Nat × Byte)) : List Byte × ReadOut :=
  let got := flipBytes data err
  if correct then
    let gaps := ((List.zip side (rsCheck data cw)).zipIdx.map (fun e => (64 + e.2, e.1.1 ^^^ e.1.2))).filter (fun e => e.2 != 0)
    let syn := rsSyndromes (err ++ gaps)
    let bad := (got, ReadOut.failed (wOf (leNat ((syn.take 4).map (BitVec.ofNat 8)))))
    if syn.all (· == 0) then (got, .clean)
    else match rsLocate syn with
      | some (d, e) =>
        if 13 ≤ d then (flipBytes got [(76 - d, BitVec.ofNat 8 e)], .corrected) else if d < 8 then (got, .corrected) else bad
      | none => bad
  else
    let stored := flipBytes side (err.filterMap (fun e => if 64 ≤ e.1 then some (e.1 - 64, e.2) else none))
    let res := crc32 (got ++ leBytes 5 cw) ^^^ wOf (leNat (stored.take 4))
    (got, if res = 0 then .clean else .failed res)

/-- The outcome of reading data whose mark is `m`, at address `a` (R275). A codeword written where and as it is read, or never written, and
that comes back as stored, passes both checks. -/
def readMarked (m : CwMark) (correct : Bool) (data : List Byte) (a : Nat) (err : List (Nat × Byte)) : List Byte × ReadOut :=
  let cw := a / 64
  match m with
  | .bad _ => (flipBytes data err, .bad false)
  | .asIs => if err.isEmpty then (data, .clean) else decodeRead correct data (sideBand correct data cw) cw err
  | .code w c =>
    if err.isEmpty ∧ w = cw ∧ c = correct then (data, .clean) else decodeRead correct data (sideBand c data w) cw err

/-- The mark after bytes `o` to `o + n - 1` of a codeword have been written: whole, or merged into what it holds. Bytes merged into a
codeword that fails leave it failing until each has been rewritten (DESIGN CHOICE, log entry 147). -/
def CwMark.wrote (m : CwMark) (failing correct : Bool) (cw o n : Nat) : CwMark :=
  let now := CwMark.code cw correct
  let some_ := fun (fresh : Nat) =>
    let f := fresh ||| (2 ^ n - 1) * 2 ^ o
    if f = 2 ^ 64 - 1 then now else .bad f
  if n = 64 then now
  else match m with
    | .bad f => some_ f
    | .asIs => if failing then some_ 0 else now
    | .code w c => if w = cw ∧ c = correct then now else some_ 0

/-! ### Codewords of a channel -/

def State.setPc (s : State) (p : Nat) (x : PcSt) : State := { s with mem := { s.mem with pcs := tset pc0 s.mem.pcs p x } }
def State.setChan (s : State) (l : Nat) (x : Chan) : State := { s with mem := { s.mem with chans := tset chan0 s.mem.chans l x } }
def State.setStk (s : State) (k : Nat) (x : StackSt) : State := { s with mem := { s.mem with stks := tset stk0 s.mem.stks k x } }

/-- Eight bytes of a free value. -/
def freeBytes (n : Nat) : List Byte := leBytes 8 (Config.freeValue n).toNat

/-- The data that codeword k of a channel holds: what was written, or, where its contents were lost, free values. -/
def State.cwData (s : State) (l k : Nat) : List Byte :=
  let c := s.chan l
  match c.lost, tget CwMark.asIs c.mark k with
  | some b, .asIs => (List.range 8).flatMap (fun i => freeBytes (b + 8 * k + i))
  | _, _ => bytesAt s.mem.hbm (hbmKey l (64 * k)) 64

/-- Writes bytes into codeword k of a channel, which address `a` names: whole codewords with good check bytes, or with bytes that fail again
(R279). A channel without backing, or whose stack is out of service, drops the write (R283, R286), and so does an address beyond the
capacity (DESIGN CHOICE, log entry 148). -/
def State.cwWrite (s : State) (l off a : Nat) (bs : List Byte) (bad : Bool) : State :=
  let c := s.chan l
  let k := off / 64
  if !c.backed || (s.stk (c.phys / 32)).out || decide (pcBytes ≤ off) then s
  else
    let old := s.cwData l k
    let new := old.take (off % 64) ++ bs ++ old.drop (off % 64 + bs.length)
    let m := if bad then .bad 0 else (tget CwMark.asIs c.mark k).wrote c.lost.isSome (s.classOf a).1 (a / 64) (off % 64) bs.length
    let s := s.setChan l { c with mark := tset CwMark.asIs c.mark k m }
    { s with mem := { s.mem with hbm := setBytes s.mem.hbm (hbmKey l (64 * k)) new } }

/-- Who reads a codeword, for HBM_CAP2: position and ticket, or 0x7F. -/
structure Reader where
  v : Nat
  ticket : Nat
deriving DecidableEq, Repr
def noReader : Reader := ⟨0x7F, 0⟩

/-- The words of HBM_CAP0 to HBM_CAP4 for a read at address `a` (R276). -/
def State.readCaps (s : State) (kind p l a : Nat) (who : Reader) (syn : Word) : List (Nat × Nat) :=
  let cap0 := p + 2 ^ 9 * l + 2 ^ 18 * ((s.classOf a).2.getD 63) + 2 ^ 24 * kind + 2 ^ 31
  let cw := a / 64
  [(0x28, cap0), (0x2C, cw % 2 ^ 32), (0x30, cw / 2 ^ 32 % 4 + 2 ^ 8 * who.v + 2 ^ 16 * who.ticket), (0x34, jobLo s), (0x38, syn.toNat)]

/-- 0x0402 or 0x0403 of a read, at most once in a stroke, and UE_CNT (R276). -/
def State.memFail (s : State) (correct : Bool) (kind p l a : Nat) (who : Reader) (syn : Word) : State :=
  let caps := s.readCaps kind p l a who syn
  let c := s.pc p
  let s := s.setPc p { c with ueCnt := BitVec.ofNat 8 (min 255 (c.ueCnt.toNat + 1)) }
  s.raiseOnce { ev (if correct then 0x0402 else 0x0403) (pgHbm 0) (s.objM (p * 1024 + (s.classOf a).2.getD 0)) 0
    ((caps.headD (0, 0)).2) with caps := caps } 0

/-- 0x0405 of a read of a stack that is out of service (R286). -/
def State.stackFail (s : State) (p l a : Nat) : State :=
  s.raiseM 0x0405 (pgHbm 0) (p * 1024) 0 (((s.readCaps 3 p l a noReader 0).headD (0, 0)).2)

/-- The detail of a channel's events, for which no capture exists: a word in the layout of HBM_CAP0 (R291; DESIGN CHOICE, log
entry 149). -/
def chanWord (p l kind : Nat) : Nat := p + 2 ^ 9 * l + 2 ^ 18 * 63 + 2 ^ 24 * kind + 2 ^ 31

/-- The reserve a channel goes to (R281): its own field's if free, else the lowest free. -/
def State.pickReserve (s : State) (p : Nat) : Option Nat :=
  let own := reserves.getD (p / 96) 0
  if s.reserveFree own then some own else reserves.find? s.reserveFree

def State.chanOf (s : State) (p : Nat) : Option Nat :=
  (List.range s.mem.nLc).find? (fun l => (s.chan l).backed && (s.chan l).phys == p)

/-- A corrected error counts; at the threshold 0x0401 is raised, and the channel starts to migrate where a reserve is free and it does not
migrate already (R276, R281). -/
def State.countCe (s : State) (p : Nat) : State :=
  let c := s.pc p
  let n := min 65535 (c.ceCnt.toNat + 1)
  let s := s.setPc p { c with ceCnt := BitVec.ofNat 16 n }
  let th := s.rfield Reg.hbmCeThresh 0 16
  match s.chanOf p with
  | none => s
  | some l =>
    let x := s.chan l
    if th ≠ 0 ∧ n = th ∧ c.ceCnt.toNat < th then
      let s := match x.migrating, s.pickReserve p with
        | none, some r => s.setChan l { x with migrating := some r, copied := 0, migrated := false }
        | _, _ => s
      s.raiseM 0x0401 (pgHbm 0) (p * 1024) 0 (chanWord p l 0)
    else s

/-- What a read of the codeword at HBM address `a`, in channel `l` at offset `off`, delivers, and how it stands (R276, R282, R283, R286).
Beyond the capacity it delivers a free value (log entry 148). -/
def State.cwLook (s : State) (l off a : Nat) (err : List (Nat × Byte)) : List Byte × ReadOut :=
  let c := s.chan l
  let zero := List.replicate 64 (0 : Byte)
  if pcBytes ≤ off then ((List.range 8).flatMap (fun i => freeBytes (s.free + i)), .beyond)
  else if !c.backed then (zero, .unbacked)
  else if (s.stk (c.phys / 32)).out then (zero, .outOfService)
  else
    let data := s.cwData l (off / 64)
    let m := tget CwMark.asIs c.mark (off / 64)
    if (s.pc c.phys).lost || (c.lost.isSome && m == .asIs) then (flipBytes data err, .bad true)
    else readMarked m (s.classOf a).1 data a err

/-- Reads a codeword: its data, how it stands, and the state with the events of the read. -/
def State.cwRead (s : State) (l off a : Nat) (err : List (Nat × Byte)) (who : Reader) : List Byte × ReadOut × State :=
  let p := (s.chan l).phys
  let correct := (s.classOf a).1
  let kind := if correct then 1 else 2
  let (data, out) := s.cwLook l off a err
  (data, out, match out with
    | .clean => s
    | .corrected => s.countCe p
    | .failed syn => s.memFail correct kind p l a who syn
    | .bad lost =>
      let (f, s) := s.draw
      s.memFail correct (if lost then 3 else kind) p l a who (f.truncate 32)
    | .unbacked => s.memFail correct 3 p l a who 0
    | .outOfService => s.stackFail p l a
    | .beyond => { s with free := s.free + 8 })

/-- What a read of the bulk codeword at address `a`, in channel `k` at offset `off`, delivers (R275, R288). -/
def State.blkLook (s : State) (k off a : Nat) (err : List (Nat × Byte)) : List Byte × ReadOut :=
  if s.bulkCap ≤ off then ((List.range 8).flatMap (fun i => freeBytes (s.free + i)), .beyond)
  else readMarked (tget CwMark.asIs s.mem.blkMarks (blkKey k off / 64)) true (bytesAt s.mem.bulk (blkKey k (off / 64 * 64)) 64) a err

/-- Writes bytes into the bulk codeword that address `a` names; beyond the capacity they are dropped (log entry 148). -/
def State.blkWrite (s : State) (k off a : Nat) (bs : List Byte) : State :=
  if s.bulkCap ≤ off then s
  else
    let i := blkKey k off / 64
    let m := (tget CwMark.asIs s.mem.blkMarks i).wrote false true (a / 64) (off % 64) bs.length
    { s with mem := { s.mem with bulk := setBytes s.mem.bulk (blkKey k off) bs, blkMarks := tset CwMark.asIs s.mem.blkMarks i m } }

/-- Counts and events of reads of a bulk channel's codewords at address `a` (R288, R291). -/
def State.blkNote (s : State) (k a : Nat) (outs : List ReadOut) : State :=
  let ce := (outs.filter (· == .corrected)).length
  let ue := (outs.filter (·.fails)).length
  let w := Reg.blkChStat k
  let s := s.rsetField w 0 16 (min 65535 (s.rfield w 0 16 + ce))
  let s := s.rsetField w 16 8 (min 255 (s.rfield w 16 8 + ue))
  let s := if outs.contains .beyond then { s with free := s.free + 8 } else s
  let cap0 := k + 16 + 2 ^ 31
  if ue = 0 then s
  else s.raise { ev 0x040A pgBlk (s.objM (k * 1024)) 0 cap0 with
    caps := [(0x28, cap0), (0x2C, a / 256 % 2 ^ 32), (0x30, jobLo s)] }

/-- Reads the 256-byte stripe at bulk address `a` (R288): channel k of the package, offset in it. -/
def State.stripeRead (s : State) (k off a : Nat) (err : List (Nat × Byte)) : List Byte × State :=
  let outs := (List.range 4).map (fun w => s.blkLook k (off + 64 * w) (a + 64 * w)
    (err.filterMap (fun e => if 72 * w ≤ e.1 ∧ e.1 < 72 * w + 72 then some (e.1 - 72 * w, e.2) else none)))
  (outs.flatMap (·.1), s.blkNote k a (outs.map (·.2)))

/-! ### Plain access, for loads, staging and epoch images -/

/-- Where an address of a tier lies: the channel and the offset in it. -/
def State.place (s : State) (bulk : Bool) (a : Nat) : Nat × Nat :=
  if bulk then
    let cs := s.bulkChans
    let (l, off) := locate (max 1 cs.length) a
    (cs.getD l 0, off)
  else locate (max 1 s.mem.nLc) a

/-- What a read of the codeword at address `a` delivers, where it comes back as it is stored. -/
def State.lookAt (s : State) (bulk : Bool) (a : Nat) : List Byte × ReadOut :=
  let (l, off) := s.place bulk a
  if bulk then s.blkLook l off a [] else s.cwLook l off a []

/-- The codewords that `n` bytes from address `a` lie in. -/
def cwSpan (a n : Nat) : List Nat := if n = 0 then [] else (List.range ((a % 64 + n + 63) / 64)).map (fun i => 64 * (a / 64 + i))

/-- The bytes at an address of a tier, as a read delivers them. -/
def State.peekMem (s : State) (bulk : Bool) (a n : Nat) : List Byte :=
  (((cwSpan a n).flatMap (fun x => (s.lookAt bulk x).1)).drop (a % 64)).take n

/-- The counts and events of such a read (R276, R282, R283, R286, R291). -/
def State.peekNote (s : State) (bulk : Bool) (a n : Nat) : State :=
  (cwSpan a n).foldl (fun s x =>
    let (l, off) := s.place bulk x
    if bulk then s.blkNote l x [(s.blkLook l off x []).2] else (s.cwRead l off x [] noReader).2.2) s

/-- Writes bytes that begin at `a` and stay within one codeword. -/
def State.pokeCw (s : State) (bulk : Bool) (a : Nat) (bs : List Byte) : State :=
  let (l, off) := s.place bulk a
  if bulk then (if s.bulkChans.isEmpty then s else s.blkWrite l off a bs) else s.cwWrite l off a bs false

def State.pokeMem (s : State) (bulk : Bool) (a : Nat) : Nat → List Byte → State
  | 0, _ => s
  | n + 1, bs =>
    if bs.isEmpty then s
    else
      let room := 64 - a % 64
      (s.pokeCw bulk a (bs.take room)).pokeMem bulk (a + min room bs.length) n (bs.drop room)

/-- Writes bytes at an HBM or bulk address. -/
def State.poke (s : State) (bulk : Bool) (a : Nat) (bs : List Byte) : State := s.pokeMem bulk a (bs.length / 64 + 2) bs

/-- Capacity of a tier in bytes. -/
def State.capOf (s : State) (bulk : Bool) : Nat :=
  if bulk then s.bulkChans.length * s.bulkCap else s.mem.nLc * pcBytes

/-! ### Tickets (R202, R267, R268) -/

/-- Codewords, or stripes, of a run that lie on channel `l` of `n`: their places in the run, ascending. -/
def runOn (n l unit addr : Nat) : Nat → Nat → List Nat
  | 0, _ => []
  | m + 1, i => if (locate n (addr + unit * i)).1 = l then i :: runOn n l unit addr m (i + 1) else runOn n l unit addr m (i + 1)

def movedKey (v t ch : Nat) : Nat := 512 * (1024 * v + t) + ch
def State.movedOn (s : State) (v t ch : Nat) : Nat := tget 0 s.mem.moved (movedKey v t ch)
def State.setMoved (s : State) (v t ch n : Nat) : State :=
  { s with mem := { s.mem with moved := tset 0 s.mem.moved (movedKey v t ch) n } }

/-- Units of a ticket's run moved so far, over all channels. -/
def State.movedAll (s : State) (v t : Nat) : Nat :=
  (s.mem.moved.filter (fun e => e.1 / 512 == 1024 * v + t)).foldl (fun n e => n + e.2) 0

/-- Data of a ticket on its way or in the landing buffer. -/
def State.outstanding (s : State) (v t p : Nat) : Bool :=
  s.mem.deliveries.any (fun d => d.core == v && d.ticket == t) || (s.core p).landing.any (fun e => e.1 == t)

/-- A run whose last granule has landed or been read ends: the ticket is free again, CTR_D rises (R202). -/
def State.endRun (s : State) (v t : Nat) : State :=
  match s.holder v, s.ticketDef v t with
  | some p, some d =>
    match tget none (s.core p).tickets t with
    | none => s
    | some k =>
      if d.units ≤ s.movedAll v t ∧ !s.outstanding v t p then
        let s := s.setCore p { s.core p with tickets := tset none (s.core p).tickets t none }
        let s := { s with mem := { s.mem with moved := s.mem.moved.filter (fun e => e.1 / 512 != 1024 * v + t) } }
        s.muUp v k.ctr
      else s
  | _, _ => s

/-- Lands one granule of a read run under its arm: none where its write is held (R249). Of an out-of-range buffer the data is
discarded. -/
def State.landGrain (s : State) (v p : Nat) (k : Ticket) (grain : Nat) (bytes : List Byte) : Option State :=
  if !k.ok then some s
  else
    let off := refOff k.buf + 64 * grain
    let ctx := s.ctxOf v p
    let c := s.core p
    (hwWrite ctx (off / 64) true c).map (fun c => s.setCore p { c with cm := setBytes c.cm off bytes })

/-- Data of an armed ticket leaves the landing buffer while it can (R202). -/
def State.drainLanding (v p t : Nat) (k : Ticket) : List (Nat × Nat × List Byte) → State → State
  | [], s => s
  | e :: es, s =>
    if e.1 ≠ t then State.drainLanding v p t k es s
    else match s.landGrain v p k e.2.1 e.2.2 with
      | none => State.drainLanding v p t k es s
      | some s =>
        let c := s.core p
        State.drainLanding v p t k es (s.setCore p { c with landing := c.landing.filter (fun x => x != e) })

/-- A ticket has been armed: what waits for it lands, and a run already complete ends. -/
def State.armTicket (s : State) (v t : Nat) : State :=
  match s.holder v with
  | none => s
  | some p =>
    match tget none (s.core p).tickets t with
    | none => s
    | some k => (State.drainLanding v p t k (s.core p).landing s).endRun v t

/-! ### Replacement of a pseudo-channel (R281 to R283) -/

/-- Reserves as many free values as a channel has words, and marks its contents lost. -/
def State.loseData (s : State) (l : Nat) : State :=
  let c := s.chan l
  let b := s.free
  { s.setChan l { c with lost := some b, mark := [] } with free := b + 312500000 }

/-- At the boundary: lost channels go onto reserves, and migrations that have finished switch (R281, R282, R283). 0x0404 names the
pseudo-channel that the channel leaves, and FAIL is set for it (DESIGN CHOICE, log entry 150). -/
def State.replaceChan (s : State) (l : Nat) : State :=
  let c := s.chan l
  if !c.backed then s
  else if (s.pc c.phys).lost then
    match s.pickReserve c.phys with
    | some r =>
      let s := s.setPc c.phys { s.pc c.phys with fail := true, lost := false }
      let s := (s.setChan l { c with phys := r, migrating := none, copied := 0, migrated := false }).loseData l
      s.raiseM 0x0405 (pgHbm 0) (c.phys * 1024) 0 (chanWord c.phys l 3)
    | none =>
      let s := s.setPc c.phys { s.pc c.phys with fail := true, lost := false }
      let s := (s.setChan l { c with backed := false, migrating := none, copied := 0, migrated := false }).setDegraded
      s.raiseM 0x0406 (pgHbm 0) (c.phys * 1024) 0 (chanWord c.phys l 3)
  else match c.migrating, c.migrated with
    | some r, true =>
      let s := s.setPc c.phys { s.pc c.phys with fail := true }
      let s := s.setChan l { c with phys := r, migrating := none, copied := 0, migrated := false }
      s.raiseM 0x0404 (pgHbm 0) (c.phys * 1024) 0 (chanWord c.phys l 0)
    | _, _ => s

def State.replaceChans (s : State) : State := (List.range s.mem.nLc).foldl (fun s l => s.replaceChan l) s

end Sys2Proof.Machine
end

