-- ==== Sys2Proof/Machine/Checks.lean ====
section
/-!
DEFINITION. The hardware checks of a core (R154, R155, R174, R175, R179, R181, R377 to R387): their captures and events, the breaking
of the replica, the assay records they leave and how an assay job closes them.
-/

namespace Sys2Proof.Machine

open Sys2Proof

/-! ### Assay records (R383 to R386) -/

/-- What a check that fires says of itself. -/
structure CheckRec where
  kind : Nat
  unit : Nat
  stream : Nat
  ordinal : Nat
  locator : Nat
  locator2 : Nat
  primary : Nat
  checker : Nat
deriving DecidableEq, Repr

/-- Stroke within the step, counted from 0. -/
def State.stepStroke (s : State) : Nat := s.stroke.jobStroke.toNat - s.stp.firstStroke.toNat

/-- Adds the record of a core that first fires a check in the step (R384); kind 6 takes NO_REPLAY at once. Records decided
before give way (DESIGN CHOICE, log entry 45). -/
def State.addRec (s : State) (p v : Nat) (c : CheckRec) : State :=
  let s := if s.asy.st = 3 then { s with asy := { s.asy with recs := [], ninth := [], st := 0 } } else s
  if s.asy.recs.any (fun r => r.pcore == p) then s
  else if 8 ≤ s.asy.recs.length then
    if s.asy.ninth.contains p then s else { s with asy := { s.asy with ninth := s.asy.ninth ++ [p] } }
  else
    let r : AssayRec :=
      { pcore := p, v := v, kind := c.kind, unit := c.unit, stream := c.stream,
        outcome := if c.kind = 6 then 5 else 0, stroke := wOf s.stepStroke, ordinal := wOf c.ordinal,
        locator := wOf c.locator, locator2 := wOf c.locator2, primary := wOf c.primary, checker := wOf c.checker,
        replay := 0 }
    { s with asy := { s.asy with recs := s.asy.recs ++ [r], step := s.stroke.step } }

/-- A class-0x06 event of an ACTIVE core in RUN breaks the replica and leaves a record (R380, R384). -/
def State.coreBroke (s : State) (p v : Nat) (c : CheckRec) : State :=
  if (s.roleOf p).role = .active ∧ s.mgmt.dev = .run then ((s.breakReplica 0).recheck).addRec p v c else s

/-- An assay job runs on the device that holds the records (R385). -/
def State.assaying (s : State) : Bool := s.job.present && s.job.assay && s.asy.st == 2

/-- The outcome of R386 for replay value X. -/
def AssayRec.decide (r : AssayRec) (x : Word) (fired : Bool) : AssayRec :=
  let o := if fired then 4 else if x = r.primary then 1 else if x = r.checker then 2 else 3
  { r with outcome := o, replay := x }

/-- Whether a record names a point: position, kind, unit, stream, ordinal and stroke. -/
def AssayRec.names (r : AssayRec) (v : Nat) (kinds : List Nat) (unit stream ordinal stroke : Nat) : Bool :=
  r.outcome == 0 && r.v == v && kinds.contains r.kind && r.unit == unit && r.stream == stream &&
  r.ordinal == wOf ordinal && r.stroke == wOf stroke

/-- Closes the records that name a point, with the replay's value there (R385). -/
def State.closeRecs (s : State) (v : Nat) (kinds : List Nat) (unit stream ordinal : Nat) (loc : Option Word) (x : Word)
    (fired : Bool) : State :=
  if !s.assaying then s
  else
    let hit := fun (r : AssayRec) => r.names v kinds unit stream ordinal s.stepStroke &&
      (match loc with | none => true | some l => r.locator == l)
    let n := (s.asy.recs.filter (fun r => hit r && (r.decide x fired).outcome == 3)).length
    { s with asy := { s.asy with recs := s.asy.recs.map (fun r => if hit r then r.decide x fired else r),
                                 upstream := s.asy.upstream + n } }

/-- An assay job passes a point with no reading of the checker given: X is a free value (log entry 5). -/
def State.passPoint (s : State) (v : Nat) (kinds : List Nat) (unit stream ordinal : Nat) : State :=
  if s.assaying && s.asy.recs.any (fun r => r.names v kinds unit stream ordinal s.stepStroke) then
    let (f, s) := s.draw
    s.closeRecs v kinds unit stream ordinal none (f.truncate 32) false
  else s

/-! ### The checks -/

/-- An instruction at the point where a check may fire. -/
structure Point where
  p : Nat
  v : Nat
  st : Stream
  op : IsaOp
  pc : Nat
  /-- Issue ordinal of the stream, and ordinal in the engine's queue. -/
  ord : Nat
  engOrd : Nat
deriving DecidableEq, Repr

/-- Engine of a matrix instruction. -/
def engineOf : IsaOp → Option Nat
  | .mload x => some x.eng.toNat
  | .mstr x | .mstrt x => some x.eng.toNat
  | .mdrain x => some x.eng.toNat
  | .mew x => some x.eng.toNat
  | _ => none

def isTransposed : IsaOp → Bool
  | .mstrt _ => true
  | _ => false
def isSplit : IsaOp → Bool
  | .mstr x | .mstrt x => x.pieces != 0
  | _ => false

/-- The first of the checked blocks in ascending order of block, row and column (R155). -/
def ResHit.first : List ResHit → Option ResHit
  | [] => none
  | h :: hs => match ResHit.first hs with
    | none => some h
    | some k => some (if k.block < h.block ∨ (k.block = h.block ∧ (k.row < h.row ∨ (k.row = h.row ∧ k.col < h.col))) then k else h)

/-- A residue or class mismatch of an engine (R155): where EVT.RES is clear its capture words and, for the first capture of the engine in the
stroke, 0x0601. `c` makes the record. -/
def State.residueHit (s : State) (p v e : Nat) (cap0 cap1 obs pred tile waiter : Nat) (stroke : DWord) (c : CheckRec) : State :=
  let pg := pgMe p e
  if s.rbit (pg + oEvt) 1 then s
  else
    let caps := [(0x130, cap0), (0x134, cap1), (0x138, obs), (0x13C, pred), (0x140, stroke.toNat % 2 ^ 32)]
    let (seen, s) := s.once (0x0601, 4 * p + e)
    let s := s.raise { ev 0x0601 pg (s.objC v (e * 1024 + tile * 128)) waiter cap0 with
      caps := caps, quiet := seen, test := (s.roleOf p).role == .underTest }
    if seen then s else s.coreBroke p v c

/-- A class-0x06 event of core `p` with the page's own capture words. -/
def State.coreSix (s : State) (p v code page id waiter detail : Nat) (caps : List (Nat × Nat)) (once : Bool)
    (c : CheckRec) : State :=
  let (seen, s) := if once then s.once (code, p) else (false, s)
  let s := s.raise { ev code page (s.objC v id) waiter detail with
    caps := caps, quiet := seen, test := (s.roleOf p).role == .underTest }
  if seen then s else s.coreBroke p v c

/-- What the residue check has read of the faulty blocks of an instruction (R152, R153, R155, R383 kinds 1 and 2): a block whose two values
agree has passed, and only tells an assay job its X. Every other counts; the first of them by block, row and column is captured. -/
def State.onResidue (s : State) (p v e : Nat) (st : Stream) (ord : Nat) (stroke : DWord) (hits : List ResHit) : State :=
  let s := hits.foldl (fun s h => s.closeRecs v [if h.cls then 2 else 1] e st.codeNat ord (some (wOf h.cap0)) (wOf h.observed)
    (h.observed != h.predicted)) s
  let bad := hits.filter (fun h => h.observed != h.predicted)
  let s := s.bump (Reg.meResCnt p e) bad.length
  match ResHit.first bad with
  | none => s
  | some h => s.residueHit p v e h.cap0 h.cap1 h.observed h.predicted h.tile st.codeNat stroke
      ⟨if h.cls then 2 else 1, e, st.codeNat, ord, h.cap0, h.cap1, h.observed, h.predicted⟩

/-- The two copies of rounding and accumulate (R154, kind 3). The manual states no detail: a free value (log entry 34). -/
def State.onMeDup (s : State) (q : Point) (tile row col : Nat) (c0 c1 : Word) : State :=
  match engineOf q.op with
  | none => s
  | some e =>
    let loc := resCap0 tile row col 0 false false (isTransposed q.op) (isSplit q.op)
    let s := s.closeRecs q.v [3] e q.st.codeNat q.engOrd (some (wOf loc)) c0 (c0 != c1)
    if c0 = c1 then s
    else
      let (f, s) := s.draw
      s.coreSix q.p q.v 0x0602 (pgMe q.p e) (e * 1024 + tile * 128) q.st.codeNat (f.toNat % 2 ^ 32) [] false
        ⟨3, e, q.st.codeNat, q.engOrd, loc, 0, c0.toNat, c1.toNat⟩

/-- Parity of tiles and stationary registers (R154); the detail is a free value (log entry 34). -/
def State.onMeParity (s : State) (q : Point) (tile : Nat) : State :=
  match engineOf q.op with
  | none => s
  | some e =>
    let (f, s) := s.draw
    s.coreSix q.p q.v 0x0604 (pgMe q.p e) (e * 1024 + tile * 128) q.st.codeNat (f.toNat % 2 ^ 32) [] false
      ⟨6, e, q.st.codeNat, q.engOrd, 0, 0, 0, 0⟩

/-- The compared item of the lowest compare-point code among those that differ (R175). -/
def LockItem.first : List LockItem → Option LockItem
  | [] => none
  | x :: xs => match LockItem.first xs with
    | none => if x.differs then some x else none
    | some y => if x.differs && decide (x.point.toNat ≤ y.point.toNat) then some x else some y

/-- What the lockstep compare saw in a cycle (R174, R175). An item on which the copies agree only tells an assay job its X. A cycle with a
mismatch counts once; its mismatch of the lowest code is captured at once and reported at the boundary. -/
def State.onLockstep (s : State) (q : Point) (cycle : Word) (items : List LockItem) : State :=
  let cap0 := fun (x : LockItem) => x.point.toNat + 16 * q.st.codeNat + 2 ^ 31
  let s := items.foldl (fun s x => s.closeRecs q.v [4] 0 q.st.codeNat q.ord (some (wOf (cap0 x))) x.copy0 x.differs) s
  match LockItem.first items with
  | none => s
  | some x =>
    let c := s.core q.p
    let s := if c.lockCycle = some cycle then s else (s.bump (Reg.ccLockCnt q.p) 1).setCore q.p { c with lockCycle := some cycle }
    let pg : Page := ⟨.cc, q.p, 0, pgCc q.p⟩
    let s := s.setEvt pg 0 [(0x28, cap0 x), (0x2C, cycle.toNat), (0x30, x.copy0.toNat), (0x34, x.copy1.toNat), (0x38, q.pc),
      (0x3C, jobLo s)]
    let c := s.core q.p
    match c.lockHit with
    | some _ => s
    | none => s.setCore q.p { c with lockHit := some ⟨q.st.codeNat, s.rget (Reg.ccCap0 q.p), s.rget (Reg.ccCap2 q.p),
        s.rget (Reg.ccCap3 q.p), s.rget (Reg.ccCap4 q.p), q.ord⟩ }

/-- At the boundary: the mismatches of the stroke, one 0x0605 for each core (R175). -/
def State.reportLock (s : State) (v p : Nat) : State :=
  let c := s.core p
  match c.lockHit with
  | none => s
  | some h =>
    let s := s.setCore p { c with lockHit := none, lockCycle := none }
    let pg : Page := ⟨.cc, p, 0, pgCc p⟩
    let e : Ev := { ev 0x0605 pg.base (s.objC v 0) h.stream h.cap0.toNat with test := (s.roleOf p).role == .underTest }
    let s := (s.bump (pg.base + oEvtCnt) 1).stepMark e
    let s := s.logRec (s.recOf pg e) (!s.rbit (pg.base + oEvtEn) 0)
    s.coreBroke p v ⟨4, 0, h.stream, h.ordinal, h.cap0.toNat, h.pc.toNat, h.copy0.toNat, h.copy1.toNat⟩

/-- Parity of a vector register (R179); the detail is a free value (log entry 34). -/
def State.onVeParity (s : State) (q : Point) (reg word : Nat) : State :=
  let cap0 := reg + 2 ^ 8 * q.st.codeNat + 2 ^ 16 * word + 2 ^ 31
  let s := s.bump (Reg.veParCnt q.p) 1
  let (f, s) := s.draw
  s.coreSix q.p q.v 0x0606 (pgVe q.p) 0 q.st.codeNat (f.toNat % 2 ^ 32) [(0x28, cap0), (0x2C, jobLo s)] false
    ⟨6, 0, q.st.codeNat, q.ord, cap0, 0, 0, 0⟩

/-- A difference on the shadow lane (R377, R378): lane fmod(d, 64). -/
def State.onVeDup (s : State) (q : Point) (count reg : Nat) (half : Bool) (lv sv : Word) (lf sf : BitVec 8) : State :=
  let lane := s.stroke.devStroke.toNat % 64
  let cap0 := lane + 2 ^ 6 * q.st.codeNat + 2 ^ 8 * opcodeOf q.op + 2 ^ 16 * reg + b1 half 19 + 2 ^ 31
  let differ := lv != sv || lf != sf
  let s := s.closeRecs q.v [5] 0 q.st.codeNat q.ord (some (wOf cap0)) lv differ
  if !differ then s
  else
    let s := s.bump (Reg.veDupCnt q.p) (max 1 count)
    s.coreSix q.p q.v 0x0608 (pgVe q.p) 0 q.st.codeNat cap0
      [(0x120, cap0), (0x124, lv.toNat), (0x128, sv.toNat), (0x12C, lf.toNat + 256 * sf.toNat), (0x130, jobLo s),
        (0x134, q.ord)] true
      ⟨5, 0, q.st.codeNat, q.ord, cap0, q.ord, lv.toNat, sv.toNat⟩

/-- Parity or duplicate logic of a core's data paths (R379). The bank is the granule's (R497). -/
def State.onDataPath (s : State) (p v site granule : Nat) : State :=
  let cap0 := site + (if site = 0 then 8 * (granule % 32) else 0) + 2 ^ 31
  s.coreSix p v 0x0609 (pgCore p) 0 0 cap0 [(0x28, cap0), (0x2C, if site = 0 then granule else 0), (0x30, jobLo s)] true
    ⟨6, 0, 0, 0, cap0, 0, 0, 0⟩

/-- 0x0607 (R181). -/
def State.onIstore (s : State) (q : Point) : State :=
  s.coreSix q.p q.v 0x0607 (pgCc q.p) 0 q.st.codeNat q.pc [] true ⟨6, 0, q.st.codeNat, q.ord, 0, 0, 0, 0⟩

/-- A check at a point. Faulty blocks show where their rows are formed (`State.onResidue`). -/
def State.onUpset (s : State) (q : Point) : Upset → State
  | .istoreParity => s.onIstore q
  | .lockstep cycle items => s.onLockstep q cycle items
  | .residue _ => s
  | .meDup tile row col c0 c1 => s.onMeDup q tile.toNat row.toNat col.toNat c0 c1
  | .meParity tile => s.onMeParity q tile.toNat
  | .veParity reg word => s.onVeParity q reg.toNat word.toNat
  | .veDup count reg half lv sv lf sf => s.onVeDup q count reg.toNat half lv sv lf sf
  | .dataPath site granule => s.onDataPath q.p q.v site.toNat granule.toNat

/-- The instructions of class set q of R377. -/
def isVector : IsaOp → Bool
  | .vadd _ | .vsub _ | .vmul _ | .vfma _ | .vmin _ | .vmax _ | .vcmp _ | .vsel _ | .vand _ | .vor _ | .vxor _
  | .vshl _ | .vshr _ | .vsra _ | .vsgn _ | .vcvt _ | .vrnd _ | .vtr _ | .vred _ | .vcpr _ | .vxpd _
  | .vcpst _ | .vxpld _ | .vld _ | .vst _ => true
  | _ => false

/-- The class set of R377 that an instruction belongs to; none where no set holds it. -/
def shadowSet : IsaOp → Option Nat
  | .vadd _ | .vsub _ | .vmul _ | .vfma _ | .vsgn _ => some 0
  | .vmin _ | .vmax _ | .vcmp _ | .vsel _ | .vand _ | .vor _ | .vxor _ | .vshl _ | .vshr _ | .vsra _ | .vcpr _ | .vxpd _ => some 1
  | .vcvt _ | .vrnd _ | .vred _ | .vld _ | .vst _ => some 2
  | .vtr _ => some 3
  | _ => none

/-- The instructions that form blocks or products (R152, R232). -/
def isStreamed : IsaOp → Bool
  | .mstr _ | .mstrt _ | .mew _ => true
  | _ => false

/-- An instruction passes a compare point of R174: every issue passes point 0. -/
def pointFits (op : IsaOp) : Nat → Bool
  | 0 => true
  | 1 => match op with
    | .loop _ | .rdspec _ | .add _ | .sub _ | .mul _ | .and _ | .or _ | .xor _ | .shl _ | .shr _ | .sra _ | .min _ | .max _ | .minu _
    | .maxu _ | .cmp _ | .sel _ | .li _ | .lih _ | .lds _ | .pcnt _ | .flags _ | .vred _ | .vcpr _ | .vcpst _ | .vxpld _ => true
    | _ => false
  | 2 => match op with
    | .pand _ | .por _ | .pxor _ | .pandn _ | .pfirst _ | .vcmp _ => true
    | _ => false
  | 3 => isVector op
  | 4 => (engineOf op).isSome
  | 5 => match op with
    | .lds _ | .sts _ | .mcopy _ | .calarm _ | .gather _ | .scatter _ | .nsend _ | .nrecv _ | .ncoll _ => true
    | _ => false
  | 6 => match op with
    | .scadd _ | .scsub _ | .wait _ => true
    | _ => false
  | 7 => match op with
    | .signal _ | .nsend _ | .nrecv _ | .ncoll _ => true
    | _ => false
  | 8 => match op with
    | .vcpst _ | .vxpld _ | .vld _ | .vst _ => true
    | _ => false
  | _ => false

/-- Whether a check can fire on an instruction: block checks where blocks are formed, matrix checks on matrix instructions, lane checks on
vector instructions, the shadow only on the class set of the stroke, the lockstep at the points it passes (R154, R155, R174, R179, R232,
R377). -/
def upsetFits (devStroke : Nat) (op : IsaOp) : Upset → Bool
  | .istoreParity | .dataPath .. => true
  | .lockstep _ items => items.all (fun x => pointFits op x.point.toNat)
  | .residue _ => isStreamed op
  | .meDup .. | .meParity _ => (engineOf op).isSome
  | .veParity .. => isVector op
  | .veDup .. => shadowSet op == some (devStroke / 64 % 4)

end Sys2Proof.Machine
end

