-- ==== Sys2Proof/Machine/FabOps.lean ====
section
/-!
DEFINITION. What the fabric does for an instruction and for a packet: NSEND, NRECV and NCOLL (R204 to R206, R310, R498), DATA messages
and receives (R205, R309), and the path of an arriving frame up to its message (R301).
-/

namespace Sys2Proof.Machine

open Sys2Proof

/-! ### Descriptors (R310) -/

def dsc (d : List Byte) (o n : Nat) : Nat := leNat ((d.drop o).take n)
def zeros (d : List Byte) (o n : Nat) : Bool := ((d.drop o).take n).all (· == 0)

/-- A send descriptor without a nonzero reserved byte or bit. -/
def sendOk (d : List Byte) : Bool := decide (dsc d 0 2 < 4096) && zeros d 2 2 && zeros d 8 56
def recvOk (d : List Byte) : Bool := decide (dsc d 0 2 < 4096) && zeros d 2 6 && zeros d 16 48
def collDscOk (d : List Byte) : Bool :=
  decide (dsc d 4 4 < 2 ^ 20) && zeros d 9 7 && zeros d 36 4 && zeros d 48 16

/-- An own contribution that is not released holds what a CONTRIB packet carries. -/
def State.keptFor (s : State) (p : Pkt) : Bool :=
  s.fab.colls.any (fun r => r.coll == p.coll &&
    (r.nodes ++ r.late).any (fun x => treeWord x.level x.shard == p.tree))

/-- Bytes that a field's cores hold in the retained store, of the 16 MiB it has (R306): DATA packets not acknowledged, contributions not
released (R315), and CONTRIB packets of nodes formed here. -/
def State.retainedIn (s : State) (field : Nat) : Nat :=
  (s.fab.flows.map (fun e => ((e.2.retained.filter (fun r => r.field == field &&
    (r.pkt.typ == 0 || (r.pkt.typ == 1 && !s.keptFor r.pkt)))).map (fun r => r.pkt.payload.length)).sum)).sum +
  (s.fab.colls.map (fun r => (((r.waiting ++ r.nodes ++ r.late).filter (fun x => x.field == field)).map (fun x => x.bytes.length)).sum)).sum
def retainedMax : Nat := 16 * 1024 * 1024

/-! ### NSEND and NRECV -/

/-- NSEND with its data read (R204): a DATA message on the descriptor's flow, or 0x0910 and nothing. -/
def State.nsendGo (s : State) (v : Nat) (st : Stream) (desc : Option (List Byte)) (data : List Byte) (ref : Nat) : State :=
  match desc.filter sendOk with
  | none => s.addrEvent v st 0x80 ref
  | some d => s.sendMsg (dsc d 0 2) 0 0 (v / 32) (wOf (dsc d 4 4)) 0 s.stroke.step false 0 data

/-- A complete DATA message meets an armed receive (R205): its granules, its status and its counter go to the core. -/
def State.fillRecv (s : State) (a : RecvArm) (tag : Word) (src : Nat) (bytes : List Byte) : State :=
  let g := bytes.length / 64
  let long := decide (a.len < g)
  let s := if long then s.addrEvent a.core a.st 0x81 (a.dst.toNat % 2 ^ 32) else s
  match s.holder a.core with
  | none => s
  | some p =>
    let ctx := s.ctxOf a.core p
    let okS := cmOk ctx a.status 16 true 16
    let s := if okS then s else s.addrEvent a.core a.st 0x81 (a.status.toNat % 2 ^ 32)
    let status := leBytes 4 g ++ leBytes 4 tag.toNat ++ [if long then 1 else 0, 0, 0, 0] ++ leBytes 2 src ++ [0, 0]
    let items := (if a.dstOk then itemsOf (refOff a.dst) (bytes.take (64 * a.len)) else []) ++
      (if okS then [Item.granule (refOff a.status) status] else []) ++
      (match a.ctr with | none => [] | some n => [Item.done a.core n])
    s.flight a.core a.core (ctx.travel.getD a.core 0) a.st 0x81 items

/-- Receives of a flow meet its waiting messages, in order (R205). -/
def State.matchRecv (f : Nat) : Nat → State → State
  | 0, s => s
  | n + 1, s =>
    let x := s.flow f
    match x.arms, x.waiting with
    | a :: as, (tag, src, bytes) :: ws =>
      State.matchRecv f n ((s.setFlow f { x with arms := as, waiting := ws }).fillRecv a tag src bytes)
    | _, _ => s

/-- NRECV (R205): arms a receive; a faulty descriptor arms nothing and updates CTR_D (R498). -/
def State.nrecvGo (s : State) (v : Nat) (st : Stream) (desc : Option (List Byte)) (dst : DWord) (len : Nat)
    (ctr : Option Nat) (ref : Nat) : State :=
  match desc.filter recvOk with
  | none => (s.addrEvent v st 0x81 ref).muUp v ctr
  | some d =>
    let f := dsc d 0 2
    let x := s.flow f
    let arm : RecvArm := ⟨v, st, dst, dst != BitVec.allOnes 64, len, BitVec.ofNat 64 (dsc d 8 8), ctr⟩
    (s.setFlow f { x with arms := x.arms ++ [arm] }).matchRecv f (x.waiting.length + 1)

/-- A complete DATA message joins its flow's queue (R309). -/
def State.takeData (s : State) (m : Msg) : State :=
  let x := s.flow m.flow
  (s.setFlow m.flow { x with waiting := x.waiting ++ [(m.coll, m.src, m.bytes)] }).matchRecv m.flow (x.waiting.length + 2)

/-! ### NCOLL (R206, R127, R312, R315, R316) -/

/-- Shards of a collective that this device holds. -/
def State.ownShards (s : State) (c : CollCfg) : Nat :=
  (List.range c.n).foldl (fun m j => if s.shardMember c j = s.member then m ||| 2 ^ j else m) 0

/-- Combines a node with waiting nodes of the device's complete runs (R127): the node to send, if its run is complete, with those that still
wait and the flags raised. -/
def mergeOwn (int : Bool) (own n : Nat) : Nat → CNode → List CNode → Flg → Option CNode × List CNode × Flg
  | 0, nd, ws, f => (some nd, ws, f)
  | fuel + 1, nd, ws, f =>
    let size := 2 ^ nd.level
    let j := nd.shard - nd.shard % (2 * size)
    if j + 2 * size ≤ n ∧ subMask (rangeMask j (2 * size)) own then
      match ws.find? (fun x => x.level == nd.level && x.shard == (if nd.shard = j then j + size else j)) with
      | none => (none, ws ++ [nd], f)
      | some x =>
        let (a, b) := if nd.shard = j then (nd, x) else (x, nd)
        let (vals, g) := combineVals int (some (wordsFrom (a.bytes.length / 4) a.bytes), f)
          (some (wordsFrom (b.bytes.length / 4) b.bytes), 0)
        mergeOwn int own n fuel ⟨j, nd.level + 1, nd.src, a.nf || b.nf, bytesFrom (vals.getD []), false, nd.field⟩
          (ws.filter (fun y => y != x)) g
    else (some nd, ws, f)

/-- Sends a whole node: each segment to its root, which may be here. -/
def State.contribute (s : State) (c : CollCfg) (field : Nat) (late : Bool) (step run : DWord) (nd : CNode) : State × List CAct :=
  let stage := c.stageOf nd.level
  let group := c.groupOf stage nd.shard
  (List.range c.segs).foldl (fun (acc : State × List CAct) seg =>
    let part := segNode c seg nd
    let m := acc.1.rootMember c stage group seg
    if m = acc.1.member then (acc.1, acc.2 ++ [.arrive c.coll run (if late then 1 else 0) seg acc.1.member part])
    else if acc.1.job.assay && acc.1.replicaOf m != acc.1.replica then acc
    else (acc.1.sendNode c m seg field late step part, acc.2)) (s, [])

/-- Stages and groups of a collective whose roots wait for nodes: no first stage where a group comes from one member. -/
def State.rootParts (s : State) (c : CollCfg) : List (Nat × Nat) :=
  if c.two then (((List.range c.groups).filter (fun g => !s.direct c g)).map (fun g => (1, g))) ++ [(2, 0)] else [(1, 0)]

/-- The nodes that stand at the roots of core `v` go into its scratch, now that its descriptor names it (R312). -/
def State.fillScratch (s : State) (c : CollCfg) (v : Nat) (step : DWord) : State :=
  (s.fab.roots.filter (fun r => r.coll == c.coll && r.step == step && s.runPos c r == v)).foldl
    (fun s r => s.placeScratch c r) s

/-- The roots that core `v` of this device serves begin their deadlines (R316). -/
def State.startRoots (s : State) (c : CollCfg) (v : Nat) (step : DWord) : State × List CAct :=
  (s.rootParts c).foldl (fun acc (st, g) => (List.range c.segs).foldl (fun (acc : State × List CAct) seg =>
    let s := acc.1
    if s.rootMember c st g seg = s.member ∧ s.rootPos c st g seg = v then
      let s := s.setRoot { s.rootOrNew c.coll step st g 0 seg with started := true }
      let late := s.lateMask c step st g seg ≠ 0 || (s.replayIncl c.coll step 1).getD 0 ≠ 0
      let s := if late then s.setRoot { s.rootOrNew c.coll step st g 1 seg with started := true } else s
      (s, acc.2 ++ [.check c.coll step st g 0 seg] ++ (if late then [.check c.coll step st g 1 seg] else []))
    else acc) acc) (s, [])

/-- No program issues NCOLL for a norm collective: the deadlines of its roots here begin with the first NCOLL linked to it (R339; DESIGN
CHOICE, log entry 135). -/
def State.startNorm (s : State) (c : CollCfg) (step : DWord) : State × List CAct :=
  match s.collCfg c.normColl with
  | none => (s, [])
  | some k =>
    (List.range 128).foldl (fun (acc : State × List CAct) v =>
      let (s, a) := acc.1.startRoots k v step
      (s, acc.2 ++ a)) (s, [])

/-- Contributions kept from the step before go into the late lane (R315, R343). -/
def State.sendLate (s : State) (c : CollCfg) (step : DWord) : State × List CAct :=
  match s.collRun? c.coll (step - 1) with
  | none => (s, [])
  | some old =>
    if c.sprue && !old.nodes.isEmpty && s.mayContribute then
      let keep := old.nodes.filter (fun x => !old.refused.contains x.shard)
      let s := s.setCollRun { old with nodes := [] }
      let s := s.setCollRun { s.collRunOrNew c.coll step with late := keep, lateStep := step - 1 }
      keep.foldl (fun (acc : State × List CAct) nd =>
        let (s, a) := acc.1.contribute c 0 true (step - 1) step nd
        (s, acc.2 ++ a)) (s, [])
    else (s, [])

/-- The parts of NCOLL's descriptor the run needs. -/
def collCore (v : Nat) (st : Stream) (d : List Byte) (ctr : Option Nat) : CollCore :=
  ⟨v, st, BitVec.ofNat 64 (dsc d 16 8), BitVec.ofNat 64 (dsc d 24 8), dsc d 32 4, BitVec.ofNat 64 (dsc d 40 8), ctr, false, false⟩

/-- The shards whose nodes this device may combine before it sends them: in replay those that the ledger includes (R29, R126, R127). -/
def State.mergeable (s : State) (c : CollCfg) (step : DWord) : Nat :=
  if s.job.params.replay then s.ownShards c &&& (s.replayIncl c.coll step 0).getD 0 else s.ownShards c

/-- NCOLL with its data read, its descriptor sound; `step` is the step of its issue (R501). -/
def State.ncollRun (s : State) (c : CollCfg) (v : Nat) (st : Stream) (step : DWord) (d : List Byte) (data : List Byte)
    (ctr : Option Nat) : State :=
  let first := (s.collRun? c.coll step).isNone
  let r := s.collRunOrNew c.coll step
  let s := s.setCollRun { r with cores := r.cores ++ [collCore v st d ctr] }
  let (s, n) := if c.normEn then (s.setCollRun (s.collRunOrNew c.normColl step)).startNorm c step else (s, [])
  let (s, a) := (s.fillScratch c v step).startRoots c v step
  let (s, b) := if first then s.sendLate c step else (s, [])
  let nd : CNode := ⟨dsc d 4 4, dsc d 8 1, s.member, !c.int && nonFinite (data.length / 4) data, data, false, v / 32⟩
  let (s, e) := if s.mayContribute && decide (nd.shard < c.n) then
      let r := s.collRunOrNew c.coll step
      let (out, ws, f) := if s.forwards c then (some nd, r.waiting, 0)
        else mergeOwn c.int (s.mergeable c step) c.n 20 nd r.waiting 0
      let s := s.raiseFlagsAt v st f
      match out with
      | none => (s.setCollRun { r with waiting := ws }, [])
      | some x => (s.setCollRun { r with waiting := ws, nodes := r.nodes ++ [x] }).contribute c (v / 32) false step step x
    else (s, [])
  let s := s.collGo (n ++ a ++ b ++ e)
  let r := s.collRunOrNew c.coll step
  if r.done then s.deliverAll c r else s

/-- NCOLL (R206): a faulty descriptor raises 0x0910, contributes nothing and updates CTR_D (R498). `len` is the instruction's
LEN. -/
def State.ncollGo (s : State) (v : Nat) (st : Stream) (step : DWord) (desc : Option (List Byte)) (data : List Byte) (ctr : Option Nat)
    (ref : Nat) : State :=
  let sound := (desc.filter collDscOk).bind (fun d =>
    ((s.collCfg (wOf (dsc d 0 4))).filter (fun c => c.lenG == data.length / 64)).map (fun c => (d, c)))
  match sound with
  | none => (s.addrEvent v st 0x82 ref).muUp v ctr
  | some (d, c) => s.ncollRun c v st step d data ctr

/-! ### An arriving frame (R301) -/

/-- The step that the low word of a header names: the one nearest to this device's (DEDUCED, log entry 32). -/
def State.stepOf (s : State) (w : Word) : DWord := s.stroke.step + (w - loW s.stroke.step).signExtend 64

/-- Lane, level, shard and run of a CONTRIB packet or message. -/
def State.runOf (s : State) (late : Bool) (w : Word) : DWord := if late then s.stepOf w + 1 else s.stepOf w
def treeLevelOf (t : Word) : Nat := fieldNat t 20 5
def treeShard (t : Word) : Nat := fieldNat t 0 20

/-- A root marks the node of a packet unobtainable (R307, R323, R326). -/
def State.markUnob (s : State) (src : Nat) (coll tree : Word) (late : Bool) (step : Word) (ofs : Nat) : State :=
  match s.collCfg coll with
  | none => s
  | some c =>
    s.collGo [.arrive coll (s.runOf late step) (if late then 1 else 0) (ofs / max 1 c.segG) src
      ⟨treeShard tree, treeLevelOf tree, src, false, [], true, 0⟩]

/-- Granule offset at which the message of a packet begins. -/
def State.baseOf (s : State) (p : Pkt) : Nat :=
  if p.typ = 1 then
    match s.collCfg p.coll with
    | none => 0
    | some c => p.ofs / max 1 c.segG * c.segG
  else 0

/-- A packet behind the checks of its frame. Answers the messages it completes, in order. -/
def State.letIn (f : Nat) (p : Pkt) (checked : Bool × Option Refusal323 × State) : List Msg × State :=
  let (ok, refusal, s) := checked
  let s := match refusal with
    | none => s
    | some q => if p.typ = 1 then s.markUnob p.src q.coll q.tree (p.flags.getLsbD 1) q.step q.ofs else s
  if !ok then ([], s)
  else if !sequenced p.typ then
    ([⟨f, p.typ, p.src, p.epoch, p.flags.toNat, false, p.coll, p.tree, 0, p.step, p.payload⟩], s)
  else
    let (fresh, s) := s.enter f p
    if !fresh then ([], s)
    else
      let s := if isVoid p && p.typ == 1 then s.markUnob p.src p.coll p.tree (p.flags.getLsbD 1) p.step p.ofs else s
      let (own, s) := if p.typ = 0 then (none, s) else s.complete f p (s.baseOf p)
      let (ds, s) := s.readyData f (s.flow f).rxq.length
      (own.toList ++ ds, s)

/-- Takes a frame through the checks. Answers the messages it completes, in order. -/
def State.receive (s : State) (r : Rx) : List Msg × State :=
  State.letIn (r.pkt.flow % 4096) r.pkt (s.check r (r.pkt.flow % 4096))

/-- Takes a packet that waited for its epoch (R326). -/
def State.receiveEarly (s : State) (p : Pkt) : List Msg × State :=
  State.letIn (p.flow % 4096) p (s.checkEpoch (p.flow % 4096) p false)

/-- A complete CONTRIB message (R312, R315). A late node for any run but the present one or the next is dropped and counted
(R344). -/
def State.takeContrib (s : State) (m : Msg) : State :=
  match s.collCfg m.coll with
  | none => s
  | some c =>
    let late := m.flags / 2 % 2 == 1
    let run := s.runOf late m.step
    if late ∧ run ≠ s.stroke.step ∧ run ≠ s.stroke.step + 1 then s.bump Reg.igsEpochRefused 1
    else
      s.collGo [.arrive m.coll run (if late then 1 else 0) (m.base / max 1 c.segG) m.src
        ⟨treeShard m.tree, treeLevelOf m.tree, m.src, m.nf, m.bytes, false, 0⟩]

/-- A complete RESULT message: its segment, then the trailers (R312, R314). -/
def State.takeResult (s : State) (m : Msg) : State :=
  match s.collCfg m.coll with
  | none => s
  | some c =>
    let seg := treeShard m.tree
    let step := s.stepOf m.step
    let full := c.segLen seg * (if c.kind = 2 then c.n else 1)
    let n := if s.takesData c s.member seg then full else 0
    let tr := m.bytes.drop (m.bytes.length - 64)
    let fl := dsc tr 12 1
    let late := fl / 2 % 2 == 1
    let ltr := m.bytes.drop (m.bytes.length - 128)
    let maps := m.bytes.drop n
    let one := ((c.n + 7) / 8 + 63) / 64 * 64
    let main := if 256 < c.n then leNat (maps.take ((c.n + 7) / 8)) else dsc tr 32 32
    let lm := if !late then 0 else if 256 < c.n then leNat ((maps.drop one).take ((c.n + 7) / 8)) else dsc ltr 32 32
    s.collGo [.result m.coll step seg (m.bytes.take n) main lm (fl % 2 == 1) (fl / 4 % 2 == 1)]

/-! ### AGREE messages (R300) -/

def Msg.kind (m : Msg) : Nat := dsc m.bytes 0 1
def Msg.lane (m : Msg) : Nat := dsc m.bytes 1 1
def Msg.seg (m : Msg) : Nat := dsc m.bytes 2 2
def Msg.step64 (m : Msg) : DWord := BitVec.ofNat 64 (dsc m.bytes 8 8)
def Msg.stage (m : Msg) : Nat := dsc m.bytes 16 1
def Msg.bitmap (m : Msg) (n : Nat) : Nat := dsc m.bytes 32 ((n + 7) / 8)

/-- Group that an AGREE message's TREE names. -/
def CollCfg.groupFrom (c : CollCfg) (stage : Nat) (tree : Word) : Nat := c.groupOf stage (treeShard tree)

def State.takeReport (s : State) (m : Msg) : State :=
  match s.collCfg m.coll with
  | none => s
  | some c => s.collGo [.report m.coll m.step64 m.stage (c.groupFrom m.stage m.tree) m.lane m.seg m.src (m.bitmap c.n)]

def State.takeDecision (s : State) (m : Msg) : State :=
  match s.collCfg m.coll with
  | none => s
  | some c =>
    if treeLevelOf m.tree = 31 then s.collGo [.hand m.coll m.step64 m.stage (treeShard m.tree) m.lane (m.bitmap c.n)]
    else s.collGo [.decide m.coll m.step64 m.stage (c.groupFrom m.stage m.tree) m.lane (m.bitmap c.n)]

/-- WITHDRAW (R349, R380): the replica's shards are out at every root; a member of that replica breaks in the same way. -/
def State.takeWithdraw (s : State) (m : Msg) : State :=
  let r := dsc m.bytes 32 4
  let s := (s.markWithdrawn r).recheck
  if r = s.replica ∧ s.job.present ∧ s.mgmt.dev = .run then s.breakReplica (wOf (dsc m.bytes 40 4)) else s

/-- REPORT_AGAIN (R319): the sender coordinates from now on. Every root of the collective, lane and stage reports to it once more, and
those that have not reported will. -/
def State.takeReportAgain (s : State) (m : Msg) : State :=
  match s.collCfg m.coll with
  | none => s
  | some c =>
    let group := c.groupFrom m.stage m.tree
    let mine := (List.range c.segs).filter (fun k => s.rootHere c m.step64 m.stage group m.lane k)
    mine.foldl (fun s k =>
      let r := { s.rootOrNew m.coll m.step64 m.stage group m.lane k with coord := some m.src }
      let s := s.setRoot r
      if m.src ≠ s.member ∧ (r.reported ∨ r.decided.isSome) ∧ !r.backup then
        s.sendAgree m.src r.coll (c.groupTree r.stage r.group) r.step (reportBytes c r)
      else s) s

end Sys2Proof.Machine
end

