-- ==== Sys2Proof/Machine/Operands.lean ====
section
/-!
DEFINITION. The field values that the loader refuses from the word alone (R180, R231): a word that holds one issues as NOP and
raises 0x0911. One predicate per row.
-/

namespace Sys2Proof.Machine

open Sys2Proof

/-- Formats packed as FP6 or FP4, which exist only in MX tensors (R86). -/
def isSub8 (f : Fmt) : Bool := f == .e3m2 || f == .e2m3 || f == .e2m1
/-- Formats an MX tensor may hold (R86). -/
def isMxFmt (f : Fmt) : Bool := f == .e4m3 || f == .e5m2 || isSub8 f
/-- Stream and stationary operand formats of a matrix engine (R106). -/
def isMatFmt (f : Fmt) : Bool :=
  f == .fp32 || f == .fp19 || f == .bf16 || f == .fp16 || isMxFmt f || f == .int8 || f == .uint8 || f == .int4

/-- Terms per stationary tile K_t for a wider operand (R129). -/
def ktOf (f : Fmt) : Nat :=
  if 16 ≤ f.width then 64 else if f == .int4 || f.width == 8 then 128 else 256
/-- Lanes per cell (R129). -/
def lanesOf (f : Fmt) : Nat := ktOf f / 64
/-- The wider operand format for rate, lanes and K_t (R110): FP19 above the 16-bit formats; INT4 counts with the integers. -/
def widerFmt (a b : Fmt) : Fmt := if ktOf a ≤ ktOf b then (if ktOf b < ktOf a then b else if a == .fp19 then a else if b == .fp19 then b else a) else b

/-- The MX and split conditions of R210 on one operand. -/
def matOperandOk (f : Fmt) (mx : Bool) (pieces : Nat) : Bool :=
  isMatFmt f && (!(isSub8 f) || mx) && (!mx || isMxFmt f) && (pieces == 0 || f == .fp32) && (!(f == .fp32) || pieces != 0)

def okMload (x : FmtMload) : Bool :=
  match Fmt.ofCode x.fmt with
  | none => false
  | some f => x.pieces != 1 && matOperandOk f x.mx x.pieces.toNat && decide (x.k1.toNat + 1 ≤ ktOf f)

/-- The conditions MSTR and MSTRT share (R212). -/
def okStream (x : FmtMstr) : Option (Fmt × Fmt) :=
  match Fmt.ofCode x.fmtA, Fmt.ofCode x.fmtS with
  | some a, some s =>
    if x.pieces != 1 && matOperandOk a x.mxA x.pieces.toNat && matOperandOk s x.mxS x.pieces.toNat && a.isInt == s.isInt
    then some (a, s) else none
  | _, _ => none

def okMstr (x : FmtMstr) : Bool :=
  match okStream x with
  | none => false
  | some _ => decide (x.tile.toNat + x.m1.toNat / 256 ≤ 7)

def okMstrt (x : FmtMstr) : Bool :=
  match okStream x with
  | none => false
  | some (a, s) => decide (x.m1.toNat < 256) && decide (x.tile.toNat + lanesOf (widerFmt a s) - 1 ≤ 7)

def okMdrain (x : FmtMdrain) : Bool :=
  match Fmt.ofCode x.fmt with
  | none => false
  | some f =>
    (f == .fp32 || f == .bf16 || f == .fp16 || f == .e4m3 || f == .e5m2 || f == .int32) &&
    (!x.mx || f == .e4m3 || f == .e5m2) && x.rmode != 3

def isMewFmt (f : Fmt) : Bool := f == .fp19 || f == .bf16 || f == .fp16 || f == .e4m3 || f == .e5m2

def okMew (x : FmtMew) : Bool :=
  match Fmt.ofCode x.fmtA, Fmt.ofCode x.fmtB with
  | some a, some b => isMewFmt a && isMewFmt b
  | _, _ => false

/-! ### Vector words (R159, R218, R231) -/

/-- Registers in a group: g = 2^G. -/
def gOf (g : BitVec 2) : Nat := 2 ^ g.toNat
/-- A group of `n` registers at `r` is aligned and ends within v31. -/
def grpOk (r : BitVec 5) (n : Nat) : Bool := n != 0 && r.toNat % n == 0 && decide (r.toNat + n ≤ 32)
/-- Elements per register of a mode (R159). -/
def lanesPerReg (mode : Nat) : Nat := if mode = 1 then 128 else 64
/-- Registers that hold `n` elements in a mode. -/
def regsFor (n mode : Nat) : Nat := (n + lanesPerReg mode - 1) / lanesPerReg mode
/-- Registers of a VCVT destination (R220). -/
def vcvtRegs (x : FmtV) : Nat := regsFor (gOf x.g * lanesPerReg x.mode.toNat) (x.opx.toNat % 4)

/-- Groups of a lane instruction: destination, a, and b unless it is broadcast. -/
def okLane (x : FmtV) (useB useC : Bool) : Bool :=
  x.mode != 3 && grpOk x.vd (gOf x.g) && grpOk x.va (gOf x.g) &&
  (if useB then x.scb || grpOk x.vb (gOf x.g) else x.vb == 0 && !x.scb && x.ss == 0) &&
  (if useC then grpOk x.vc (gOf x.g) else x.vc == 0)

def okArith (x : FmtV) : Bool := okLane x true false && x.opx == 0
def okVfma (x : FmtV) : Bool := okLane x true true && x.opx == 0
def okLogic (x : FmtV) : Bool := okArith x && x.mode == 2
def okVcmp (x : FmtV) : Bool :=
  x.mode != 3 && decide (x.vd.toNat < 8) && grpOk x.va (gOf x.g) && (x.scb || grpOk x.vb (gOf x.g)) && x.vc == 0 &&
  decide (x.opx.toNat ≤ 5)
def okVsel (x : FmtV) : Bool := okLane x true false && decide (x.opx.toNat ≤ 7)
def okVsgn (x : FmtV) : Bool := okLane x true false && x.mode != 2 && decide (x.opx.toNat ≤ 2)
def okVcvt (x : FmtV) : Bool :=
  x.mode != 3 && grpOk x.va (gOf x.g) && x.vb == 0 && x.vc == 0 && !x.scb && x.ss == 0 &&
  decide (x.opx.toNat % 4 ≠ 3) && decide (x.opx.toNat / 4 % 4 ≠ 3) && decide (x.opx.toNat < 2 ^ 17) &&
  grpOk x.vd (vcvtRegs x)
def isVrndFmt (f : Fmt) : Bool := f == .fp19 || f == .bf16 || f == .fp16 || isMxFmt f
def okVrnd (x : FmtV) : Bool :=
  okLane x false false && x.mode == 0 && decide (x.opx.toNat / 16 % 4 ≠ 3) && decide (x.opx.toNat < 2 ^ 19) &&
  (match Fmt.ofCode (BitVec.ofNat 4 (x.opx.toNat % 16)) with | some f => isVrndFmt f | none => false)
def okVtr (x : FmtV) : Bool :=
  decide (x.mode.toNat < 2) && grpOk x.va (gOf x.g) && x.vb == 0 && x.vc == 0 && !x.scb && x.ss == 0 &&
  decide (x.opx.toNat ≤ 6) && !(x.mode == 1 && x.g == 3) &&
  grpOk x.vd (if x.mode = 1 then 2 * gOf x.g else gOf x.g)
def okVred (x : FmtV) : Bool :=
  x.mode != 3 && grpOk x.va (gOf x.g) && x.vd == 0 && x.vb == 0 && x.vc == 0 && !x.scb && !x.zero &&
  decide (x.opx.toNat ≤ 4) && !(x.mode == 2 && (x.opx == 1 || x.opx == 4))
def okVcpr (x : FmtV) : Bool :=
  x.mode != 3 && grpOk x.vd (gOf x.g) && grpOk x.va (gOf x.g) && x.vb == 0 && x.vc == 0 && !x.scb && !x.zero && x.opx == 0
def okVxpd (x : FmtV) : Bool := okLane x false false && x.opx == 0

/-- The pairs of mode and memory format that VLD takes (R226). -/
def vldPair (mode : Nat) (f : Fmt) : Bool :=
  match mode with
  | 0 => f.isFloat || f == .e8m0
  | 1 => f == .bf16 || isMxFmt f
  | 2 => f.isInt
  | _ => false
/-- The pairs of mode and memory format that VST takes (R227). -/
def vstPair (mode : Nat) (f : Fmt) : Bool :=
  match mode with
  | 0 => true
  | 1 => f != .e8m0
  | 2 => f.isInt
  | _ => false

def okVld (x : FmtVM) : Bool :=
  x.mode != 3 && grpOk x.vr (gOf x.g) && x.rmode == 0 && !x.sat && !x.rule && x.sti == 0 && x.six == 0 &&
  (match Fmt.ofCode x.fmt with
   | none => false
   | some f => vldPair x.mode.toNat f && (!(isSub8 f) || x.mx) && (!x.mx || isMxFmt f))
def okVst (x : FmtVM) : Bool :=
  x.mode != 3 && grpOk x.vr (gOf x.g) && !x.zero && x.rmode != 3 &&
  (match Fmt.ofCode x.fmt with
   | none => false
   | some f => vstPair x.mode.toNat f && (!(isSub8 f) || x.mx) &&
       (!x.mx || (isMxFmt f && x.pr == 0 && decide (x.mode.toNat < 2))))
def okVB (x : FmtVB) : Bool := x.mode != 3 && grpOk x.vr (gOf x.g)

/-! ### Flow words (R182 to R203) -/

/-- VAL[23:6] is zero where VAL names a scalar (R182). -/
def valOk (immf : Bool) (v : BitVec 24) : Bool := immf || decide (v.toNat < 64)
def okSc (x : FmtC) : Bool := x.cond == 0 && x.tmo == 0 && valOk x.immf x.val
def okWait (x : FmtC) : Bool := decide (x.cond.toNat ≤ 2) && x.tmo != 0 && valOk x.immf x.val
def okSlotpat (x : FmtI) : Bool := x.sd == 0 && x.sa == 0 && decide (x.imm.toNat < 2 ^ 16)
def okLoop (x : FmtL) : Bool := x.count != 0 && x.body != 0
def okRdspec (x : FmtI) : Bool := x.sa == 0 && decide (x.imm.toNat < 2 ^ 12) && decide (x.imm.toNat % 256 ≤ 7)

/-- A word's fields pass the checks that the loader makes from the word alone. -/
def legal : IsaOp → Bool
  | .slotpat x => okSlotpat x
  | .loop x => okLoop x
  | .rdspec x => okRdspec x
  | .cmp x => decide (x.sc.toNat ≤ 5)
  | .li x => x.sa == 0
  | .lih x => decide (x.imm.toNat < 2 ^ 20)
  | .pand x | .por x | .pxor x | .pandn x => x.sd == 0 && x.sa == 0
  | .pfirst x => x.pb == 0 && x.sd == 0
  | .pcnt x => x.pb == 0 && x.sa == 0
  | .scadd x | .scsub x => okSc x
  | .wait x => okWait x
  | .signal x => valOk x.immf x.val
  | .calarm x => x.sb == 0 && decide (x.len.toNat < 1024) && !x.enR
  | .nsend x => !x.enD
  | .nrecv x => !x.enR
  | .mload x => okMload x
  | .mstr x => okMstr x
  | .mstrt x => okMstrt x
  | .mdrain x => okMdrain x
  | .mew x => okMew x
  | .vadd x | .vsub x | .vmul x | .vmin x | .vmax x => okArith x
  | .vfma x => okVfma x
  | .vcmp x => okVcmp x
  | .vsel x => okVsel x
  | .vand x | .vor x | .vxor x | .vshl x | .vshr x | .vsra x => okLogic x
  | .vsgn x => okVsgn x
  | .vcvt x => okVcvt x
  | .vrnd x => okVrnd x
  | .vtr x => okVtr x
  | .vred x => okVred x
  | .vcpr x => okVcpr x
  | .vxpd x => okVxpd x
  | .vcpst x | .vxpld x => okVB x
  | .vld x => okVld x
  | .vst x => okVst x
  | .vstat x => decide (x.sel.toNat ≤ 1)
  | _ => true

end Sys2Proof.Machine
end

