-- ==== Sys2Proof/Machine/ScalarOps.lean ====
section
/-!
DEFINITION. What the scalar, predicate, sync-counter and control instructions do to their core once issued
(R186 to R199). An instruction whose access may be held answers none while it is.
-/

namespace Sys2Proof.Machine

open Sys2Proof

/-! ### Scalar arithmetic (R192) -/

/-- `b` of format R: s[SB] plus the sign-extended immediate. -/
def rB (i : Issue) (x : FmtR) : DWord := i.s x.sb + x.imm.signExtend 64

/-- Writes SD from a and b. -/
def scalarR (op : DWord → DWord → DWord) (i : Issue) (x : FmtR) (r : Run) : Run :=
  r.setS i.st x.sd.toNat (op (i.s x.sa) (rB i x))

def opAdd (a b : DWord) : DWord := a + b
def opSub (a b : DWord) : DWord := a - b
def opMul (a b : DWord) : DWord := a * b
def opAnd (a b : DWord) : DWord := a &&& b
def opOr (a b : DWord) : DWord := a ||| b
def opXor (a b : DWord) : DWord := a ^^^ b
def opShl (a b : DWord) : DWord := a <<< (b.toNat % 64)
def opShr (a b : DWord) : DWord := a >>> (b.toNat % 64)
def opSra (a b : DWord) : DWord := a.sshiftRight (b.toNat % 64)
def opMin (a b : DWord) : DWord := if b.slt a then b else a
def opMax (a b : DWord) : DWord := if a.slt b then b else a
def opMinu (a b : DWord) : DWord := if b.ult a then b else a
def opMaxu (a b : DWord) : DWord := if a.ult b then b else a

/-- The conditions of CMP (R192). -/
def cmpHolds (sc : Nat) (a b : DWord) : Bool :=
  match sc with
  | 0 => a == b
  | 1 => a != b
  | 2 => a.slt b
  | 3 => !(a.slt b)
  | 4 => a.ult b
  | _ => !(a.ult b)

def doCmp (i : Issue) (x : FmtR) (r : Run) : Run :=
  scalarR (fun a b => if cmpHolds x.sc.toNat a b then 1 else 0) i x r

def doSel (i : Issue) (x : FmtR) (r : Run) : Run :=
  scalarR (fun a b => if i.s x.sc ≠ 0 then a else b) i x r

def doLi (i : Issue) (x : FmtI) (r : Run) : Run := r.setS i.st x.sd.toNat (x.imm.signExtend 64)

/-- LIH: IMM44[19:0] above the low 44 bits of s[SA] (R192). -/
def lihVal (x : FmtI) (a : DWord) : DWord := (x.imm.extractLsb' 0 20) ++ (a.extractLsb' 0 44)
def doLih (i : Issue) (x : FmtI) (r : Run) : Run := r.setS i.st x.sd.toNat (lihVal x (i.s x.sa))

/-- The reference of LDS and STS. -/
def refI (i : Issue) (x : FmtI) : DWord := i.s x.sa + x.imm.signExtend 64

/-- LDS: 8 bytes of own memory; zeros where the reference is invalid (R183, R192). -/
def doLds (c : Ctx) (i : Issue) (x : FmtI) (r : Run) : Except Run Run :=
  let a := refI i x
  if cmOk c a 8 true 8 then
    (r.read c i none 0 (refOff a) 8).map (fun p => p.2.setS i.st x.sd.toNat (BitVec.ofNat 64 (leNat p.1)))
  else .ok ((r.addrRange i (a.toNat % 2 ^ 32)).setS i.st x.sd.toNat 0)

/-- STS: 8 bytes to own memory; suppressed where the reference is invalid. -/
def doSts (c : Ctx) (i : Issue) (x : FmtI) (r : Run) : Except Run Run :=
  let a := refI i x
  if cmOk c a 8 true 8 then
    r.write c i none 0 (refOff a) ((leBytes 8 (i.s x.sd).toNat).map some)
  else .ok (r.addrRange i (a.toNat % 2 ^ 32))

/-! ### Predicates (R193) -/

def predOp (op : BitVec 1024 → BitVec 1024 → BitVec 1024) (i : Issue) (x : FmtP) (r : Run) : Run :=
  r.setP i.st x.pd.toNat (op (i.p x.pa) (i.p x.pb))

def opPand (a b : BitVec 1024) : BitVec 1024 := a &&& b
def opPor (a b : BitVec 1024) : BitVec 1024 := a ||| b
def opPxor (a b : BitVec 1024) : BitVec 1024 := a ^^^ b
def opPandn (a b : BitVec 1024) : BitVec 1024 := a &&& ~~~b

/-- The count of PFIRST: a signed sum clamped to 0 to 1,024. -/
def pfirstCount (a : DWord) (imm : Word) : Nat :=
  let n := (a + imm.signExtend 64).toInt
  if n < 0 then 0 else min n.toNat 1024

/-- Bits 0 to n - 1 set. -/
def firstBits (n : Nat) : BitVec 1024 := BitVec.ofNat 1024 (2 ^ n - 1)

def doPfirst (i : Issue) (x : FmtP) (r : Run) : Run :=
  r.setP i.st x.pd.toNat (firstBits (pfirstCount (i.s x.sa) x.imm))

/-- Number of set bits among bits 0 to n - 1. -/
def popCount (p : BitVec 1024) (n : Nat) : Nat := ((List.range n).filter (fun k => p.getLsbD k)).length

def doPcnt (i : Issue) (x : FmtP) (r : Run) : Run :=
  r.setS i.st x.sd.toNat (BitVec.ofNat 64 (popCount (i.p x.pa) 1024))

/-! ### Sync counters (R194 to R197) -/

def doScadd (i : Issue) (x : FmtC) (r : Run) : Run :=
  r.ctrAdd x.ctr.toNat (ctrOperand i x.immf x.val) i.st.codeNat
def doScsub (i : Issue) (x : FmtC) (r : Run) : Run :=
  r.ctrSub x.ctr.toNat (ctrOperand i x.immf x.val) i.st.codeNat

/-- Puts a stream into a phase. -/
def Run.setPhase (r : Run) (st : Stream) (p : Phase) : Run :=
  { r with c := r.c.setStream st { r.c.stream st with phase := p } }

/-- The test of R195 with its consumption: the run if the condition holds. -/
def waitTest (w : WaitRec) (r : Run) : Option Run :=
  let v := tget 0 r.c.ctr w.ctr
  if waitHolds w.cond v w.operand then
    some (if w.cond = 2 then { r with c := { r.c with ctr := tset 0 r.c.ctr w.ctr (v - w.operand) } } else r)
  else none

/-- The wait of a stream, if it waits. -/
def waitOf (x : StreamSt) : Option WaitRec := match x.phase with | .waiting w => some w | _ => none

/-- Streams that come before in the order F, B, U (R196). -/
def before : Stream → List Stream
  | .f => []
  | .b => [.f]
  | .u => [.f, .b]

/-- A consuming wait is not yet tested: an earlier stream's consuming wait on the same counter holds (R196). -/
def earlierHolds (c : Core) (st : Stream) (w : WaitRec) : Bool :=
  w.cond == 2 && (before st).any (fun q => match waitOf (c.stream q) with
    | some y => y.ctr == w.ctr && y.cond == 2 && waitHolds 2 (tget 0 c.ctr y.ctr) y.operand
    | none => false)

/-- WAIT: goes on at once where the condition holds and no earlier stream's consuming wait is to be tested first (R196), else holds the
stream. -/
def doWait (i : Issue) (x : FmtC) (r : Run) : Run :=
  let w : WaitRec := ⟨x.ctr.toNat, x.cond.toNat, ctrOperand i x.immf x.val, x.tmo.toNat⟩
  match (if earlierHolds r.c i.st w then none else waitTest w r) with
  | some r => r
  | none => r.setPhase i.st (.waiting w)

/-- SIGNAL: a network update of a counter of this device after the travel time, or 0x0910 (R197). -/
def doSignal (c : Ctx) (i : Issue) (x : FmtS) (r : Run) : Run :=
  if c.gridW ≤ x.vx.toNat ∨ c.gridH ≤ x.vy.toNat then
    r.addrRange i (x.vx.toNat * 2 ^ 25 + x.vy.toNat * 2 ^ 28)
  else
    let dst := x.vy.toNat * 8 + x.vx.toNat
    r.emit (.flight dst (c.travel.getD dst 0) i.st (opcodeOf i.op)
      [.counter x.ctr.toNat (ctrOperand i x.immf x.val)])

def doHint (x : FmtH) (r : Run) : Run := r.emit (.hint x.cls.toNat x.lead.toNat)

/-! ### Control (R186 to R191) -/

def doStend (i : Issue) (r : Run) : Run := (r.setPhase i.st .ended).emit (.ended i.st)
def doJobend (i : Issue) (r : Run) : Run := r.setPhase i.st (.halted true)
def doCommit (r : Run) : Run := { r with c := { r.c with commits := r.c.commits + 1 } }
def doSlotpat (x : FmtI) (r : Run) : Run := { r with c := { r.c with nextSlots := some (x.imm.extractLsb' 0 16) } }

/-- The value RDSPEC selects (R191). -/
def rdspecVal (c : Ctx) (x : FmtI) : DWord :=
  match x.imm.toNat % 256 with
  | 0 => c.stroke
  | 1 => c.step
  | 2 => BitVec.ofNat 64 c.vx
  | 3 => BitVec.ofNat 64 c.vy
  | 4 => c.seed
  | 5 => c.shards.getD (x.imm.toNat / 256 % 16) (BitVec.allOnes 64)
  | 6 => if c.committed then 1 else 0
  | _ => c.lossScale.zeroExtend 64

def doRdspec (c : Ctx) (i : Issue) (x : FmtI) (r : Run) : Run := r.setS i.st x.sd.toNat (rdspecVal c x)

/-- LOOP: pushes a frame whose body begins at the next word and writes index 0 (R190). `room` says whether the
stream takes the frame. -/
def doLoop (i : Issue) (x : FmtL) (pc : Nat) (room : Bool) (r : Run) : Run :=
  if room then
    let s := r.c.stream i.st
    let fr : LoopFrame := ⟨pc + 1, pc + x.body.toNat, x.count.toNat, 0, x.sd.toNat⟩
    { r with c := r.c.setStream i.st ({ s with loops := fr :: s.loops }.setS x.sd.toNat 0) }
  else r

/-- The program counter and loops after the instruction at `pc` (R181, R190): at the last word of the innermost body the loop
goes round, writing the next index, or ends. -/
def advanceLoops : List LoopFrame → Nat → Nat × List LoopFrame × Option (Nat × Nat)
  | [], pc => (pc + 1, [], none)
  | fr :: frs, pc =>
    if pc = fr.last then
      if fr.iter + 1 < fr.count then
        (fr.first, { fr with iter := fr.iter + 1 } :: frs, some (fr.sd, fr.iter + 1))
      else advanceLoops frs pc
    else (pc + 1, fr :: frs, none)

def StreamSt.advance (s : StreamSt) : StreamSt :=
  let (pc, loops, w) := advanceLoops s.loops s.pc.toNat
  let s := { s with pc := BitVec.ofNat 32 pc, loops := loops }
  match w with
  | none => s
  | some (sd, k) => s.setS sd (BitVec.ofNat 64 k)

/-- FLAGS: the stream's flag word to SD, MASK bits cleared; later flags then join up to the next FLAGS that waits (R229). -/
def doFlags (i : Issue) (x : FmtFlags) (r : Run) : Run :=
  let s := (r.c.stream i.st).setS x.sd.toNat ((r.c.stream i.st).flags.zeroExtend 64)
  let next := r.c.held.filter (fun h => h.st == i.st && decide (i.seq < h.seq) &&
    match h.op with | .flags _ => true | _ => false)
  let lim := match next with | [] => none | h :: _ => some h.seq
  let mine := s.lateFlags.filter (fun p => match lim with | none => true | some n => decide (p.1 < n))
  let rest := s.lateFlags.filter (fun p => match lim with | none => false | some n => !decide (p.1 < n))
  let fl := mine.foldl (fun a p => a ||| p.2) (s.flags &&& ~~~x.mask)
  { r with c := r.c.setStream i.st { s with flags := fl, lateFlags := rest } }

def doVstat (i : Issue) (x : FmtVstat) (r : Run) : Run := r.emit (.vstat x.sel.toNat ((i.s x.sa).truncate 32))

end Sys2Proof.Machine
end

