-- ==== Sys2Proof/Machine/VectorOps.lean ====
section
/-!
DEFINITION. The vector engine (R158 to R168, R218 to R228): lane arithmetic, conversion, reductions, compress and
expand, loads and stores. Every instruction reads all its sources before it writes a register.
-/

namespace Sys2Proof.Machine

open Sys2Proof

/-! ### Elements of a register group (R159) -/

/-- Element `k` of the group that begins at register `r`. -/
def vElem (s : StreamSt) (mode r k : Nat) : Word :=
  if mode = 1 then
    let w := s.vword (64 * r + k / 2)
    if k % 2 = 0 then w &&& 0xFFFF else w >>> 16
  else s.vword (64 * r + k)

def setVElem (s : StreamSt) (mode r k : Nat) (v : Word) : StreamSt :=
  if mode = 1 then
    let w := s.vword (64 * r + k / 2)
    s.setVword (64 * r + k / 2)
      (if k % 2 = 0 then (w &&& 0xFFFF0000) ||| (v &&& 0xFFFF) else (w &&& 0xFFFF) ||| (v <<< 16))
  else s.setVword (64 * r + k) v

/-- Writes the elements given; none keeps an element's value. -/
def setVElems (s : StreamSt) (mode r : Nat) : Nat → List (Option Word) → StreamSt
  | _, [] => s
  | k, none :: vs => setVElems s mode r (k + 1) vs
  | k, some v :: vs => setVElems (setVElem s mode r k v) mode r (k + 1) vs

def Run.setElems (r : Run) (st : Stream) (mode reg : Nat) (vs : List (Option Word)) : Run :=
  { r with c := r.c.setStream st (setVElems (r.c.stream st) mode reg 0 vs) }

/-- Elements of a group in a mode. -/
def vCount (g : BitVec 2) (mode : Nat) : Nat := gOf g * lanesPerReg mode

/-- Applies a function to every active element; inactive ones are kept, or zeroed under ZERO (R164). -/
def vMap (p : BitVec 1024) (zero : Bool) (n : Nat) (f : Nat → Word × Flg) : List (Option Word) × Flg :=
  (List.range n).foldr (fun k acc =>
    if p.getLsbD k then
      let (v, fl) := f k
      (some v :: acc.1, fl ||| acc.2)
    else ((if zero then some 0 else none) :: acc.1, acc.2)) ([], 0)

/-- The computing format of a floating mode. -/
def modeFmt (mode : Nat) : Fmt := if mode = 1 then .bf16 else .fp32

/-- Operand b: an element of VB, or the broadcast scalar (R165). -/
def bElem (i : Issue) (x : FmtV) (s : StreamSt) (k : Nat) : Word :=
  if x.scb then
    let v : Word := (i.s x.ss).truncate 32
    if x.mode = 1 then v &&& 0xFFFF else v
  else vElem s x.mode.toNat x.vb.toNat k

/-- A lane instruction (R219): `op mode a b c`. -/
def vLane (op : Nat → Word → Word → Word → Word × Flg) (i : Issue) (x : FmtV) (r : Run) : Run :=
  let m := x.mode.toNat
  let s := r.c.stream i.st
  let (vs, fl) := vMap (i.p x.pr) x.zero (vCount x.g m) (fun k =>
    op m (vElem s m x.va.toNat k) (bElem i x s k) (vElem s m x.vc.toNat k))
  ((r.setElems i.st m x.vd.toNat vs).raiseFlags i fl).emit (.veBusy (gOf x.g))

/-! ### Lane operations (R162, R163, R219) -/

/-- Sign bit of a computing format. -/
def signBit (mode : Nat) : Word := if mode = 1 then 0x8000 else 0x80000000

def laneAdd (m : Nat) (a b _c : Word) : Word × Flg :=
  if m = 2 then (a + b, 0) else addVals (modeFmt m) (decodeFloat (modeFmt m) a) (decodeFloat (modeFmt m) b)
def laneSub (m : Nat) (a b c : Word) : Word × Flg :=
  if m = 2 then (a - b, 0) else laneAdd m a (b ^^^ signBit m) c
def laneFma (m : Nat) (a b c : Word) : Word × Flg :=
  if m = 2 then (a * b + c, 0)
  else fmaVals (modeFmt m) (decodeFloat (modeFmt m) a) (decodeFloat (modeFmt m) b) (decodeFloat (modeFmt m) c)
def laneMul (m : Nat) (a b _c : Word) : Word × Flg :=
  if m = 2 then (a * b, 0) else laneFma m a b (signBit m)

/-- a precedes b in the order of R163: −0 below +0. Neither is NaN. -/
def fBelow (x y : FVal) : Bool :=
  if x.cls = .inf then x.neg && !(y.cls = .inf && y.neg)
  else if y.cls = .inf then !y.neg
  else if x.mag.m = 0 && y.mag.m = 0 then x.neg && !y.neg
  else x.sv.lt y.sv

/-- Min and max of a floating format (R163): the canonical NaN with NF where an operand is NaN. -/
def fMinMax (f : Fmt) (wantMax : Bool) (a b : Word) : Word × Flg :=
  let x := decodeFloat f a
  let y := decodeFloat f b
  if x.cls = .nan ∨ y.cls = .nan then (f.cnan, flNF)
  else if wantMax then (if fBelow x y then b else a, 0)
  else (if fBelow y x then b else a, 0)

def laneMin (m : Nat) (a b _c : Word) : Word × Flg :=
  if m = 2 then (if b.slt a then b else a, 0) else fMinMax (modeFmt m) false a b
def laneMax (m : Nat) (a b _c : Word) : Word × Flg :=
  if m = 2 then (if a.slt b then b else a, 0) else fMinMax (modeFmt m) true a b

def laneAnd (_m : Nat) (a b _c : Word) : Word × Flg := (a &&& b, 0)
def laneOr (_m : Nat) (a b _c : Word) : Word × Flg := (a ||| b, 0)
def laneXor (_m : Nat) (a b _c : Word) : Word × Flg := (a ^^^ b, 0)
def laneShl (_m : Nat) (a b _c : Word) : Word × Flg := (a <<< (b.toNat % 32), 0)
def laneShr (_m : Nat) (a b _c : Word) : Word × Flg := (a >>> (b.toNat % 32), 0)
def laneSra (_m : Nat) (a b _c : Word) : Word × Flg := (a.sshiftRight (b.toNat % 32), 0)

/-- VSGN (R219): 0 abs, 1 negate, 2 magnitude of a with the sign of b. -/
def laneSgn (op m : Nat) (a b : Word) : Word × Flg :=
  let sb := signBit m
  if (decodeFloat (modeFmt m) a).cls = .nan then ((modeFmt m).cnan, flNF)
  else if op = 0 then (a &&& ~~~sb, 0)
  else if op = 1 then (a ^^^ sb, 0)
  else ((a &&& ~~~sb) ||| (b &&& sb), 0)

/-- Values of a floating compare: −0 equals +0; NaN is unordered (R163). -/
def fLess (x y : FVal) : Bool :=
  x.cls != .nan && y.cls != .nan && !(x.isZero && y.isZero) && fBelow x y
def fEqual (x y : FVal) : Bool :=
  x.cls != .nan && y.cls != .nan &&
    ((x.isZero && y.isZero) || (!(fBelow x y) && !(fBelow y x)))

/-- The conditions of VCMP: 0 EQ, 1 NE, 2 LT, 3 LE, 4 GT, 5 GE. -/
def vcmpHolds (cond m : Nat) (a b : Word) : Bool :=
  let x := decodeFloat (modeFmt m) a
  let y := decodeFloat (modeFmt m) b
  let eq := if m = 2 then a == b else fEqual x y
  let lt := if m = 2 then a.slt b else fLess x y
  let gt := if m = 2 then b.slt a else fLess y x
  match cond with
  | 0 => eq
  | 1 => !eq
  | 2 => lt
  | 3 => lt || eq
  | 4 => gt
  | _ => gt || eq

/-- VCMP (R219): bits of the destination predicate; inactive bits kept, or cleared under ZERO. -/
def doVcmp (i : Issue) (x : FmtV) (r : Run) : Run :=
  let m := x.mode.toNat
  let s := r.c.stream i.st
  let p := i.p x.pr
  let old := pget s.preg (x.vd.toNat % 8)
  let n := vCount x.g m
  let bits := (List.range n).foldl (fun (w : Nat) k =>
    let b := if p.getLsbD k then vcmpHolds x.opx.toNat m (vElem s m x.va.toNat k) (bElem i x s k)
      else !x.zero && old.getLsbD k
    if b then w + 2 ^ k else w) 0
  let rest := old &&& ~~~(firstBits n)
  (r.setP i.st (x.vd.toNat % 8) (rest ||| BitVec.ofNat 1024 bits)).emit (.veBusy (gOf x.g))

/-- VSEL (R219): a where the bit of predicate OPX[2:0] is set, else b, as bits. -/
def doVsel (i : Issue) (x : FmtV) (r : Run) : Run :=
  let q := i.p (x.opx.extractLsb' 0 3)
  let m := x.mode.toNat
  let s := r.c.stream i.st
  let (vs, fl) := vMap (i.p x.pr) x.zero (vCount x.g m) (fun k =>
    (if q.getLsbD k then vElem s m x.va.toNat k else bElem i x s k, 0))
  ((r.setElems i.st m x.vd.toNat vs).raiseFlags i fl).emit (.veBusy (gOf x.g))

def doVsgn (i : Issue) (x : FmtV) (r : Run) : Run :=
  vLane (fun m a b _ => laneSgn x.opx.toNat m a b) i x r

/-! ### Conversions (R220, R221, R222) -/

/-- The seed word of element `k` (R103, R218). -/
def seedWord (c : Ctx) (i : Issue) (sti six : BitVec 6) (k : Nat) : Word :=
  seedBits c.seed i.step ((i.s sti).truncate 32) ((i.s six).toNat % 2 ^ 48 + k)

def modeOf2 (c : Nat) : RMode := (RMode.ofCode (BitVec.ofNat 2 c)).getD .rne

/-- One element of VCVT (R220). -/
def vcvtElem (src dst : Nat) (mode : RMode) (sat : Bool) (r : Word) (b : Word) : Word × Flg :=
  if src = dst then (b, 0)
  else if src = 2 then roundFloat (modeFmt dst) (FVal.ofInt b.toInt) mode sat false r
  else
    let v := decodeFloat (modeFmt src) b
    if dst = 2 then roundInt .int32 v mode r
    else if dst = 0 then roundFloat .fp32 v .rne false false 0
    else roundFloat .bf16 v mode sat false r

/-- VCVT (R220). -/
def doVcvt (c : Ctx) (i : Issue) (x : FmtV) (r : Run) : Run :=
  let m := x.mode.toNat
  let o := x.opx.toNat
  let d := o % 4
  let s := r.c.stream i.st
  let (vs, fl) := vMap (i.p x.pr) x.zero (vCount x.g m) (fun k =>
    vcvtElem m d (modeOf2 (o / 4 % 4)) (o / 16 % 2 == 1)
      (seedWord c i (x.opx.extractLsb' 5 6) (x.opx.extractLsb' 11 6) k) (vElem s m x.va.toNat k))
  ((r.setElems i.st d x.vd.toNat vs).raiseFlags i fl).emit (.veBusy (max (gOf x.g) (vcvtRegs x)))

/-- `vrnd_elem` of R221. -/
def vrndElem (f : Fmt) (b : Word) (mode : RMode) (sat : Bool) (r : Word) : Word × Flg :=
  let v := decodeFloat .fp32 b
  if v.cls = .nan then (0x7FC00000, flNF)
  else
    let (y, fl) := roundFloat f v mode (sat || isSub8 f) false r
    let w := decodeFloat f y
    match w.cls with
    | .nan => (0x7FC00000, fl)
    | .inf => (packInf .fp32 w.neg, fl)
    | .fin => (packFloat .fp32 w.neg w.mag, fl)

/-- VRND (R221). -/
def doVrnd (c : Ctx) (i : Issue) (x : FmtV) (r : Run) : Run :=
  let o := x.opx.toNat
  let f := (Fmt.ofCode (BitVec.ofNat 4 (o % 16))).getD .fp32
  let s := r.c.stream i.st
  let (vs, fl) := vMap (i.p x.pr) x.zero (vCount x.g 0) (fun k =>
    vrndElem f (vElem s 0 x.va.toNat k) (modeOf2 (o / 16 % 4)) (o / 64 % 2 == 1)
      (seedWord c i (x.opx.extractLsb' 7 6) (x.opx.extractLsb' 13 6) k))
  ((r.setElems i.st 0 x.vd.toNat vs).raiseFlags i fl).emit (.veBusy (gOf x.g))

def trFnOf (n : Nat) : TrFn :=
  match n with
  | 0 => .exp | 1 => .log | 2 => .rcp | 3 => .rsqrt | 4 => .tanh | 5 => .sigmoid | _ => .erf

/-- Lane cycles of a transcendental per register (R173). -/
def trCycles : TrFn → Nat
  | .exp => 12 | .log => 16 | .rcp => 7 | .rsqrt => 11 | .tanh => 28 | .sigmoid => 20 | .erf => 18

/-- VTR (R222): BF16 sources enter exactly; the result is FP32. -/
def doVtr (i : Issue) (x : FmtV) (r : Run) : Run :=
  let m := x.mode.toNat
  let fn := trFnOf x.opx.toNat
  let s := r.c.stream i.st
  let (vs, fl) := vMap (i.p x.pr) x.zero (vCount x.g m) (fun k =>
    let e := vElem s m x.va.toNat k
    trEval fn (if m = 1 then e <<< 16 else e))
  ((r.setElems i.st 0 x.vd.toNat vs).raiseFlags i fl).emit
    (.veBusy (trCycles fn * (if m = 1 then 2 * gOf x.g else gOf x.g)))

/-! ### Reductions (R223) -/

/-- Active elements of a group as FP32 or INT32 values; inactive ones are absent. -/
def redLeaves (s : StreamSt) (p : BitVec 1024) (m r n : Nat) : List (Option Word) :=
  (List.range n).map (fun k =>
    if p.getLsbD k then
      let e := vElem s m r k
      some (if m = 1 then e <<< 16 else e)
    else none)

/-- The reduction VRED names and the flags it raises. -/
def redEval (op m : Nat) (xs : List (Option Word)) : DWord × Flg :=
  let int := m == 2
  if op = 4 then
    (BitVec.ofNat 64 (xs.filter (fun o => match o with
      | some v => (decodeFloat .fp32 v).cls != .fin | none => false)).length, 0)
  else
    let sq := xs.map (fun o => o.map (fun v => mulFp32 v v))
    let leaves := if op = 1 then sq.map (fun o => o.map (·.1)) else xs
    let f0 : Flg := if op = 1 then sq.foldl (fun a o => match o with | some p => a ||| p.2 | none => a) 0 else 0
    let cmb : Word → Word → Word × Flg :=
      if op = 2 then fun a b => laneMax (if int then 2 else 0) a b 0
      else if op = 3 then fun a b => laneMin (if int then 2 else 0) a b 0
      else accAdd int
    let (o, f1) := treeRoot cmb leaves
    let v := treeEnd int o
    let f2 := if !int && (decodeFloat .fp32 v).cls == .nan then flNF else 0
    (if int then v.signExtend 64 else v.zeroExtend 64, f0 ||| f1 ||| f2)

/-- VRED (R223). -/
def doVred (i : Issue) (x : FmtV) (r : Run) : Run :=
  let m := x.mode.toNat
  let (v, fl) := redEval x.opx.toNat m (redLeaves (r.c.stream i.st) (i.p x.pr) m x.va.toNat (vCount x.g m))
  ((r.setS i.st x.ss.toNat v).raiseFlags i fl).emit (.veBusy (gOf x.g))

/-! ### Compress and expand (R166, R167, R224) -/

/-- Active elements in ascending index. -/
def activeElems (s : StreamSt) (p : BitVec 1024) (m r n : Nat) : List Word :=
  (List.range n).filterMap (fun k => if p.getLsbD k then some (vElem s m r k) else none)

/-- VCPR (R166). -/
def doVcpr (i : Issue) (x : FmtV) (r : Run) : Run :=
  let m := x.mode.toNat
  let n := vCount x.g m
  let xs := activeElems (r.c.stream i.st) (i.p x.pr) m x.va.toNat n
  let r := r.setElems i.st m x.vd.toNat ((xs ++ List.replicate (n - xs.length) 0).map some)
  (r.setS i.st x.ss.toNat (BitVec.ofNat 64 xs.length)).emit (.veBusy (gOf x.g))

/-- Deals values out to the active positions in ascending order: `f j` for the j-th of them. -/
def expandElems (p : BitVec 1024) (zero : Bool) (f : Nat → Option Word) : Nat → List Nat → List (Option Word)
  | _, [] => []
  | j, k :: ks =>
    if p.getLsbD k then f j :: expandElems p zero f (j + 1) ks
    else (if zero then some 0 else none) :: expandElems p zero f j ks

/-- VXPD (R166). -/
def doVxpd (i : Issue) (x : FmtV) (r : Run) : Run :=
  let m := x.mode.toNat
  let s := r.c.stream i.st
  let vs := expandElems (i.p x.pr) x.zero (fun j => some (vElem s m x.va.toNat j)) 0 (List.range (vCount x.g m))
  (r.setElems i.st m x.vd.toNat vs).emit (.veBusy (gOf x.g))

/-- Buffer element size of a register mode. -/
def bufSize (m : Nat) : Nat := if m = 1 then 2 else 4
/-- Memory format of a register mode (R499). -/
def bufFmt (m : Nat) : Fmt := if m = 1 then .bf16 else if m = 2 then .int32 else .fp32

/-- The new position and the elements beyond the capacity of R167. -/
def bufAdvance (n c cap : Nat) : Nat × Nat := (min (n + c) cap, c - min c (cap - n))

/-- Updates SN and SOV (R167). Where both name one scalar, SOV is written last and stands (DESIGN CHOICE, log entry 137). -/
def Run.bufScalars (r : Run) (i : Issue) (x : FmtVB) (c : Nat) : Run :=
  let (n', lost) := bufAdvance (i.s x.sn).toNat c (i.s x.scap).toNat
  (r.setS i.st x.sn.toNat (BitVec.ofNat 64 n')).setS i.st x.sov.toNat (i.s x.sov + BitVec.ofNat 64 lost)

/-- VCPST (R167, R224). -/
def doVcpst (c : Ctx) (i : Issue) (x : FmtVB) (r : Run) : Except Run Run :=
  let m := x.mode.toNat
  let sz := bufSize m
  let ref := i.s x.sa
  let cap := (i.s x.scap).toNat
  let n := (i.s x.sn).toNat
  let xs := activeElems (r.c.stream i.st) (i.p x.pr) m x.vr.toNat (vCount x.g m)
  let fin := fun (r : Run) => (r.bufScalars i x xs.length).emit (.veBusy (gOf x.g))
  if cmOk c ref (sz * cap) true 64 then
    let bs := (xs.take (cap - n)).flatMap (fun v => leBytes sz v.toNat)
    (r.write c i (some (bufFmt m)) 0 (refOff ref + sz * n) (bs.map some)).map fin
  else .ok (fin (r.addrRange i (ref.toNat % 2 ^ 32)))

/-- VXPLD (R167, R224). -/
def doVxpld (c : Ctx) (i : Issue) (x : FmtVB) (r : Run) : Except Run Run :=
  let m := x.mode.toNat
  let sz := bufSize m
  let ref := i.s x.sa
  let cap := (i.s x.scap).toNat
  let n := (i.s x.sn).toNat
  let p := i.p x.pr
  let act := popCount p (vCount x.g m)
  let k := min act (cap - n)
  let fin := fun (bs : List Byte) (r : Run) =>
    let vs := expandElems p false
      (fun j => if j < k then some (BitVec.ofNat 32 (leNat ((bs.drop (sz * j)).take sz))) else none)
      0 (List.range (vCount x.g m))
    ((r.setElems i.st m x.vr.toNat vs).bufScalars i x act).emit (.veBusy (gOf x.g))
  if cmOk c ref (sz * cap) true 64 then
    (r.read c i (some (bufFmt m)) 0 (refOff ref + sz * n) (sz * k)).map (fun q => fin q.1 q.2)
  else .ok (fin (List.replicate (sz * k) 0) (r.addrRange i (ref.toNat % 2 ^ 32)))

/-! ### Loads and stores (R225 to R227) -/

/-- Alignment of a reference to packed elements (R225): min(64, the bytes of 32 elements). -/
def alignOf (f : Fmt) : Nat := min 64 (4 * f.width)

/-- Element `k` of packed data (R85): bits [w k + w - 1 : w k], little-endian. -/
def packedElem (f : Fmt) (bs : List Byte) (k : Nat) : Word :=
  BitVec.ofNat 32 (bitsAt (leNat bs) (f.width * k) f.width)

/-- Bytes of `n` packed elements. -/
def packedBytes (f : Fmt) (n : Nat) : Nat := (n * f.width + 7) / 8

/-- Successive accesses of `len` bytes each: the joined data. -/
def readRuns (c : Ctx) (i : Issue) (f : Option Fmt) (eng : Nat) : List (Nat × Nat) → Run → Except Run (List Byte × Run)
  | [], r => .ok ([], r)
  | (off, len) :: rs, r => do
    let (bs, r) ← r.read c i f eng off len
    let (rest, r) ← readRuns c i f eng rs r
    return (bs ++ rest, r)

/-- Successive write accesses. -/
def writeRuns (c : Ctx) (i : Issue) (f : Option Fmt) (eng : Nat) : List (Nat × List (Option Byte)) → Run → Except Run Run
  | [], r => .ok r
  | (off, bs) :: rs, r => do
    let r ← r.write c i f eng off bs
    writeRuns c i f eng rs r

/-- One element of VLD (R226). -/
def vldElem (m : Nat) (f : Fmt) (b : Word) (scale : Option Byte) : Word × Flg :=
  if m = 2 then (BitVec.ofInt 32 (decodeInt f b), 0)
  else if f = modeFmt m then (b, 0)
  else if f = .e8m0 then roundFloat .fp32 (decodeE8M0 b) .rne false false 0
  else roundFloat (modeFmt m) (decodeOperand f b scale) .rne false false 0

/-- The data and scale references of VLD and VST are both in range (R225). -/
def vmemOk (c : Ctx) (i : Issue) (x : FmtVM) (f : Fmt) (n : Nat) : Bool × Nat :=
  let a := i.s x.sa
  let s := i.s x.ssc
  if !(cmOk c a (packedBytes f n) true (alignOf f)) then (false, a.toNat % 2 ^ 32)
  else if x.mx && !(cmOk c s (n / 32) true 1) then (false, s.toNat % 2 ^ 32)
  else (true, 0)

/-- VLD (R226). -/
def doVld (c : Ctx) (i : Issue) (x : FmtVM) (r : Run) : Except Run Run :=
  let m := x.mode.toNat
  let f := (Fmt.ofCode x.fmt).getD .fp32
  let n := vCount x.g m
  let per := packedBytes f (lanesPerReg m)
  let fin := fun (sc bs : List Byte) (r : Run) =>
    let (vs, fl) := vMap (i.p x.pr) x.zero n (fun k =>
      vldElem m f (packedElem f bs k) (if x.mx then some (sc.getD (k / 32) 0) else none))
    ((r.setElems i.st m x.vr.toNat vs).raiseFlags i fl).emit (.veBusy (gOf x.g))
  match vmemOk c i x f n with
  | (false, d) =>
    .ok (fin (List.replicate (n / 32) 0) (List.replicate (packedBytes f n) 0) (r.addrRange i d))
  | (true, _) => do
    let (sc, r) ← if x.mx then r.read c i (some .e8m0) 0 (refOff (i.s x.ssc)) (n / 32) else .ok ([], r)
    let (bs, r) ← readRuns c i (some f) 0 ((List.range (gOf x.g)).map (fun j => (refOff (i.s x.sa) + per * j, per))) r
    return fin sc bs r

/-- One element of a plain VST (R227). -/
def vstElem (m : Nat) (f : Fmt) (mode : RMode) (sat : Bool) (r : Word) (b : Word) : Word × Flg :=
  if m = 2 then
    if f = .int32 then (b, 0)
    else
      let v := b.toInt
      if f.imax < v then (encInt f f.imax, flNV)
      else if v < f.imin then (encInt f f.imin, flNV)
      else (encInt f v, 0)
  else if f = modeFmt m then (b, 0)
  else
    let v := decodeFloat (modeFmt m) b
    if f = .e8m0 then toE8M0 v
    else if f.isInt then roundInt f v mode r
    else roundFloat f v mode sat false r

/-- The bytes of packed elements over the old bytes; none for a byte none of whose elements is written. -/
def packElems (f : Fmt) (old : Nat → Byte) (es : List (Option Word)) : List (Option Byte) :=
  if f.width = 4 then
    (List.range ((es.length + 1) / 2)).map (fun k =>
      match es.getD (2 * k) none, es.getD (2 * k + 1) none with
      | none, none => none
      | lo, hi =>
        let o := old k
        let l := match lo with | some v => BitVec.ofNat 8 (v.toNat % 16) | none => o &&& 0x0F
        let h := match hi with | some v => BitVec.ofNat 8 (v.toNat % 16 * 16) | none => o &&& 0xF0
        some (l ||| h))
  else if f.width = 6 then
    let v := es.foldr (fun e acc => acc * 64 + (e.getD 0).toNat % 64) 0
    (leBytes (packedBytes f es.length) v).map some
  else es.flatMap (fun e =>
    match e with
    | some v => (leBytes (f.width / 8) v.toNat).map some
    | none => List.replicate (f.width / 8) none)

/-- The blocks of an MX store: scales, element codes and flags (R227). -/
def mxBlocks (c : Ctx) (i : Issue) (x : FmtVM) (f : Fmt) (vals : List FVal) : Nat → Nat → List Byte × List Word × Flg
  | 0, _ => ([], [], 0)
  | n + 1, b =>
    let (s, es, fl) := mxEncode f ((vals.drop (32 * b)).take 32) x.rule (modeOf2 x.rmode.toNat)
      (fun k => seedWord c i x.sti x.six (32 * b + k))
    let (ss, ess, fls) := mxBlocks c i x f vals n (b + 1)
    (s :: ss, es ++ ess, fl ||| fls)

/-- VST (R227). -/
def doVst (c : Ctx) (i : Issue) (x : FmtVM) (r : Run) : Except Run Run :=
  let m := x.mode.toNat
  let f := (Fmt.ofCode x.fmt).getD .fp32
  let n := vCount x.g m
  let lpr := lanesPerReg m
  let per := packedBytes f lpr
  let s := r.c.stream i.st
  let off := refOff (i.s x.sa)
  let mode := modeOf2 x.rmode.toNat
  let mxv := mxBlocks c i x f ((List.range n).map (fun k => decodeFloat (modeFmt m) (vElem s m x.vr.toNat k))) (n / 32) 0
  let plain := vMap (i.p x.pr) false n (fun k =>
    vstElem m f mode x.sat (seedWord c i x.sti x.six k) (vElem s m x.vr.toNat k))
  let es := if x.mx then mxv.2.1.map some else plain.1
  let fl := if x.mx then mxv.2.2 else plain.2
  let fin := fun (r : Run) => (r.raiseFlags i fl).emit (.veBusy (gOf x.g))
  match vmemOk c i x f n with
  | (false, d) => .ok (fin (r.addrRange i d))
  | (true, _) => do
    let runs := (List.range (gOf x.g)).map (fun j =>
      (off + per * j, packElems f (fun k => byteAt r.c.cm (off + per * j + k)) ((es.drop (lpr * j)).take lpr)))
    let r ← writeRuns c i (some f) 0 runs r
    if x.mx then (r.write c i (some .e8m0) 0 (refOff (i.s x.ssc)) (mxv.1.map some)).map fin else .ok (fin r)

end Sys2Proof.Machine
end

