-- ==== Sys2Proof/Machine/MatrixOps.lean ====
section
/-!
DEFINITION. The matrix engines (R129 to R145, R152 to R155, R208 to R217): stationary loads, streams, transposed streams, drains and
element-wise products. Each access of core memory follows R183 and R249; an instruction whose access is held keeps the rows or groups it is
done with and goes on from there.
-/

namespace Sys2Proof.Machine

open Sys2Proof

def Core.engine (c : Core) (e : Nat) : Engine := tget engine0 c.eng e
def Core.setEngine (c : Core) (e : Nat) (x : Engine) : Core := { c with eng := tset engine0 c.eng e x }

/-! ### Operand rows (R209) -/

/-- A scalar plus a byte distance. -/
def refAdd (a : DWord) (n : Nat) : DWord := a + BitVec.ofNat 64 n

/-- One row or column of `n` elements (R209). Out of range its elements enter as zeros with scale 0x7F, and a scale run out of range reads
as 0x7F. -/
def loadRow (c : Ctx) (i : Issue) (f : Fmt) (mx : Bool) (eng : Nat) (a : DWord) (pitch : Nat) (sc : DWord) (n j : Nat) (r : Run) :
    Except Run (List El × Run) := do
  let row := refAdd a (j * pitch)
  let run := refAdd sc (j * ((n + 31) / 32))
  let ok := cmOk c row (packedBytes f n) true (alignOf f)
  let (bs, r) ← if ok then r.read c i (some f) eng (refOff row) (packedBytes f n) else .ok (List.replicate (packedBytes f n) 0, r)
  let (ss, r) ← if mx && cmOk c run ((n + 31) / 32) true 1 then r.read c i (some .e8m0) eng (refOff run) ((n + 31) / 32) else .ok ([], r)
  return ((List.range n).map (fun k =>
    (⟨packedElem f bs k, if mx then some (if ok then ss.getD (k / 32) 0x7F else 0x7F) else none⟩ : El)), r)

/-- The first reference of a row that is out of range: its data, then its scales. -/
def badRow (c : Ctx) (f : Fmt) (mx : Bool) (a : DWord) (pitch : Nat) (sc : DWord) (n j : Nat) : Option Nat :=
  let row := refAdd a (j * pitch)
  let run := refAdd sc (j * ((n + 31) / 32))
  if !cmOk c row (packedBytes f n) true (alignOf f) then some (row.toNat % 2 ^ 32)
  else if mx && !cmOk c run ((n + 31) / 32) true 1 then some (run.toNat % 2 ^ 32)
  else none

/-- 0x0910 of a matrix instruction: one for each instruction, with its first reference out of range (DESIGN CHOICE, log entry 137). -/
def Run.noteBad (r : Run) (i : Issue) (bad : Option Nat) : Run :=
  match bad with
  | none => r
  | some d => r.addrRange i d

def pitchOf (i : Issue) (sb : BitVec 6) : Nat := (i.s sb).toNat % 2 ^ 24

/-! ### Stationary load (R210) -/

/-- Stores a list at rising keys. -/
def putAll {α : Type} [DecidableEq α] (d : α) (t : Tbl α) (k : Nat) : List α → Tbl α
  | [] => t
  | v :: vs => putAll d (tset d t k v) (k + 1) vs

/-- Elements and scales of the columns from `c` up. -/
def putCols (e : Engine) : Nat → List (List El) → Engine
  | _, [] => e
  | c, col :: cols =>
    let sc := (List.range ((col.length + 31) / 32)).map (fun m => ((col.getD (32 * m) ⟨0, none⟩).scale).getD 0)
    putCols { e with elems := putAll 0 e.elems (256 * c) (col.map (·.bits)), scales := putAll 0 e.scales (8 * c) sc }
      (c + 1) cols

/-- Columns `j`, `j + 1`, … of a stationary tile. -/
def loadCols (c : Ctx) (i : Issue) (f : Fmt) (mx : Bool) (eng : Nat) (a : DWord) (pitch : Nat) (sc : DWord) (k : Nat) :
    Nat → Nat → Run → Except Run (List (List El) × Run)
  | 0, _, r => .ok ([], r)
  | n + 1, j, r => do
    let (col, r) ← loadRow c i f mx eng a pitch sc k j r
    let (cols, r) ← loadCols c i f mx eng a pitch sc k n (j + 1) r
    return (col :: cols, r)

/-- MLOAD (R210): its reads are staged, and the wave follows what is ahead of it in the queue (R132, R145). -/
def doMload (c : Ctx) (i : Issue) (x : FmtMload) (r : Run) : Except Run Run := do
  let f := (Fmt.ofCode x.fmt).getD .fp32
  let k := x.k1.toNat + 1
  let n := x.n1.toNat + 1
  let e := x.eng.toNat
  let (cols, r) ← loadCols c i f x.mx e (i.s x.sa) (pitchOf i x.sb) (i.s x.sc) k n 0 r
  if !r.fin then .error r
  else
    let st := putCols { r.c.engine e with
      tag := some f, mx := x.mx, pieces := x.pieces.toNat, k := k, n := n, elems := [], scales := [] } 0 cols
    let bad := (List.range n).findSome? (badRow c f x.mx (i.s x.sa) (pitchOf i x.sb) (i.s x.sc) k)
    .ok (((Run.noteBad { r with c := r.c.setEngine e st } i bad).emit (.meWave e 64)).emit (.mePlan e 64))

/-! ### Streams (R211, R212) -/

/-- Stationary element (kk, c). -/
def Engine.el (e : Engine) (kk c : Nat) : El :=
  ⟨tget 0 e.elems (256 * c + kk), if e.mx then some (tget 0 e.scales (8 * c + kk / 32)) else none⟩

def tileKey (t row col : Nat) : Nat := 16384 * t + 64 * row + col

/-- Element format that operands imply (R140). -/
def impliedFmt (f : Fmt) : TileFmt := if f.isInt then .int32 else .fp32
def TileFmt.codeNat : TileFmt → Nat
  | .none => 0xF | .fp32 => 0x0 | .int32 => 0xA
def tagNat (t : Option Fmt) : Nat := match t with | none => 0xF | some f => f.code.toNat

/-- `tag_mismatch` of R212: declared format, held format and condition code of R256 for the first condition that holds. -/
def tagMismatch (e : Engine) (x : FmtMstr) (fa fs : Fmt) (targets : List Nat) : Option (Nat × Nat × Nat) :=
  if e.tag ≠ some fs ∨ e.mx ≠ x.mxS then some (fs.code.toNat, tagNat e.tag, 1)
  else if x.pieces.toNat ≠ e.pieces then some (fs.code.toNat, tagNat e.tag, 2)
  else if ktOf (widerFmt fa fs) < e.k then some (fs.code.toNat, tagNat e.tag, 3)
  else if x.begin then none
  else
    match targets.find? (fun t => tget TileFmt.none e.tileFmt t != impliedFmt fa) with
    | none => none
    | some t => some ((impliedFmt fa).codeNat, (tget TileFmt.none e.tileFmt t).codeNat, 4)

/-- One output element of a stream: where it goes, its streamed row index and output index, and its terms. -/
structure OutEl where
  row : Nat
  out : Nat
  tile : Nat
  trow : Nat
  tcol : Nat
  terms : List (El × El)
deriving DecidableEq, Repr

/-- A zero-times-infinity block of an output: block index, streamed row, output, term index, element. -/
structure ZiHit where
  block : Nat
  term : Nat
  o : OutEl
deriving DecidableEq, Repr

/-- The ZI blocks of one output element. -/
def ziHits (fa fb : Fmt) (pieces : Nat) (o : OutEl) : List ZiHit :=
  (blocks64 o.terms).zipIdx.filterMap (fun p => (firstZi fa fb pieces p.1).map (fun t => ⟨p.2, t, o⟩))

def ZiHit.before (a b : ZiHit) : Bool :=
  decide (a.block < b.block) || (a.block == b.block &&
    (decide (a.o.row < b.o.row) || (a.o.row == b.o.row && decide (a.o.out < b.o.out))))

def firstHit : List ZiHit → Option ZiHit
  | [] => none
  | h :: hs => match firstHit hs with
    | none => some h
    | some k => some (if k.before h then k else h)

/-- The capture words of R122. -/
def ziCaps (fa fb : Fmt) (mxA mxB : Bool) (pieces : Nat) (stroke : DWord) (h : ZiHit) : List Nat :=
  let p := (((blocks64 h.o.terms).getD h.block []).getD h.term (⟨0, none⟩, ⟨0, none⟩))
  let sc := fun (e : El) => (e.scale.getD 0).toNat
  [h.o.tile + h.o.trow * 2 ^ 8 + h.o.tcol * 2 ^ 16 + h.term * 2 ^ 24 + (if pieces = 0 then 0 else 2 ^ 30) + 2 ^ 31,
   h.block, p.1.bits.toNat, p.2.bits.toNat,
   sc p.1 + sc p.2 * 2 ^ 8 + fa.code.toNat * 2 ^ 16 + fb.code.toNat * 2 ^ 20 + bitNat mxA * 2 ^ 24 + bitNat mxB * 2 ^ 25,
   stroke.toNat % 2 ^ 32]

/-- Accumulates every output element into its tile (R134, R137): the engine and the flags. -/
def accumulate (ord : SumOrder) (fa fb : Fmt) (pieces : Nat) (begin : Bool) : List OutEl → Engine → Engine × Flg
  | [], e => (e, 0)
  | o :: os, e =>
    let k := tileKey o.tile o.trow o.tcol
    let (v, fl) := dotElem ord fa fb pieces (if begin then none else some (tget 0 e.tiles k)) o.terms
    let e := { e with tiles := tset 0 e.tiles k v,
                      tileFmt := if begin then tset TileFmt.none e.tileFmt o.tile (impliedFmt fa) else e.tileFmt }
    let (e, fls) := accumulate ord fa fb pieces begin os e
    (e, fl ||| fls)

/-- Entry slots of a stream (R215). -/
def entrySlots (fa fs : Fmt) (m pieces : Nat) : Nat :=
  m * (if fa = .fp19 ∨ fs = .fp19 then 2 else 1) * (if pieces = 2 then 3 else if pieces = 3 then 6 else 1)

/-- Outputs of row `j` of MSTR: column c takes the dot product with column c of the tile (R134). -/
def mstrOuts (e : Engine) (t n j : Nat) (row : List El) : List OutEl :=
  (List.range (min n e.n)).map (fun c => ⟨j, c, t + j / 256, j % 256, c, row.zip ((List.range e.k).map (fun kk => e.el kk c))⟩)

/-- Outputs of row `j` of MSTRT: output o takes the dot product over columns (R137). -/
def mstrtOuts (e : Engine) (t n j : Nat) (row : List El) : List OutEl :=
  (List.range e.k).map (fun o =>
    ⟨j, o, t + o / 64, j, o % 64, (row.take (min n e.n)).zip ((List.range (min n e.n)).map (fun c => e.el o c))⟩)

/-! ### The residue check (R152, R153, R155) -/

/-- A residue behind an error in s × 2^24 + g. -/
def residueOff (r : Nat) (delta : Int) : Nat := (((r : Int) + delta) % (m31 : Int)).toNat

/-- What the check reads of a block that a fault has touched: whether it is a class check, the observed and the predicted value. -/
def blockCheck (fa fb : Fmt) (pieces : Nat) (e : BlockErr) (ps : List (El × El)) : Bool × Nat × Nat :=
  if fa.isInt then (false, residueOff (residuePredictInt fa fb ps) e.delta, residuePredictInt fa fb ps)
  else
    let ij := (splitPasses pieces).getD e.pass (0, 0)
    let (ts, ws, w) : List PVal × List (Bool × Nat × Int) × Int :=
      if pieces = 0 then (ps.map (termOf fa fb), ps.map (sigProduct fa fb), windowOf fa fb)
      else (ps.map (fun p => splitTerm p.1.bits p.2.bits ij.1 ij.2 pieces), ps.map (sigSplit pieces ij.1 ij.2), 56)
    if blockFinite ts then (false, residueOff (residueSound (ts.zip ws) w) e.delta, residueOf ws w)
    else (true, e.cls, classPredict ts)

/-- The checked blocks of an output, each with its capture words. -/
def outChecks (fa fb : Fmt) (pieces : Nat) (trans : Bool) (errs : List BlockErr) (o : OutEl) : List ResHit :=
  (errs.filter (fun e => e.row == o.row && e.out == o.out)).filterMap (fun e =>
    (blocks64 o.terms)[e.block]?.map (fun ps =>
      let (cls, obs, pred) := blockCheck fa fb pieces e ps
      let lane := if trans then o.out / 64 else e.block
      ⟨e.block, o.row, o.out, cls, resCap0 o.tile o.trow o.tcol lane cls false trans (pieces != 0),
        if pieces = 0 then e.block else e.block % 2 ^ 28 + 2 ^ 28 * e.pass, obs, pred, o.tile⟩))

/-! ### Streamed rows -/

/-- The block, row and output of a zero-times-infinity term, in the order of R121, with its capture words. -/
def ZiHit.key (h : ZiHit) (caps : List Nat) : Nat × Nat × Nat × List Nat := (h.block, h.o.row, h.o.out, caps)

/-- The earlier of two in the order of R121. -/
def ziEarlier (a : Option (Nat × Nat × Nat × List Nat)) (b : Nat × Nat × Nat × List Nat) : Nat × Nat × Nat × List Nat :=
  match a with
  | none => b
  | some a => if a.1 < b.1 ∨ (a.1 = b.1 ∧ (a.2.1 < b.2.1 ∨ (a.2.1 = b.2.1 ∧ a.2.2.1 ≤ b.2.2.1))) then a else b

/-- Adds to what an instruction reports when it is done: flags, zero-times-infinity blocks, checked blocks. -/
def Run.tally (r : Run) (fl : Flg) (zi : List ZiHit) (caps : ZiHit → List Nat) (res : List ResHit) : Run :=
  { r with prog := { r.prog with
      fl := r.prog.fl ||| fl
      ziCount := r.prog.ziCount + zi.length
      ziFirst := (firstHit zi).elim r.prog.ziFirst (fun h => some (ziEarlier r.prog.ziFirst (h.key (caps h))))
      res := r.prog.res ++ res } }

/-- The next `m` rows of a stream, each as far as R142 lets it enter. -/
def streamRows (c : Ctx) (i : Issue) (x : FmtMstr) (fa fs : Fmt) (trans : Bool) (len : Nat) (outs : Nat → List El → List OutEl) :
    Nat → Run → Except Run Run
  | 0, r => .ok r
  | m + 1, r =>
    if !r.mayTake then .error r
    else do
      let (row, r) ← loadRow c i fa x.mxA x.eng.toNat (i.s x.sa) (pitchOf i x.sb) (i.s x.sc) len r.prog.pos r
      let os := outs r.prog.pos row
      let (e, fl) := accumulate c.order fa fs x.pieces.toNat x.begin os (r.c.engine x.eng.toNat)
      let r := Run.tally { r with c := r.c.setEngine x.eng.toNat e } fl (os.flatMap (ziHits fa fs x.pieces.toNat))
        (ziCaps fa fs x.mxA x.mxS x.pieces.toNat i.stroke) (os.flatMap (outChecks fa fs x.pieces.toNat trans i.errs))
      streamRows c i x fa fs trans len outs m r.rowDone

/-- What a stream or an element-wise instruction reports when it is done (R121, R155, R217). -/
def Run.report (r : Run) (i : Issue) (eng : Nat) : Run :=
  let r := r.raiseFlags i r.prog.fl
  let r := match r.prog.ziFirst with
    | none => r
    | some z => r.emit (.zi eng r.prog.ziCount i.st.codeNat z.2.2.2)
  if r.prog.res.isEmpty then r else r.emit (.residue eng i.st (r.prog.ord.getD 0) i.stroke r.prog.res)

/-- A stream instruction. `len` is the element count of a streamed row, `outs` the outputs of one. -/
def doStream (c : Ctx) (i : Issue) (x : FmtMstr) (trans : Bool) (targets : Engine → List Nat) (len : Engine → Nat)
    (outs : Engine → Nat → List El → List OutEl) (r : Run) : Except Run Run := do
  let fa := (Fmt.ofCode x.fmtA).getD .fp32
  let fs := (Fmt.ofCode x.fmtS).getD .fp32
  let e := x.eng.toNat
  let m := x.m1.toNat + 1
  let slots := entrySlots fa fs m x.pieces.toNat
  let st := r.c.engine e
  match tagMismatch st x fa fs (targets st) with
  | some (d, h, cond) => .ok ((r.formatTag i e d h cond).emit (.mePlan e slots))
  | none => do
    let r ← streamRows c i x fa fs trans (len st) (outs st) (m - r.prog.pos) r
    let bad := (List.range m).findSome? (badRow c fa x.mxA (i.s x.sa) (pitchOf i x.sb) (i.s x.sc) (len st))
    return ((Run.noteBad r i bad).report i e).emit (.meWork e slots)

/-- MSTR (R134, R211). -/
def doMstr (c : Ctx) (i : Issue) (x : FmtMstr) (r : Run) : Except Run Run :=
  let t := x.tile.toNat
  doStream c i x false (fun _ => List.range' t (x.m1.toNat / 256 + 1)) (fun e => e.k) (fun e => mstrOuts e t (x.n1.toNat + 1)) r

/-- MSTRT (R137, R211). -/
def doMstrt (c : Ctx) (i : Issue) (x : FmtMstr) (r : Run) : Except Run Run :=
  let t := x.tile.toNat
  doStream c i x true (fun e => List.range' t ((e.k + 63) / 64)) (fun _ => x.n1.toNat + 1)
    (fun e => mstrtOuts e t (x.n1.toNat + 1)) r

/-! ### Drain (R141, R213) -/

/-- Targets a tile admits (R141). -/
def tileAdmits (t : TileFmt) (f : Fmt) : Bool :=
  match t with
  | .none => false
  | .fp32 => f == .fp32 || f == .bf16 || f == .fp16 || f == .e4m3 || f == .e5m2
  | .int32 => f == .int32

/-- One row of a drain: its scales, data bytes and flags. `r k` is the seed word of column k. -/
def drainRow (f : Fmt) (mx : Bool) (mode : RMode) (sat rule : Bool) (r : Nat → Word) (v : List Word) :
    List Byte × List Byte × Flg :=
  if f = .fp32 ∨ f = .int32 then ([], v.flatMap (fun w => leBytes 4 w.toNat), 0)
  else if mx then
    (List.range ((v.length + 31) / 32)).foldr (fun b acc =>
      let xs := (List.range 32).map (fun k => match v[32 * b + k]? with
        | some w => decodeFloat .fp32 w
        | none => ⟨.fin, false, Dy.zero⟩)
      let (s, es, fl) := mxEncode f xs rule mode (fun k => r (32 * b + k))
      (s :: acc.1, es.flatMap (fun w => leBytes 1 w.toNat) ++ acc.2.1, fl ||| acc.2.2)) ([], [], 0)
  else
    v.zipIdx.foldr (fun p acc =>
      let (w, fl) := roundFloat f (decodeFloat .fp32 p.1) mode sat false (r p.2)
      ([], leBytes (f.width / 8) w.toNat ++ acc.2.1, fl ||| acc.2.2)) ([], [], 0)

/-- A write of one destination row, suppressed where its reference is out of range. -/
def writeRow (c : Ctx) (i : Issue) (f : Fmt) (eng : Nat) (a : DWord) (align : Nat) (bs : List Byte) (r : Run) : Except Run Run :=
  if !bs.isEmpty && cmOk c a bs.length true align then r.write c i (some f) eng (refOff a) (bs.map some) else .ok r

/-- The place of row `j` of a drain: its data and its scales (R209, R213). -/
def drainDst (i : Issue) (x : FmtMdrain) (j : Nat) : DWord :=
  refAdd (i.s x.sa) (j * ((i.s x.sc).toNat / 2 ^ 32) * (((Fmt.ofCode x.fmt).getD .fp32).width / 8))
def drainScl (i : Issue) (x : FmtMdrain) (j : Nat) : DWord := refAdd (i.s x.sd) (j * (((i.s x.sc).toNat / 2 ^ 32 + 31) / 32))

/-- Row `j` of a drain as the tile stands (R213). -/
def drainedRow (c : Ctx) (i : Issue) (x : FmtMdrain) (j : Nat) (e : Engine) : List Byte × List Byte × Flg :=
  drainRow ((Fmt.ofCode x.fmt).getD .fp32) x.mx (modeOf2 x.rmode.toNat) x.sat x.rule
    (fun k => seedBits c.seed i.step ((i.s x.sc).truncate 32) ((i.s x.sb).toNat % 2 ^ 48 + j * ((i.s x.sc).toNat / 2 ^ 32) + k))
    ((List.range (x.n1.toNat + 1)).map (fun k => tget 0 e.tiles (tileKey x.tile.toNat j k)))

/-- Alignment of row `j` of a drain (R209). -/
def drainAlign (x : FmtMdrain) (j : Nat) : Nat := if j = 0 then 64 else ((Fmt.ofCode x.fmt).getD .fp32).width / 8

/-- The next `m` rows of a drain, each as far as R142 lets it be read. -/
def drainRows (c : Ctx) (i : Issue) (x : FmtMdrain) : Nat → Run → Except Run Run
  | 0, r => .ok r
  | m + 1, r =>
    if !r.mayTake then .error r
    else do
      let j := r.prog.pos
      let e := x.eng.toNat
      let row := drainedRow c i x j (r.c.engine e)
      let r ← writeRow c i ((Fmt.ofCode x.fmt).getD .fp32) e (drainDst i x j) (drainAlign x j) row.2.1 r
      let r ← writeRow c i .e8m0 e (drainScl i x j) 1 row.1 r
      drainRows c i x m (r.tally row.2.2 [] (fun _ => []) []).rowDone

/-- The first destination row of a drain that is out of range, data before scales (R209). -/
def drainBad (c : Ctx) (i : Issue) (x : FmtMdrain) (j : Nat) : Option Nat :=
  let n := x.n1.toNat + 1
  let d := drainDst i x j
  let q := drainScl i x j
  if !cmOk c d (if x.mx then 32 * ((n + 31) / 32) else n * (((Fmt.ofCode x.fmt).getD .fp32).width / 8)) true (drainAlign x j) then
    some (d.toNat % 2 ^ 32)
  else if x.mx && !cmOk c q ((n + 31) / 32) true 1 then some (q.toNat % 2 ^ 32)
  else none

/-- MDRAIN (R141, R213). The tile's element format is looked at when its first row is. -/
def doMdrain (c : Ctx) (i : Issue) (x : FmtMdrain) (r : Run) : Except Run Run := do
  let f := (Fmt.ofCode x.fmt).getD .fp32
  let e := x.eng.toNat
  let tf := tget TileFmt.none (r.c.engine e).tileFmt x.tile.toNat
  if r.prog.pos = 0 ∧ r.mayTake = true ∧ tileAdmits tf f = false then .ok (r.formatTag i e f.code.toNat tf.codeNat 5)
  else
    let r ← drainRows c i x (x.r1.toNat + 1 - r.prog.pos) r
    return (r.noteBad i ((List.range (x.r1.toNat + 1)).findSome? (drainBad c i x))).raiseFlags i r.prog.fl

/-! ### Element-wise products (R144, R214) -/

/-- The check of one product of an element-wise instruction against the array's exact product (R152): the model gives its group as block
and its place in the group as column (DESIGN CHOICE, log entry 137). -/
def ewCheck (fa fb : Fmt) (per k : Nat) (e : BlockErr) (xa xb : Word) : ResHit :=
  let t := termOf fa fb (⟨xa, none⟩, ⟨xb, none⟩)
  let m := (sigProduct fa fb (⟨xa, none⟩, ⟨xb, none⟩)).2.1 % m31
  let (cls, obs, pred) := if t.cls = .fin then (false, residueOff m e.delta, m) else (true, e.cls, classPredict [t])
  ⟨k / per, 0, k % per, cls, resCap0 0 0 (k % per) 0 cls false false false, k / per, obs, pred, 0⟩

/-- The next `n` groups of `per` elements of an element-wise instruction. Each group is read before it is written, so one whose sources an
earlier group has overwritten reads what that group wrote (DESIGN CHOICE, log entry 137). -/
def ewGroups (c : Ctx) (i : Issue) (x : FmtMew) (fa fb : Fmt) (okA okB okD : Bool) (per len : Nat) : Nat → Run → Except Run Run
  | 0, r => .ok r
  | n + 1, r => do
    let g := r.prog.pos
    let cnt := min per (len - g * per)
    let eng := x.eng.toNat
    let (xa, r) ← if okA then r.read c i (some fa) eng (refOff (i.s x.sa) + packedBytes fa (g * per)) (packedBytes fa cnt)
      else .ok (List.replicate (packedBytes fa cnt) 0, r)
    let (xb, r) ← if okB then r.read c i (some fb) eng (refOff (i.s x.sb) + packedBytes fb (g * per)) (packedBytes fb cnt)
      else .ok (List.replicate (packedBytes fb cnt) 0, r)
    let ps := (List.range cnt).map (fun k => ewProduct fa fb (packedElem fa xa k) (packedElem fb xb k))
    let res := (i.errs.filter (fun e => decide (g * per ≤ e.out ∧ e.out < g * per + cnt))).map (fun e =>
      ewCheck fa fb per e.out e (packedElem fa xa (e.out - g * per)) (packedElem fb xb (e.out - g * per)))
    let bs := ps.flatMap (fun p => leBytes 4 p.1.toNat)
    let r ← if okD then r.write c i (some .fp32) eng (refOff (i.s x.sc) + 4 * (g * per)) (bs.map some) else .ok r
    ewGroups c i x fa fb okA okB okD per len n
      (r.tally (ps.foldl (fun a p => a ||| p.2) 0) [] (fun _ => []) res).rowDone

/-- MEW (R144, R214). -/
def doMew (c : Ctx) (i : Issue) (x : FmtMew) (r : Run) : Except Run Run := do
  let fa := (Fmt.ofCode x.fmtA).getD .bf16
  let fb := (Fmt.ofCode x.fmtB).getD .bf16
  let len := x.l1.toNat + 1
  let okA := cmOk c (i.s x.sa) (packedBytes fa len) true (alignOf fa)
  let okB := cmOk c (i.s x.sb) (packedBytes fb len) true (alignOf fb)
  let okD := cmOk c (i.s x.sc) (4 * len) true 64
  let wide := fa == .fp19 || fb == .fp19
  let per := if wide then 32 else 64
  let n := (len + per - 1) / per
  let bad := if !okA then some ((i.s x.sa).toNat % 2 ^ 32) else if !okB then some ((i.s x.sb).toNat % 2 ^ 32)
    else if !okD then some ((i.s x.sc).toNat % 2 ^ 32) else none
  let r ← ewGroups c i x fa fb okA okB okD per len (n - r.prog.pos) r
  return ((r.noteBad i bad).report i x.eng.toNat).emit (.meWork x.eng.toNat (if wide then 2 * n else n))

end Sys2Proof.Machine
end

