-- ==== Sys2Proof/Machine/MoverOps.lean ====
section
/-!
DEFINITION. The movement unit's instructions (R200 to R206): what each reads from its own core, and what it hands to the on-die network,
the calendars, the narrow path and the fabric.
-/

namespace Sys2Proof.Machine

open Sys2Proof

/-- Reads `n` granules from an offset, one access each (R200). -/
def readGrains (c : Ctx) (i : Issue) (off : Nat) (n : Nat) (r : Run) : Except Run (List Byte × Run) :=
  readRuns c i none 0 ((List.range n).map (fun k => (off + 64 * k, 64))) r

/-- Reads a list of any length through the MU's read port, granule by granule. -/
def readSpan (c : Ctx) (i : Issue) (off len : Nat) (r : Run) : Except Run (List Byte × Run) :=
  readRuns c i none 0 ((granules off len).map (fun g =>
    (max off (64 * g), min (off + len) (64 * g + 64) - max off (64 * g)))) r

/-- Cuts a list of bytes into granules at rising offsets. -/
def grainItems (off : Nat) : Nat → List Byte → List Item
  | 0, _ => []
  | n + 1, bs => .granule off (bs.take 64) :: grainItems (off + 64) n (bs.drop 64)

/-- The position that takes CTR_D of a copy whose destination reference is faulty (R201). -/
def ctrTarget (c : Ctx) (a : DWord) : Nat :=
  if refSelf a then c.self
  else if refVx a < c.gridW ∧ refVy a < c.gridH then refVy a * 8 + refVx a else c.self

/-- A copy on one core whose destination begins inside its source. -/
def overlaps (c : Ctx) (src dst : DWord) (g : Nat) : Bool :=
  decide (refPos c src = refPos c dst ∧ refOff src < refOff dst ∧ refOff dst < refOff src + 64 * g)

/-- The next `n` granules of such a copy: each lands before the next is read (R201). -/
def copyInPlace (c : Ctx) (i : Issue) (src dst : Nat) : Nat → Run → Except Run Run
  | 0, r => .ok r
  | n + 1, r => do
    let k := r.prog.pos
    let (bs, r) ← r.read c i none 0 (src + 64 * k) 64
    let r ← r.write c i none 0 (dst + 64 * k) (bs.map some)
    copyInPlace c i src dst n r.rowDone

/-- The next `n` granules of any other copy, behind those it has read in this try. What it has read goes on its way where a read is held. -/
def copyOut (c : Ctx) (i : Issue) (src dst : Nat) (send : List Item → Run → Run) : Nat → List Item → Run → Except Run (List Item × Run)
  | 0, done, r => .ok (done, r)
  | n + 1, done, r =>
    match r.read c i none 0 (src + 64 * r.prog.pos) 64 with
    | .error r => .error (send done r)
    | .ok (bs, q) => copyOut c i src dst send n (done ++ [.granule (dst + 64 * r.prog.pos) bs]) q.rowDone

/-- The update of CTR_D at a position: an MU update at the issuing core, a network update elsewhere (R200). -/
def copyDone (c : Ctx) (x : FmtM) (pos : Nat) : List Item :=
  if !x.enD then [] else if pos = c.self then [.done pos x.ctrD.toNat] else [.counter x.ctrD.toNat 1]

/-- MCOPY (R201). -/
def doMcopy (c : Ctx) (i : Issue) (x : FmtM) (r : Run) : Except Run Run := do
  let src := i.s x.sa
  let dst := i.s x.sb
  let g := x.len.toNat
  let okS := cmOk c src (64 * g) true 64
  let okD := cmOk c dst (64 * g) false 64
  let pos := if okD then refPos c dst else ctrTarget c dst
  let send := fun (items : List Item) (r : Run) => r.emit (.flight pos (c.travel.getD pos 0) i.st (opcodeOf i.op) items)
  let (items, r) ←
    if !(okS && okD) then
      .ok (if okD then grainItems (refOff dst) g (List.replicate (64 * g) 0) else [],
        r.addrRange i ((if okS then dst else src).toNat % 2 ^ 32))
    else if overlaps c src dst g then (copyInPlace c i (refOff src) (refOff dst) (g - r.prog.pos) r).map (fun r => ([], r))
    else copyOut c i (refOff src) (refOff dst) send (g - r.prog.pos) [] r
  return send (items ++ copyDone c x pos) (r.ctrUp (enCtr x.enR x.ctrR) 4)

def ticket0 : Option Ticket := none

/-- CALARM (R202): held while the ticket's previous run is incomplete. -/
def doCalarm (c : Ctx) (i : Issue) (x : FmtM) (r : Run) : Except Run Run :=
  let n := x.len.toNat % 1024
  let buf := i.s x.sa
  let ok := cmOk c buf (64 * tget 0 c.ticketLens n) true 64
  match tget ticket0 r.c.tickets n with
  | some _ => .error r
  | none =>
    let r := if ok then r else r.addrRange i (buf.toNat % 2 ^ 32)
    .ok (Run.emit { r with c := { r.c with
      tickets := tset ticket0 r.c.tickets n (some ⟨buf, ok, enCtr x.enD x.ctrD, i.st⟩) } } (.armed n))

/-- Words of a byte list. -/
def wordsOf : Nat → List Byte → List Word
  | 0, _ => []
  | n + 1, bs => BitVec.ofNat 32 (leNat (bs.take 4)) :: wordsOf n (bs.drop 4)

/-- The index list of GATHER and SCATTER: zeros where its reference is faulty. -/
def readIndices (c : Ctx) (i : Issue) (a : DWord) (rows : Nat) (r : Run) : Except Run (List Word × Run) :=
  if cmOk c a (4 * rows) true 4 then
    (readSpan c i (refOff a) (4 * rows) r).map (fun q => (wordsOf rows q.1, q.2))
  else .ok (List.replicate rows 0, r)

/-- 0x0910 for the first reference of a list that is faulty. -/
def Run.noteRefs (r : Run) (i : Issue) (refs : List (Bool × DWord)) : Run :=
  match refs.find? (fun q => !q.1) with
  | none => r
  | some q => r.addrRange i (q.2.toNat % 2 ^ 32)

def narrowRows (x : FmtM) : Nat := x.len.toNat % 4096
def narrowTable (x : FmtM) : Nat := x.len.toNat / 4096

/-- GATHER (R203). `rowBytes` is the table's row size. -/
def doGather (c : Ctx) (i : Issue) (x : FmtM) (rowBytes : Nat) (r : Run) : Except Run Run := do
  let rows := narrowRows x
  let dst := i.s x.sb
  let (idx, r) ← readIndices c i (i.s x.sa) rows r
  let ok := cmOk c dst (rows * rowBytes) true 32
  let r := r.noteRefs i [(cmOk c (i.s x.sa) (4 * rows) true 4, i.s x.sa), (ok, dst)]
  return (r.ctrUp (enCtr x.enR x.ctrR) 4).emit (.narrow ⟨false, narrowTable x, idx, [], dst, ok, [], enCtr x.enD x.ctrD, i.st⟩)

/-- SCATTER (R203). -/
def doScatter (c : Ctx) (i : Issue) (x : FmtM) (rowBytes : Nat) (r : Run) : Except Run Run := do
  let rows := narrowRows x
  let src := i.s x.sb
  let (idx, r) ← readIndices c i (i.s x.sa) rows r
  let ok := cmOk c src (rows * rowBytes) true 32
  let (data, r) ← if ok then readSpan c i (refOff src) (rows * rowBytes) r else .ok (List.replicate (rows * rowBytes) 0, r)
  let r := r.noteRefs i [(cmOk c (i.s x.sa) (4 * rows) true 4, i.s x.sa), (ok, src)]
  return (r.ctrUp (enCtr x.enR x.ctrR) 4).emit (.narrow ⟨true, narrowTable x, idx, data, src, ok, [], enCtr x.enD x.ctrD, i.st⟩)

/-- Reads a 64-byte descriptor in one access (R498); none inside where its reference fails `cm_ok`. -/
def readDesc (c : Ctx) (i : Issue) (a : DWord) (r : Run) : Except Run (Option (List Byte) × Run) :=
  if cmOk c a 64 true 64 then (r.read c i none 0 (refOff a) 64).map (fun q => (some q.1, q.2)) else .ok (none, r)

/-- Reads the source of NSEND and NCOLL: zeros with 0x0910 where its reference is faulty. -/
def readSource (c : Ctx) (i : Issue) (a : DWord) (n : Nat) (r : Run) : Except Run (List Byte × Run) :=
  if cmOk c a (64 * n) true 64 then readGrains c i (refOff a) n r
  else .ok (List.replicate (64 * n) 0, r.addrRange i (a.toNat % 2 ^ 32))

/-- NSEND (R204). -/
def doNsend (c : Ctx) (i : Issue) (x : FmtM) (r : Run) : Except Run Run := do
  let (d, r) ← readDesc c i (i.s x.sb) r
  let (bs, r) ← readSource c i (i.s x.sa) x.len.toNat r
  return (r.ctrUp (enCtr x.enR x.ctrR) 4).emit (.nsend i.st d bs ((i.s x.sb).toNat % 2 ^ 32))

/-- NRECV (R205). -/
def doNrecv (c : Ctx) (i : Issue) (x : FmtM) (r : Run) : Except Run Run := do
  let (d, r) ← readDesc c i (i.s x.sb) r
  let dst := i.s x.sa
  let ok := cmOk c dst (64 * x.len.toNat) true 64
  let r := if ok then r else r.addrRange i (dst.toNat % 2 ^ 32)
  return r.emit (.nrecv i.st d (if ok then dst else BitVec.allOnes 64) x.len.toNat (enCtr x.enD x.ctrD) ((i.s x.sb).toNat % 2 ^ 32))

/-- NCOLL (R206): its contribution belongs to the step in which it issued. -/
def doNcoll (c : Ctx) (i : Issue) (x : FmtM) (r : Run) : Except Run Run := do
  let (d, r) ← readDesc c i (i.s x.sb) r
  let (bs, r) ← readSource c i (i.s x.sa) x.len.toNat r
  return (r.ctrUp (enCtr x.enR x.ctrR) 4).emit (.ncoll i.st i.step d bs (enCtr x.enD x.ctrD) ((i.s x.sb).toNat % 2 ^ 32))

end Sys2Proof.Machine
end

