-- ==== Sys2Proof/Machine/Issue.lean ====
section
/-!
DEFINITION. The issue of an instruction (R68, R180, R181, R184): whether it may issue, what it does, which instructions are held, and
how its effects outside the core are carried out.
-/

namespace Sys2Proof.Machine

open Sys2Proof

/-! ### Registers an instruction uses (R184) -/

/-- Scalars read, predicates read; scalars, predicates and vector registers written. -/
structure RegUse where
  sR : List Nat
  pR : List Nat
  sW : List Nat
  pW : List Nat
  vW : List Nat
deriving DecidableEq, Repr

def useVal (immf : Bool) (v : BitVec 24) : List Nat := if immf then [] else [v.toNat % 64]
def group (r : BitVec 5) (n : Nat) : List Nat := (List.range n).map (fun k => r.toNat + k)
def useR (x : FmtR) : RegUse := ⟨[x.sa.toNat, x.sb.toNat], [], [x.sd.toNat], [], []⟩
def useP (x : FmtP) : RegUse := ⟨[], [x.pa.toNat, x.pb.toNat], [], [x.pd.toNat], []⟩
def useM (x : FmtM) : RegUse := ⟨[x.sa.toNat, x.sb.toNat], [], [], [], []⟩
def useStr (x : FmtMstr) : RegUse := ⟨[x.sa.toNat, x.sb.toNat, x.sc.toNat], [], [], [], []⟩
def useV (x : FmtV) : RegUse :=
  ⟨if x.scb then [x.ss.toNat] else [], [x.pr.toNat], [], [], group x.vd (gOf x.g)⟩

def regUse : IsaOp → RegUse
  | .nop | .stend | .jobend | .commit | .slotpat _ | .hint _ => ⟨[], [], [], [], []⟩
  | .loop x => ⟨[], [], [x.sd.toNat], [], []⟩
  | .rdspec x => ⟨[], [], [x.sd.toNat], [], []⟩
  | .add x | .sub x | .mul x | .and x | .or x | .xor x | .shl x | .shr x | .sra x | .min x | .max x | .minu x | .maxu x
  | .cmp x => useR x
  | .sel x => ⟨[x.sa.toNat, x.sb.toNat, x.sc.toNat], [], [x.sd.toNat], [], []⟩
  | .li x => ⟨[], [], [x.sd.toNat], [], []⟩
  | .lih x => ⟨[x.sa.toNat], [], [x.sd.toNat], [], []⟩
  | .lds x => ⟨[x.sa.toNat], [], [x.sd.toNat], [], []⟩
  | .sts x => ⟨[x.sa.toNat, x.sd.toNat], [], [], [], []⟩
  | .pand x | .por x | .pxor x | .pandn x => useP x
  | .pfirst x => ⟨[x.sa.toNat], [], [], [x.pd.toNat], []⟩
  | .pcnt x => ⟨[], [x.pa.toNat], [x.sd.toNat], [], []⟩
  | .scadd x | .scsub x | .wait x => ⟨useVal x.immf x.val, [], [], [], []⟩
  | .signal x => ⟨useVal x.immf x.val, [], [], [], []⟩
  | .mcopy x | .calarm x | .gather x | .scatter x | .nsend x | .nrecv x | .ncoll x => useM x
  | .mload x => ⟨[x.sa.toNat, x.sb.toNat, x.sc.toNat], [], [], [], []⟩
  | .mstr x | .mstrt x => useStr x
  | .mdrain x => ⟨[x.sa.toNat, x.sb.toNat, x.sc.toNat, x.sd.toNat], [], [], [], []⟩
  | .mew x => ⟨[x.sa.toNat, x.sb.toNat, x.sc.toNat], [], [], [], []⟩
  | .vadd x | .vsub x | .vmul x | .vfma x | .vmin x | .vmax x | .vand x | .vor x | .vxor x | .vshl x | .vshr x
  | .vsra x | .vsgn x | .vxpd x => useV x
  | .vsel x => { useV x with pR := [x.pr.toNat, x.opx.toNat % 8] }
  | .vcmp x => ⟨if x.scb then [x.ss.toNat] else [], [x.pr.toNat], [], [x.vd.toNat % 8], []⟩
  | .vcvt x => ⟨[(x.opx.extractLsb' 5 6).toNat, (x.opx.extractLsb' 11 6).toNat], [x.pr.toNat], [], [], group x.vd (vcvtRegs x)⟩
  | .vrnd x => ⟨[(x.opx.extractLsb' 7 6).toNat, (x.opx.extractLsb' 13 6).toNat], [x.pr.toNat], [], [], group x.vd (gOf x.g)⟩
  | .vtr x => ⟨[], [x.pr.toNat], [], [], group x.vd (if x.mode = 1 then 2 * gOf x.g else gOf x.g)⟩
  | .vred x => ⟨[], [x.pr.toNat], [x.ss.toNat], [], []⟩
  | .vcpr x => ⟨[], [x.pr.toNat], [x.ss.toNat], [], group x.vd (gOf x.g)⟩
  | .vcpst x => ⟨[x.sa.toNat, x.sn.toNat, x.scap.toNat, x.sov.toNat], [x.pr.toNat], [x.sn.toNat, x.sov.toNat], [], []⟩
  | .vxpld x => ⟨[x.sa.toNat, x.sn.toNat, x.scap.toNat, x.sov.toNat], [x.pr.toNat], [x.sn.toNat, x.sov.toNat], [],
      group x.vr (gOf x.g)⟩
  | .vld x => ⟨[x.sa.toNat, x.ssc.toNat], [x.pr.toNat], [], [], group x.vr (gOf x.g)⟩
  | .vst x => ⟨[x.sa.toNat, x.ssc.toNat, x.sti.toNat, x.six.toNat], [x.pr.toNat], [], [], []⟩
  | .flags x => ⟨[], [], [x.sd.toNat], [], []⟩
  | .vstat x => ⟨[x.sa.toNat], [], [], [], []⟩

def meets (a b : List Nat) (none_ : Nat) : Bool := a.any (fun k => k != none_ && b.contains k)

/-- A register that the instruction reads or writes has a write pending from a held instruction of its stream (R184). -/
def clashes (u h : RegUse) : Bool :=
  meets (u.sR ++ u.sW) h.sW 0 || meets (u.pR ++ u.pW) h.pW 0 || meets u.vW h.vW 32

/-! ### Units and their queues (R143, R161, R200) -/

/-- Where an instruction executes. -/
inductive ExecUnit
  | control
  | lanes
  | mover
  | engine (e : Nat)
deriving DecidableEq, Repr

def isMover : IsaOp → Bool
  | .mcopy _ | .calarm _ | .gather _ | .scatter _ | .nsend _ | .nrecv _ | .ncoll _ => true
  | _ => false

def unitOf (op : IsaOp) : ExecUnit :=
  match engineOf op with
  | some e => .engine e
  | none => if isVector op then .lanes else if isMover op then .mover else .control

def isDrain : IsaOp → Bool
  | .mdrain _ => true
  | _ => false

def isLoad : IsaOp → Bool
  | .mload _ => true
  | _ => false

def isFlags : IsaOp → Bool
  | .flags _ => true
  | _ => false

def isScalarMem : IsaOp → Bool
  | .lds _ | .sts _ => true
  | _ => false

/-- A held instruction `h` issued earlier keeps `i` from beginning: queue order, but that a drain proceeds alongside what is ahead of it, and
what is behind a drain alongside it, row by row (R142, R143, R145), and that a stationary load is staged beside the stream ahead (R132);
loads and stores of a stream's scalars in order; FLAGS behind the stream's matrix and vector instructions (R229). -/
def waitsFor (i h : Issue) : Bool :=
  if isFlags i.op then h.st == i.st && (isVector h.op || (engineOf h.op).isSome || isFlags h.op)
  else
    unitOf h.op == unitOf i.op &&
    match unitOf i.op with
    | .control => h.st == i.st && isScalarMem i.op && isScalarMem h.op
    | .lanes | .mover => true
    | .engine _ =>
      if isDrain i.op || isDrain h.op then isDrain i.op && isDrain h.op
      else if isLoad i.op then isLoad h.op
      else true

def blocked (c : Core) (i : Issue) : Bool := c.held.any (fun h => decide (h.seq < i.seq) && waitsFor i h)

/-- A stationary load may be done: nothing but drains is ahead of it in its queue (R132, R143). -/
def mayFinish (c : Core) (i : Issue) : Bool :=
  !isLoad i.op || !c.held.any (fun h => decide (h.seq < i.seq) && unitOf h.op == unitOf i.op && !isDrain h.op)

/-- The rows of tile `t` of a drain that a held stream issued before it leaves free: none where it holds none back (R142). -/
def rowsBehindStream (t : Nat) (h : Issue) : Option Nat :=
  match h.op with
  | .mstr x =>
    let d := 256 * (t - x.tile.toNat)
    if x.tile.toNat ≤ t ∧ d ≤ x.m1.toNat ∧ h.prog.pos < d + min 256 (x.m1.toNat + 1 - d) then some (h.prog.pos - d) else none
  | .mstrt x => match okStream x with
    | some (a, s) => if x.tile.toNat ≤ t ∧ t < x.tile.toNat + lanesOf (widerFmt a s) then some h.prog.pos else none
    | none => none
  | _ => none

/-- The rows of a stream that a held drain of tile `t` issued before it leaves free (R142). -/
def rowsBehindDrain (op : IsaOp) (t pos : Nat) : Option Nat :=
  match op with
  | .mstr x => if x.tile.toNat ≤ t ∧ 256 * (t - x.tile.toNat) ≤ x.m1.toNat then some (256 * (t - x.tile.toNat) + pos) else none
  | .mstrt x => match okStream x with
    | some (a, s) => if x.tile.toNat ≤ t ∧ t < x.tile.toNat + lanesOf (widerFmt a s) then some pos else none
    | none => none
  | _ => none

def minOpt (a b : Option Nat) : Option Nat :=
  match a, b with
  | none, b => b
  | a, none => a
  | some a, some b => some (min a b)

/-- The rows an instruction may take by what is held ahead of it in its engine (R142). -/
def rowLimit (c : Core) (i : Issue) : Option Nat :=
  ((c.held.filter (fun h => decide (h.seq < i.seq) && unitOf h.op == unitOf i.op)).map (fun h =>
    match i.op, h.op with
    | .mdrain x, _ => rowsBehindStream x.tile.toNat h
    | op, .mdrain y => rowsBehindDrain op y.tile.toNat h.prog.pos
    | _, _ => none)).foldl minOpt none

/-- Entries of a unit's queue: four of the lanes and of an engine, eight of the movement unit (R143, R161, R200); the control core's own
instructions need none. -/
def queueDepth : ExecUnit → Option Nat
  | .control => none
  | .lanes | .engine _ => some 4
  | .mover => some 8

/-- A held instruction has left its queue: in the lanes the first in order; of an engine once its first row or group has entered, of a
stationary load and a drain only when it is done; in the movement unit with its first read (R143, R161, R200). -/
def leftQueue (c : Core) (h : Issue) : Bool :=
  match unitOf h.op with
  | .control => true
  | .lanes => !c.held.any (fun g => unitOf g.op == .lanes && decide (g.seq < h.seq))
  | .engine _ => !isLoad h.op && !isDrain h.op && decide (0 < h.prog.pos)
  | .mover =>
    match h.op with
    | .calarm _ | .nrecv _ => false
    | .nsend _ | .ncoll _ => decide (1 < h.prog.log.length)
    | _ => decide (0 < h.prog.pos + h.prog.log.length)

/-- The queue of an instruction's unit is full (R184). -/
def queueFull (c : Core) (op : IsaOp) : Bool :=
  match queueDepth (unitOf op) with
  | none => false
  | some n => decide (n ≤ (c.held.filter (fun h => unitOf h.op == unitOf op && !leftQueue c h)).length)

/-! ### What an instruction does to its core -/

/-- Row bytes of a narrow table of a position (R277). -/
def State.rowBytes (s : State) (v t : Nat) : Nat :=
  match tget none s.mem.narrowDefs (64 * v + t) with
  | none => 0
  | some d => 32 * d.grains

/-- A stream takes a LOOP while it holds fewer than four; of a fifth the manual says only that the loader refuses it (R190, log
entry 54). -/
def loopRoom (c : Ctx) (i : Issue) (x : StreamSt) : Bool :=
  decide (x.loops.length < 4) || Config.fifthLoop c.self i.seq i.stroke.toNat

/-- An instruction on its core: an error where it is held, with what it has done so far. `rows` gives the row bytes of a narrow table; `pc`
is its own word index. -/
def perform (c : Ctx) (rows : Nat → Nat) (pc : Nat) (i : Issue) (r : Run) : Except Run Run :=
  match i.op with
  | .nop => .ok r
  | .stend => .ok (doStend i r)
  | .jobend => .ok (doJobend i r)
  | .commit => .ok (doCommit r)
  | .slotpat x => .ok (doSlotpat x r)
  | .loop x => .ok (doLoop i x pc (loopRoom c i (r.c.stream i.st)) r)
  | .rdspec x => .ok (doRdspec c i x r)
  | .add x => .ok (scalarR opAdd i x r)
  | .sub x => .ok (scalarR opSub i x r)
  | .mul x => .ok (scalarR opMul i x r)
  | .and x => .ok (scalarR opAnd i x r)
  | .or x => .ok (scalarR opOr i x r)
  | .xor x => .ok (scalarR opXor i x r)
  | .shl x => .ok (scalarR opShl i x r)
  | .shr x => .ok (scalarR opShr i x r)
  | .sra x => .ok (scalarR opSra i x r)
  | .min x => .ok (scalarR opMin i x r)
  | .max x => .ok (scalarR opMax i x r)
  | .minu x => .ok (scalarR opMinu i x r)
  | .maxu x => .ok (scalarR opMaxu i x r)
  | .cmp x => .ok (doCmp i x r)
  | .sel x => .ok (doSel i x r)
  | .li x => .ok (doLi i x r)
  | .lih x => .ok (doLih i x r)
  | .lds x => doLds c i x r
  | .sts x => doSts c i x r
  | .pand x => .ok (predOp opPand i x r)
  | .por x => .ok (predOp opPor i x r)
  | .pxor x => .ok (predOp opPxor i x r)
  | .pandn x => .ok (predOp opPandn i x r)
  | .pfirst x => .ok (doPfirst i x r)
  | .pcnt x => .ok (doPcnt i x r)
  | .scadd x => .ok (doScadd i x r)
  | .scsub x => .ok (doScsub i x r)
  | .wait x => .ok (doWait i x r)
  | .signal x => .ok (doSignal c i x r)
  | .hint x => .ok (doHint x r)
  | .mcopy x => doMcopy c i x r
  | .calarm x => doCalarm c i x r
  | .gather x => doGather c i x (rows (narrowTable x)) r
  | .scatter x => doScatter c i x (rows (narrowTable x)) r
  | .nsend x => doNsend c i x r
  | .nrecv x => doNrecv c i x r
  | .ncoll x => doNcoll c i x r
  | .mload x => doMload c i x r
  | .mstr x => doMstr c i x r
  | .mstrt x => doMstrt c i x r
  | .mdrain x => doMdrain c i x r
  | .mew x => doMew c i x r
  | .vadd x => .ok (vLane laneAdd i x r)
  | .vsub x => .ok (vLane laneSub i x r)
  | .vmul x => .ok (vLane laneMul i x r)
  | .vfma x => .ok (vLane laneFma i x r)
  | .vmin x => .ok (vLane laneMin i x r)
  | .vmax x => .ok (vLane laneMax i x r)
  | .vcmp x => .ok (doVcmp i x r)
  | .vsel x => .ok (doVsel i x r)
  | .vand x => .ok (vLane laneAnd i x r)
  | .vor x => .ok (vLane laneOr i x r)
  | .vxor x => .ok (vLane laneXor i x r)
  | .vshl x => .ok (vLane laneShl i x r)
  | .vshr x => .ok (vLane laneShr i x r)
  | .vsra x => .ok (vLane laneSra i x r)
  | .vsgn x => .ok (doVsgn i x r)
  | .vcvt x => .ok (doVcvt c i x r)
  | .vrnd x => .ok (doVrnd c i x r)
  | .vtr x => .ok (doVtr i x r)
  | .vred x => .ok (doVred i x r)
  | .vcpr x => .ok (doVcpr i x r)
  | .vxpd x => .ok (doVxpd i x r)
  | .vcpst x => doVcpst c i x r
  | .vxpld x => doVxpld c i x r
  | .vld x => doVld c i x r
  | .vst x => doVst c i x r
  | .flags x => .ok (doFlags i x r)
  | .vstat x => .ok (doVstat i x r)

/-! ### Effects outside the core -/

/-- HINT (R199): the highest class of the stroke, and the smallest LEAD of that class. -/
def State.takeHint (s : State) (cls lead : Nat) : State :=
  let h := match s.pwr.hintIn with
    | none => (cls, lead)
    | some (c, l) => if c < cls then (cls, lead) else if c = cls then (c, min l lead) else (c, l)
  { s with pwr := { s.pwr with hintIn := some h } }

/-- VSTAT (R230): the loss of the lowest position, the last one issued there; the non-finite count saturates. -/
def State.takeStat (s : State) (v sel : Nat) (w : Word) : State :=
  if sel = 0 then
    match s.stp.loss with
    | some (u, _) => if v ≤ u then { s with stp := { s.stp with loss := some (v, w) } } else s
    | none => { s with stp := { s.stp with loss := some (v, w) } }
  else { s with stp := { s.stp with nfCount := BitVec.ofNat 32 (min (2 ^ 32 - 1) (s.stp.nfCount.toNat + w.toNat)) } }

/-- ZI terms of a matrix instruction (R121 to R123): the first capture of an engine in a stroke raises 0x0101, and EVT_CNT counts the
blocks. -/
def State.takeZi (s : State) (p v e count waiter : Nat) (caps : List Nat) : State :=
  let pg := pgMe p e
  let free := !s.rbit (pg + oEvt) 0
  let tile := caps.headD 0 % 8
  let (seen, s) := if free then s.once (0x0101, 4 * p + e) else (true, s)
  let ev1 : Ev := { ev 0x0101 pg (s.objC v (e * 1024 + tile * 128)) waiter (caps.headD 0) with
    caps := caps.zipIdx.map (fun c => (0x28 + 4 * c.2, c.1)), quiet := seen, tally := count }
  s.raise ev1

/-- One effect of an instruction of position `v`, held by core `p`. -/
def State.applyFx (s : State) (p v : Nat) : Fx → State
  | .ev code id waiter detail caps => s.coreRaise p v code id waiter detail caps
  | .flags f => s.rset Reg.numFlagSum (s.rget Reg.numFlagSum ||| f.zeroExtend 32)
  | .flight dst t st op items => s.flight v dst t st op items
  | .hint cls lead => s.takeHint cls lead
  | .ended st => { s with stroke := { s.stroke with lastEnd := some (v, st) } }
  | .vstat sel w => s.takeStat v sel w
  | .narrow r => s.setCore p { s.core p with narrow := (s.core p).narrow ++ [r] }
  | .armed t => s.armTicket v t
  | .nsend st desc data ref => s.nsendGo v st desc data ref
  | .nrecv st desc dst len ctr ref => s.nrecvGo v st desc dst len ctr ref
  | .ncoll st step desc data ctr ref => s.ncollGo v st step desc data ctr ref
  | .meWork e n => s.bumpPair (Reg.meWorkCycLo p e) n
  | .meWave e n => s.bumpPair (Reg.meWaveCycLo p e) n
  | .mePlan e n => s.bumpPair (Reg.mePlanCycLo p e) n
  | .veBusy n => s.bumpPair (Reg.veBusyCycLo p) n
  | .zi e count waiter caps => s.takeZi p v e count waiter caps
  | .residue e st ord stroke hits => s.onResidue p v e st ord stroke hits

def State.applyAll (s : State) (p v : Nat) (fx : List Fx) : State := fx.foldl (fun s e => s.applyFx p v e) s

/-! ### Holds that lie outside the core -/

/-- The descriptor of an instruction as it stands in core memory, where its reference is good (R498). -/
def descOf (c : Ctx) (k : Core) (i : Issue) (x : FmtM) : Option (List Byte) :=
  if cmOk c (i.s x.sb) 64 true 64 then some (bytesAt k.cm (refOff (i.s x.sb)) 64) else none

/-- NSEND without room in its field's retained store, NRECV beyond four receives of its flow, NCOLL of a replayed step whose record has not
come (R204, R205, R347). A faulty descriptor sends and arms nothing, and is held by none of these (R498). -/
def State.devHold (s : State) (v p : Nat) (i : Issue) : Bool :=
  let d := fun x => descOf (s.ctxOf v p) (s.core p) i x
  match i.op with
  | .nsend x => ((d x).filter sendOk).isSome && decide (retainedMax < s.retainedIn (v / 32) + 64 * x.len.toNat)
  | .nrecv x => match (d x).filter recvOk with
    | none => false
    | some d => decide (4 ≤ (s.flow (leNat (d.take 2))).arms.length)
  | .ncoll x => ((d x).filter collDscOk).isSome && s.job.params.replay && (s.replayRec i.step).isNone
  | _ => false

/-- Granules that an instruction moves through the MU's read port (R475). -/
def portGranules (rows : Nat → Nat) (i : Issue) : Nat :=
  match i.op with
  | .mcopy x | .nsend x | .ncoll x => x.len.toNat
  | .gather x => (granules (refOff (i.s x.sa)) (4 * narrowRows x)).length
  | .scatter x => (granules (refOff (i.s x.sa)) (4 * narrowRows x)).length +
      (granules (refOff (i.s x.sb)) (narrowRows x * rows (narrowTable x))).length
  | _ => 0

/-- Key of an ordinal counter: units 0 to 3 the engines, 5 to 7 the streams (R378, R383). -/
def ordKey (p k : Nat) : Nat := 8 * p + k
def State.ordinal (s : State) (p k : Nat) : Nat := tget 0 s.stroke.ordinals (ordKey p k)
def State.bumpOrdinal (s : State) (p k : Nat) : State :=
  { s with stroke := { s.stroke with ordinals := tset 0 s.stroke.ordinals (ordKey p k) (s.ordinal p k + 1) } }

/-- Nothing of its engine is ahead of an instruction: it has reached the head of the queue (R383). -/
def atHead (c : Core) (i : Issue) : Bool := !c.held.any (fun h => decide (h.seq < i.seq) && unitOf h.op == unitOf i.op)

/-- An instruction that reaches the head of its engine's queue is counted there (R383). -/
def State.reachHead (s : State) (p : Nat) (i : Issue) : State × Issue :=
  match engineOf i.op with
  | none => (s, i)
  | some e =>
    if i.prog.ord.isNone && atHead (s.core p) i then
      (s.bumpOrdinal p e, { i with prog := { i.prog with ord := some (s.ordinal p e) } })
    else (s, i)

/-- Tries an instruction: the state behind it, and where it is held, how far it has come. -/
def State.tryPerform (s : State) (v p pc : Nat) (i : Issue) : State × Option Progress :=
  if blocked (s.core p) i || s.devHold v p i then (s, some i.prog)
  else
    let (s, i) := s.reachHead p i
    match perform (s.ctxOf v p) (s.rowBytes v) pc i (.again (s.core p) i.prog (rowLimit (s.core p) i) (mayFinish (s.core p) i)) with
    | .error r => ((s.setCore p r.c).applyAll p v r.fx, some r.prog)
    | .ok r =>
      let s := (s.setCore p r.c).applyAll p v r.fx
      let s := s.bumpPair (Reg.muBusyCycLo p) (portGranules (s.rowBytes v) i)
      (match engineOf i.op with
      | none => s
      | some e => s.passPoint v [1, 2, 3] e i.st.codeNat (i.prog.ord.getD 0), none)

/-! ### Issue -/

/-- A stream owns a slot of its core's pattern (R69, R70). -/
def ownsSlot (c : Core) (st : Stream) : Bool :=
  (List.range 8).any (fun k => fieldNat (c.slots.zeroExtend 32) (2 * k) 2 == st.codeNat)

/-- Streams of core `p` may issue now: the job executes, no boundary is held, no PAUSE slice holds the core (R394). -/
def State.issuing (s : State) (p : Nat) : Bool :=
  s.live && s.stroke.hold == .no && !s.brn.paused.contains p && (s.roleOf p).role == .active

def runs (x : StreamSt) : Bool := x.phase == .run

/-- The stream may issue its next instruction: it owns a slot, runs, and its word lies in the store (R68, R181). -/
def State.ready (s : State) (p : Nat) (st : Stream) : Bool :=
  let c := s.core p
  s.issuing p && ownsSlot c st && runs (c.stream st) && decide ((c.stream st).pc.toNat < 16384)

/-- The issue record of an operation of a stream. -/
def State.issueOf (s : State) (p : Nat) (st : Stream) (op : IsaOp) : Issue :=
  let c := s.core p
  ⟨st, op, c.seq, s.stroke.step, s.stroke.jobStroke, (c.stream st).sreg, (c.stream st).preg, [], prog0⟩

/-- The stream goes to its next word. -/
def State.stepPc (s : State) (p : Nat) (st : Stream) : State :=
  let c := s.core p
  s.setCore p (c.setStream st (c.stream st).advance)

/-- The faulty blocks that an upset brings. -/
def upsetErrs : Option Upset → List BlockErr
  | some (.residue errs) => errs
  | _ => []

/-- Issues an instruction at its stream's word: as the operation, or as NOP after an event. -/
def State.issueAs (s : State) (v p : Nat) (st : Stream) (op : IsaOp) (errs : List BlockErr) : State :=
  let i := { s.issueOf p st op with errs := errs }
  let pc := ((s.core p).stream st).pc.toNat
  let s := s.setCore p { s.core p with seq := i.seq + 1 }
  match s.tryPerform v p pc i with
  | (s, none) => s.stepPc p st
  | (s, some g) =>
    let s := s.setCore p { s.core p with held := (s.core p).held ++ [{ i with prog := g }] }
    s.stepPc p st

/-- Counts a stall by its class (R254), and in VE_QFULL_CYC where the queue of the lanes was full (R179). -/
def State.countStall (s : State) (p : Nat) (lanes : Bool) (cls : StallClass) (cycles : Nat) : State :=
  let lo := match cls with
    | .read => Reg.coreCvReadLo p
    | .write => Reg.coreCvWriteLo p
    | .bank => Reg.coreCvBankLo p
    | .reg => Reg.coreCvRegLo p
    | .queue => Reg.coreCvQueueLo p
  if cycles = 0 then s
  else
    let s := (s.bumpPair lo cycles).bump (Reg.coreCvStep p) cycles
    if lanes && cls == .queue then s.bumpPair (Reg.veQfullCycLo p) cycles else s

/-- Cycles for which a landing write was held on unread data count at the core of its position (R201, R202, R254). -/
def State.landHeld (s : State) (v cycles : Nat) : State :=
  match s.holder v with
  | none => s
  | some p => s.countStall p false .write cycles

/-- The stalls of an issue (R184, R254): for a register result, for a full queue, and by deferred bank accesses, which lengthen the occupancy
of the lanes (R161, R228). -/
def State.countIssue (s : State) (p : Nat) (i : Iss) (op : IsaOp) : State :=
  let lanes := isVector op
  let s := s.countStall p lanes .reg i.regWait
  let s := s.countStall p lanes .queue i.queueWait
  let s := s.countStall p lanes .bank i.bankWait
  if lanes then s.bumpPair (Reg.veBusyCycLo p) i.bankWait else s

/-- The point at which a check may fire on the instruction at a stream's word. -/
def State.pointOf (s : State) (v p : Nat) (st : Stream) (op : IsaOp) : Point :=
  ⟨p, v, st, op, ((s.core p).stream st).pc.toNat, s.ordinal p (4 + st.codeNat),
    match engineOf op with
    | none => 0
    | some e => s.ordinal p e + ((s.core p).held.filter (fun h => engineOf h.op == some e && h.prog.ord.isNone)).length⟩

/-- The word at a stream's program counter holds an instruction that R180 takes. -/
def State.wordLegal (s : State) (p : Nat) (st : Stream) : Bool :=
  let c := s.core p
  match decodeWord (tget 0 c.istore (c.stream st).pc.toNat) with
  | none => false
  | some op => legal op

/-- 0x0911 of the word at a stream's program counter (R180, R207). -/
def State.illegalOp (s : State) (v p : Nat) (st : Stream) (opc : Nat) : State :=
  s.coreRaise p v 0x0911 opc st.codeNat ((s.core p).stream st).pc.toNat []

/-- The issue of operation `op` by a stream (R68, R180, R181, R184): a word that fails parity or holds a value refused from the
word alone issues as NOP. A stream whose register has a write pending or whose queue is full is held in its slot: the command changes
nothing, and the issue that succeeds gives the cycles. So does a command for a stream that cannot issue (log entry 35). -/
def State.issueOp (s : State) (i : Iss) (op : IsaOp) : State :=
  match s.holder i.v with
  | none => s
  | some p =>
    if !s.ready p i.st then s
    else
      let u := regUse op
      if (s.core p).held.any (fun h => h.st == i.st && clashes u (regUse h.op)) || queueFull (s.core p) op then s
      else
        let q := s.pointOf i.v p i.st op
        let parity := match i.upset with | some .istoreParity => true | _ => false
        let bad := if op = .nop then !s.wordLegal p i.st else !legal op
        let opc := if op = .nop then (tget 0 (s.core p).istore q.pc).toNat / 2 ^ 56 else opcodeOf op
        let s := match i.upset with
          | none => s
          | some w => if upsetFits s.stroke.devStroke.toNat op w then s.onUpset q w else s
        let s := if bad && !parity then s.illegalOp i.v p i.st opc else s
        let s := s.passPoint i.v [4, 5] 0 i.st.codeNat q.ord
        let s := s.issueAs i.v p i.st (if parity || bad then .nop else op) (upsetErrs i.upset)
        (s.bumpOrdinal p (4 + i.st.codeNat)).countIssue p i op

end Sys2Proof.Machine
end

