-- ==== Sys2Proof/Machine/Complete.lean ====
section
/-!
DEFINITION. Completions of ring commands (R82, R445, R446, R503), the program image hash, the settings block and the hallmark (R456,
R457), and the state digest (R30, R502).
-/

namespace Sys2Proof.Machine

open Sys2Proof

/-! ### The completion ring (R445, R446) -/

def State.cplSize (s : State) : Nat := 2 ^ (s.rfield Reg.pciCplCfg 0 4 + 4)

/-- One more completion can be written: one entry stays free, and the host has set the rings up (R431). -/
def State.cplRoom (s : State) : Bool :=
  s.rbit Reg.pciRingCfg 4 && ((s.rget Reg.pciCplPi).toNat + 1) % s.cplSize != (s.rget Reg.pciCplCi).toNat % s.cplSize

/-- Writes a completion to host memory, with its MSI-X notice. -/
def State.cplWrite (s : State) (c : Cpl) : State :=
  let s := { s with ring := { s.ring with written := s.ring.written ++ [c] } }
  (s.rset Reg.pciCplPi (wOf (((s.rget Reg.pciCplPi).toNat + 1) % s.cplSize))).send (.msix (s.rfield Reg.pciCplCfg 4 3))

/-- A completion is written, or held behind those that wait for room. -/
def State.pushCpl (s : State) (c : Cpl) : State :=
  if s.ring.held.isEmpty && s.cplRoom then s.cplWrite c
  else { s with ring := { s.ring with held := s.ring.held ++ [c] } }

/-- Held completions are written while there is room. -/
def flushList : List Cpl → State → List Cpl × State
  | [], s => ([], s)
  | c :: cs, s => if s.cplRoom then flushList cs (s.cplWrite c) else (c :: cs, s)

def State.flushCpls (s : State) : State :=
  let (rest, s) := flushList s.ring.held s
  { s with ring := { s.ring with held := rest } }

/-- A completion of a command at the boundary now. -/
def State.reply (s : State) (c : CmdRef) (phase status : Nat) (result : DWord) : State :=
  s.pushCpl ⟨c.tag, c.opcode, phase, status, s.stroke.jobStroke, s.stroke.devStroke, result⟩

/-- STATUS values of R445. -/
def stOk : Nat := 0
def stLate : Nat := 1
def stRejected : Nat := 2
def stAborted : Nat := 3
def stIgnored : Nat := 4
def stFailed : Nat := 5

/-- An operation's completion registers in the stroke in progress; order 2 of the next boundary marks it complete (R82). -/
def State.endOp (s : State) (cmd : Option CmdRef) (status : Nat) (result : DWord) : State :=
  match cmd with
  | none => s
  | some c => { s with ring := { s.ring with ended := s.ring.ended ++ [(⟨c, status, result, false, false⟩ : EndedOp)] } }

/-- An operation ends at a boundary: its completion is written there. -/
def State.endNow (s : State) (cmd : Option CmdRef) (status : Nat) (result : DWord) : State :=
  match cmd with
  | none => s
  | some c =>
    let s := { s with ring := { s.ring with ended := s.ring.ended ++ [(⟨c, status, result, true, status == stAborted⟩ : EndedOp)] } }
    s.reply c 1 status result

/-- Marks every ended operation complete; answers those newly marked. -/
def State.markEnded (s : State) : List EndedOp × State :=
  (s.ring.ended.filter (fun o => !o.marked),
    { s with ring := { s.ring with ended := s.ring.ended.map (fun o => { o with marked := true }) } })

/-! ### Settings, program image, hallmark (R456, R457) -/

def settingRegs : List Nat :=
  [Reg.numMode, Reg.numSeedLo, Reg.numSeedHi, Reg.stkLsCfg, Reg.stkClip, Reg.stkBandCfg, Reg.stkLossRatio,
   Reg.stkNormRatio, Reg.stkNormColl, Reg.stkVoteCfg]

/-- The exclusion bitmap of the epoch: bit r for replica r. -/
def exclBytes (excl : List Nat) : List Byte :=
  (List.range 1024).map (fun k => BitVec.ofNat 8 ((List.range 8).foldl (fun n b => if excl.contains (8 * k + b) then n + 2 ^ b else n) 0))

def State.settingsBytes (s : State) : List Byte :=
  settingRegs.flatMap (fun r => leBytes 4 (s.rget r).toNat) ++ exclBytes s.stp.epochExcl

/-- Positions that the placement enables, ascending, with their cores (R236). -/
def State.placements (s : State) : List (Nat × Nat) :=
  (List.range 128).filterMap (fun v => if s.rbit (Reg.stkPlace v) 31 then some (v, s.rfield (Reg.stkPlace v) 0 8) else none)

/-- Bytes of a ticket-table entry and of the state map as they enter the hash (DESIGN CHOICE, log entry 36). -/
def ticketBytes (v num : Nat) (d : TicketDef) : List Byte :=
  leBytes 2 v ++ leBytes 2 num ++ [if d.bulk then 1 else 0, if d.write then 1 else 0, 0, 0] ++ leBytes 8 d.addr ++ leBytes 8 d.len

def regBytes (s : State) (off n : Nat) : List Byte := (List.range n).flatMap (fun k => leBytes 4 (s.rget (off + 4 * k)).toNat)

/-- The program image hash over what the loader has written (R457); `core` names the core of each position. -/
def State.programHash (s : State) (cores : List (Nat × Nat)) (tickets : Tbl (Option TicketDef)) (smap : List Byte) : List Byte :=
  sha256 (cores.flatMap (fun e =>
      (List.range 16384).flatMap (fun k => leBytes 8 (tget 0 (s.core e.2).istore k).toNat) ++
      regBytes s (Reg.coreShardLo e.2 0) 32 ++ regBytes s (Reg.cmbRgnBase e.2 0) 128) ++
    tickets.flatMap (fun e => match e.2 with | none => [] | some d => ticketBytes (e.1 / 1024) (e.1 % 1024) d) ++
    bytesAt s.mem.cal 0 (396 * 65536) ++ bytesAt s.fab.table 0 (2 ^ 20) ++ smap)

/-- The configuration manifest of R456. `prog` is the program image hash or nothing. -/
def State.manifest (s : State) (ldt : Nat) (prog : List Byte) : List Byte :=
  sha256 s.mgmt.fwImage ++ leBytes 2 s.brn.packs.version ++ [BitVec.ofNat 8 ldt, 1] ++ leBytes 4 s.epoch.cur.toNat ++
  (if prog.isEmpty then List.replicate 32 0 else prog) ++ sha256 s.settingsBytes ++ List.replicate 24 0

/-- Computes the hallmark of the epoch anew. -/
def State.newHallmark (s : State) : State :=
  let m := s.manifest (if s.job.programHash.isEmpty then 0 else s.job.image.ldtBuilt) s.job.programHash
  { s with fab := { s.fab with hallmark := sha256 m } }

/-- The hallmark of the epoch stays for what drains under it (R322). -/
def State.keepHallmark (s : State) : State := { s with fab := { s.fab with prevHallmark := s.fab.hallmark } }

/-! ### Peers -/

/-- HELLO on every flow context (R321). -/
def State.sendHellos (s : State) : State :=
  s.validFlows.foldl (fun s f => s.sendPlain f 6 flgLast 0 (pad64 s.fab.hallmark)) s

end Sys2Proof.Machine
end

