-- ==== Sys2Proof/Machine/BrnOps.lean ====
section
/-!
DEFINITION. Fences, burnish, rotations and the replacement request (R41, R149 to R151, R384, R388 to R395, R402), and the check of
signed images (R390, R391, R450).
-/

namespace Sys2Proof.Machine

open Sys2Proof

/-! ### Powered time and fences (R388) -/

/-- Whole minutes of powered time, over every power-on reset (log entry 55). -/
def State.minutes (s : State) : Nat := s.brn.before + s.mgmt.elapsed.toNat / 60000000000

/-- The TARGET code (R390) of the unit that an outcome 1 or 2 of a kind names. -/
def targetOfKind (kind : Nat) : Nat := if kind = 4 then 3 else if kind = 5 then 2 else 1

def State.setRoleKind (s : State) (p : Nat) (r : Role) : State := s.setRole p { s.roleOf p with role := r }

/-- A core enters FENCED, and the fence list takes an entry while it has room. -/
def State.fenceCore (s : State) (p unit outcome : Nat) : State :=
  let s := s.setRoleKind p .fenced
  if 64 ≤ s.brn.fences.length then s
  else { s with brn := { s.brn with fences := s.brn.fences ++ [(⟨p, unit, outcome, s.minutes, [], false⟩ : FenceEntry)] } }

/-- Fenced three times within 30 days of powered time: the core stays fenced. -/
def State.fencedForGood (s : State) (p : Nat) : Bool :=
  let mine := s.brn.fences.filter (fun e => e.core == p)
  mine.any (fun a => decide (3 ≤ (mine.filter (fun e => decide (a.min ≤ e.min ∧ e.min ≤ a.min + 43200))).length))

/-- The full packs of an image that cover a unit. -/
def fullPacks (set : List Pack) (unit : Option Nat) : List Nat :=
  (set.zipIdx.filter (fun e => e.1.mode == 0 &&
    (match unit with | none => true | some u => e.1.target == u || e.1.target == 0))).map (·.2)

/-- Whether the packs passed since a fence let the core return. -/
def mayReturn (set : List Pack) (e : FenceEntry) : Bool :=
  if e.outcome = 1 ∨ e.outcome = 2 then (fullPacks set (some e.unit)).any e.passed.contains
  else (fullPacks set none).all e.passed.contains && !(fullPacks set none).isEmpty

/-- Full packs that a core has passed count towards the return from each of its open fences. -/
def State.notePasses (s : State) (p : Nat) (set : List Pack) (packs : List Nat) : State :=
  { s with brn := { s.brn with fences := s.brn.fences.map (fun e =>
      if e.core = p ∧ !e.returned then
        let e' := { e with passed := (e.passed ++ packs).eraseDups }
        { e' with returned := mayReturn set e' && !s.fencedForGood p }
      else e) } }

/-- A core is still held by an open fence. -/
def State.fenceOpen (s : State) (p : Nat) : Bool := s.brn.fences.any (fun e => e.core == p && !e.returned)

/-! ### The replacement request (R402) -/

/-- The reason bits. -/
def State.replReasons (s : State) : Nat :=
  let low := (List.range 4).any (fun f =>
    decide ((s.rolesIn f .spare).length + (s.rolesIn f .underTest).length ≤ s.rfield Reg.brnReplCfg 0 4))
  let fails := (s.brn.fails.filter (fun m => s.minutes ≤ m + 43200)).length
  let lane := (List.range 64).any (fun q => s.rbit (Reg.fabPortCfg q) 0 && !(s.port q).up && !(s.port q).retraining &&
    tget false s.fab.spareUsed (q / 16))
  let bulkOut := s.rfield Reg.blkCfg 4 3 ≠ 0 && s.rfield Reg.blkStat 0 12 ≠ 4095
  b1 low 0 + b1 s.brn.fieldEmpty 1 + b1 (s.rsvFree == 0) 2 + b1 (decide (s.mem.nLc < 380)) 3 + b1 lane 4 + b1 bulkOut 5 +
    b1 (s.rfield Reg.brnReplCfg 4 8 ≤ fails) 6 + b1 (decide (2 ≤ s.asy.upstream)) 7 + b1 (decide (64 ≤ s.brn.fences.length)) 8

/-- Raises 0x0650 with the reasons. -/
def State.raiseRepl (s : State) : State :=
  ({ s with brn := { s.brn with replPending := false } }).raiseM 0x0650 pgBrn 0 0 (s.rfield Reg.brnRepl 0 9)

/-- Sets REQUESTED when a reason bit becomes 1; in RUN the event waits for the exit. Before training there is nothing to count. -/
def State.replCheck (s : State) : State :=
  if s.mgmt.bootStage < 4 then s
  else
    let new := s.replReasons
    let old := s.rfield Reg.brnRepl 0 9
    let s := s.rsetField Reg.brnRepl 0 9 new
    if minusMaskN new old = 0 then s
    else
      let s := s.rsetField Reg.brnRepl 16 1 1
      if s.mgmt.dev = .run then { s with brn := { s.brn with replPending := true } } else s.raiseRepl
where
  /-- Bits of `a` that are not in `b`. -/
  minusMaskN (a b : Nat) : Nat := a ^^^ (a &&& b)

/-! ### Tests (R390 to R395) -/

def State.testOf (s : State) (p : Nat) : Option TestRun := s.brn.tests.find? (fun t => t.core == p && t.outcome.isNone)
def State.setTest (s : State) (t : TestRun) : State :=
  { s with brn := { s.brn with tests := s.brn.tests.map (fun x => if x.core = t.core then t else x) } }

/-- A test begins: its core is UNDER_TEST, or, in a PAUSE test, keeps its position. -/
def State.startTest (s : State) (p : Nat) (kind : TestKind) (pack : Option Nat) (cmd : Option CmdRef) (boot : Bool) : State :=
  let s := if kind = .pause then s else s.setRoleKind p .underTest
  { s with brn := { s.brn with tests := s.brn.tests ++ [(⟨p, kind, pack, cmd, boot, s.brn.packs.packs, none⟩ : TestRun)],
                               due := s.brn.due.filter (· != p), deferred := s.brn.deferred.filter (· != p),
                               overdue := s.brn.overdue.filter (· != p) } }

/-- The packs a test runs. -/
def TestRun.packs (t : TestRun) : List Nat :=
  match t.pack with
  | some j => [j]
  | none =>
    match t.kind with
    | .full => fullPacks t.set none
    | .pause => (t.set.zipIdx.filter (fun e => e.1.mode == 1)).map (·.2)

def probeWords (x : Probes) : List Word := [x.me0, x.me1, x.me2, x.me3]

/-- A full pack, which runs the skew probe; an in-place pack touches no stationary register and runs none (R390, R394; log
entry 146). -/
def probing (set : List Pack) (j : Nat) : Bool := (set[j]?).any (fun k => k.mode == 0)

/-- Skew probe results of a pack: ME_PROBE of each engine, its reserved bits 0, and 0x0603 for each that fails (R151). -/
def State.takeProbes (s : State) (p : Nat) (probes : Probes) : State :=
  (probeWords probes).zipIdx.foldl (fun s e =>
    let w := (e.1 &&& 0x00FF03FF) ||| 1
    let s := s.rset (Reg.meProbe p e.2) w
    if w.getLsbD 1 then s
    else s.raise { ev 0x0603 (pgMe p e.2) (s.objC (s.roleOf p).v (e.2 * 1024)) 0 w.toNat with
      test := (s.roleOf p).role == .underTest }) s

/-- A pack passes: its outputs have the expected digest, no class-0x06 event was raised, the probe passed on every engine. -/
def packPass (set : List Pack) (r : PackRun) : Bool :=
  (set[r.pack]?).any (fun k => k.digest == r.digest) && !r.event &&
    (!probing set r.pack || (probeWords r.probes).all (·.getLsbD 1))

/-- The repairs that a failed test of core `p` leads the firmware to record: the physical position of each row or column, one record an
axis of an engine (R149). -/
def State.recordRepairs (s : State) (p : Nat) (runs : List PackRun) : State :=
  (runs.flatMap (·.repairs)).foldl (fun s e =>
    if s.brn.repairs.any (fun x => x.core == p && x.me == e.1.val && x.col == e.2.1) then s
    else { s with brn := { s.brn with
      repairs := s.brn.repairs ++ [⟨p, e.1.val, e.2.1, physOf (s.mappedOut p e.1.val e.2.1) e.2.2.val⟩] } }) s

def State.setLast (s : State) (p result : Nat) : State :=
  s.rset (Reg.brnLast p) (wOf (s.minutes % 2 ^ 27 + 2 ^ 27 * result))

/-- A test ends with the results of its packs. Its core's role changes at the next boundary (R41). A full pass, from which the next test falls
due, is one of every full pack (R392; log entry 58). -/
def State.finishTest (s : State) (p : Nat) (runs : List PackRun) : State :=
  match s.testOf p with
  | none => s
  | some t =>
    let want := t.packs
    let runs := runs.filter (fun r => want.contains r.pack)
    let s := runs.foldl (fun s r => if probing t.set r.pack then s.takeProbes p r.probes else s) s
    let bad := want.find? (fun j => !(runs.any (fun r => r.pack == j && packPass t.set r)))
    let inPlace := t.kind != .full || t.pack.isSome && want.all (fun j => (t.set[j]?).any (fun k => k.mode == 1))
    let whole := !inPlace && (fullPacks t.set none).all want.contains
    let quietJob := (s.roleOf p).role == .underTest
    let (s, role) := match bad with
      | some j =>
        let s := s.raise { ev 0x0621 pgBrn (s.objM p) 0 j with test := quietJob }
        let s := (s.bump Reg.brnFailCnt 1).setLast p 2
        let s := { s with brn := { s.brn with fails := s.brn.fails ++ [s.minutes] } }
        let s := s.recordRepairs p runs
        ((s.endOp t.cmd stFailed 0), Role.fenced)
      | none =>
        let s := s.raise { ev 0x0620 pgBrn (s.objM p) 0 want.length with test := quietJob }
        let s := (s.bump Reg.brnPassCnt 1).setLast p (if inPlace then 3 else 1)
        let s := if whole then { s with brn := { s.brn with lastPass := tset 0 s.brn.lastPass p (s.minutes + 1) } } else s
        let s := s.notePasses p t.set (want.filter (fullPacks t.set none).contains)
        (s.endOp t.cmd stOk 0, if s.fenceOpen p then Role.fenced else Role.spare)
    let s := { s with brn := { s.brn with paused := s.brn.paused.filter (· != p) } }
    (s.setTest { t with outcome := some role, cmd := none }).replCheck

/-! ### Positions that change hands (R41, R234, R389, R393) -/

def State.passOf (s : State) (p : Nat) : Nat := tget 0 s.brn.lastPass p

/-- The SPARE of a field with the most recent full pass, lowest p first. -/
def State.bestSpare (s : State) (f : Nat) : Option Nat :=
  (s.rolesIn f .spare).foldl (fun best p => match best with
    | none => some p
    | some q => if s.passOf q < s.passOf p then some p else some q) none

/-- Copies the region and shard tables of a core to another. -/
def State.copyTables (s : State) (a b : Nat) : State :=
  let ks := (List.range 32).map (fun k => (Reg.coreShardLo a 0 + 4 * k, Reg.coreShardLo b 0 + 4 * k)) ++
    (List.range 128).map (fun k => (Reg.cmbRgnBase a 0 + 4 * k, Reg.cmbRgnBase b 0 + 4 * k))
  ks.foldl (fun s e => s.rset e.2 (s.rget e.1)) s

/-- A rotation whose copy is complete takes effect; one whose core fired a check is abandoned (R393, R403). -/
def State.takeRotation (s : State) (r : Rotation) : State :=
  if s.asy.recs.any (fun x => x.pcore == r.old) ∨ (s.roleOf r.old).role ≠ .active ∨ (s.roleOf r.new).role ≠ .spare then
    { s with brn := { s.brn with rotations := s.brn.rotations.filter (fun x => x != r) } }
  else if !r.copied then s
  else
    let v := (s.roleOf r.old).v
    let s := (s.setCore r.new (s.core r.old)).copyTables r.old r.new
    let s := s.setRole r.new ⟨.active, v, false⟩
    let s := { s with brn := { s.brn with rotations := s.brn.rotations.filter (fun x => x != r) } }
    s.startTest r.old .full none none false

/-- A position lost its core: a spare of the field takes it with nothing copied, or the field is empty (R41, R389). -/
def State.refill (s : State) (v : Nat) : State :=
  let f := v / 32
  match s.bestSpare f with
  | some p => s.setRole p ⟨.active, v, false⟩
  | none =>
    let s := ({ s with brn := { s.brn with fieldEmpty := true },
                       stroke := { s.stroke with drainNext := true } }).setDegraded
    s.raiseM 0x0612 (pgAsy 0) (f * 2 ^ 17) 0 f

/-- Takes the outcomes of ended tests (R41): SPARE on a pass, FENCED on a fail. A core under PAUSE keeps its position unless it
failed; one that failed gives its position up, and the device leaves RUN, since nothing of its state is copied (log entry 146). -/
def State.takeTests (s : State) : State :=
  let done := s.brn.tests.filter (fun t => t.outcome.isSome)
  let s := { s with brn := { s.brn with tests := s.brn.tests.filter (fun t => t.outcome.isNone) } }
  done.foldl (fun s t =>
    let old := s.roleOf t.core
    if t.outcome == some .fenced then
      let s : State := if s.fenceOpen t.core then s.setRoleKind t.core .fenced else s.fenceCore t.core 0 0
      if old.role = .active then
        { s with stroke := { s.stroke with drainNext := s.stroke.drainNext || s.mgmt.dev == DevState.run } }.refill old.v
      else s
    else if t.kind = .pause then s else s.setRoleKind t.core .spare) s

/-- Fences the cores of the assay records and the ninth and later cores at the boundary that closes the step (R384). -/
def State.openAssay (s : State) : State :=
  if s.asy.st ≠ 0 ∨ s.asy.recs.isEmpty then s
  else
    let hit := s.asy.recs.map (fun r => (r.pcore, r.v, targetOfKind r.kind, r.outcome)) ++
      s.asy.ninth.map (fun p => (p, (s.roleOf p).v, 0, 4))
    let s := hit.foldl (fun s e =>
      let held := (s.roleOf e.1).role == .active
      let s := s.fenceCore e.1 e.2.2.1 e.2.2.2
      if held then s.refill e.2.1 else s) s
    let s := { s with asy := { s.asy with st := 1, ninth := [] } }
    s.raiseM 0x0610 (pgAsy 0) 0 0 s.asy.recs.length

/-- The outcome of an assay record enters the fence list (R386, R388). -/
def State.fenceOutcome (s : State) (r : AssayRec) : State :=
  { s with brn := { s.brn with fences := s.brn.fences.map (fun e =>
      if e.core = r.pcore ∧ !e.returned then { e with unit := targetOfKind r.kind, outcome := r.outcome } else e) } }

/-! ### The schedule (R392 to R394) -/

/-- When a core was last tested, passed or not: its BRN_LAST in minutes plus 1, or 0 for never. -/
def State.testedAt (s : State) (p : Nat) : Nat :=
  if s.rfield (Reg.brnLast p) 27 2 = 0 then 0 else s.rfield (Reg.brnLast p) 0 27 + 1

/-- The due ACTIVE core of a field with the oldest last test, lowest p first. A deferred one is tried again at step boundaries, and once
DEFER_MAX has passed (R394). -/
def State.dueActive (s : State) (f : Nat) (closed : Bool) : Option Nat :=
  ((s.rolesIn f .active).filter (fun p => s.brn.due.contains p &&
      (closed || !s.brn.deferred.contains p || s.brn.overdue.contains p))).foldl (fun best p => match best with
    | none => some p
    | some q => if s.testedAt p < s.testedAt q then some p else some q) none

/-- A due core of a field without a SPARE waits or is tested under PAUSE, by POLICY (R394). -/
def State.noSpare (s : State) (p : Nat) : State :=
  if s.rbit Reg.brnCfg 1 || s.brn.overdue.contains p then s.startTest p .pause none none false
  else if s.brn.deferred.contains p then s
  else
    let s := { s with brn := { s.brn with deferred := s.brn.deferred ++ [p] } }
    (s.bump Reg.brnDeferCnt 1).raiseM 0x0622 pgBrn p 0 p

/-- One field at a boundary (R392); `closed`: it closes a step. -/
def State.burnishField (s : State) (closed : Bool) (f : Nat) : State :=
  let busy := s.brn.tests.any (fun t => fieldOf t.core == f) || s.brn.rotations.any (fun r => r.field == f)
  if busy then s
  else
    let spare := (s.rolesIn f .spare).find? s.brn.due.contains
    match spare with
    | some p => s.startTest p .full none none false
    | none =>
      if s.mgmt.dev ≠ .run then s
      else match s.dueActive f closed with
        | none => s
        | some p =>
          match s.bestSpare f with
          | some q => { s with brn := { s.brn with rotations := s.brn.rotations ++ [(⟨f, p, q, false⟩ : Rotation)] } }
          | none => s.noSpare p

/-- The burnish schedule at a boundary, in READY and RUN only (R403). A PAUSE slice begins on a core with no instruction in flight (R394). -/
def State.burnishStep (s : State) (closed : Bool) : State :=
  let s := if s.rbit Reg.brnCfg 0 && (s.mgmt.dev == .run || s.mgmt.dev == .ready) then
      (List.range 4).foldl (fun s f => s.burnishField closed f) s
    else s
  if s.mgmt.dev = .run then
    let slices := s.brn.tests.filter (fun t => t.kind == .pause && t.outcome.isNone && (s.core t.core).held.isEmpty)
    { s with brn := { s.brn with paused := slices.map (·.core) } }
  else s

/-- Order 7 of R61. -/
def State.roleStep (s : State) (closed : Bool) : State :=
  let s := if closed then s.openAssay else s
  let s := s.takeTests
  let s := s.brn.rotations.foldl (fun s r => s.takeRotation r) s
  s.burnishStep closed

/-! ### Signed images (R390, R391, R450) -/

/-- The pack image of R390, as its header describes it. -/
def parsePacks (image : List Byte) : PackImage :=
  let n := leNat ((image.drop 2).take 1)
  { version := leNat (image.take 2), image := image
    packs := (List.range n).map (fun j =>
      let h := image.drop (16 + 16 * j)
      let ofs := leNat ((h.drop 8).take 4)
      let len := leNat ((h.drop 12).take 4)
      ⟨leNat (h.take 1), leNat ((h.drop 1).take 1), leNat ((h.drop 4).take 4),
        ((image.drop (ofs + len)).take 32)⟩) }

def signedBody (image : List Byte) : List Byte := image.take (image.length - 384)
def signatureOf (image : List Byte) : List Byte := image.drop (image.length - 384)

/-- A pack image is installed only with a good signature and a VERSION above the one installed (R391). -/
def State.installPacks (s : State) (image : List Byte) : State :=
  let new := parsePacks image
  let have_ := match s.brn.nextPacks with | some q => q.version | none => s.brn.packs.version
  let ok := rsaVerify (signedBody image) (signatureOf image) && decide (have_ < new.version) &&
    decide (1 ≤ new.packs.length ∧ new.packs.length ≤ 32) && decide (1408 ≤ image.length)
  if ok then { s with brn := { s.brn with nextPacks := some new } } else s.raiseM 0x0624 pgBrn 0 0 new.version

/-- The installed packs come into force (R391). What a fenced core has passed of the old ones counts no longer (log entry 55). -/
def State.takePacks (s : State) : State :=
  match s.brn.nextPacks with
  | none => s
  | some q => { s with brn := { s.brn with
      packs := q, nextPacks := none
      fences := s.brn.fences.map (fun (e : FenceEntry) => { e with passed := [] }) } }

/-- What is wrong with a firmware image: 1 signature, 2 SVN, 3 header (R450, R460). -/
def State.fwFault (s : State) (image : List Byte) : Option Nat :=
  let body := leNat ((image.drop 12).take 4)
  if leNat (image.take 4) ≠ 0x46375A46 ∨ 16 * 2 ^ 20 - 640 < body ∨ image.length ≠ 640 + body then some 3
  else if !rsaVerify (signedBody image) (signatureOf image) then some 1
  else if leNat ((image.drop 8).take 4) < s.fuses.minSvn then some 2
  else none

def fwVersionOf (image : List Byte) : Nat := leNat ((image.drop 4).take 4)
def fwSvnOf (image : List Byte) : Nat := leNat ((image.drop 8).take 4)

/-- FW_UPDATE, by ring or MCTP (R451): checked, then written; or refused. -/
def State.fwUpdate (s : State) (image : List Byte) (cmd : Option CmdRef) : State :=
  match s.fwFault image with
  | some k => (s.raiseM 0x0803 pgMss 0 0 k).endOp cmd stFailed 0
  | none => { s with ring := { s.ring with fwWrite := s.ring.fwWrite ++ [(image, cmd)] }, mgmt := { s.mgmt with spiWpN := true } }

end Sys2Proof.Machine
end

