-- ==== Sys2Proof/Machine/LoadOps.lean ====
section
/-!
DEFINITION. Weight loads (R355 to R373): the descriptor and its checks, decoding of chunks, the swage, seals, the fence of a
replacement.
-/

namespace Sys2Proof.Machine

open Sys2Proof

/-! ### The descriptor (R356 to R363) -/

/-- A field of a block in host memory. -/
def blk (b : List Byte) (o n : Nat) : Nat := leNat ((b.drop o).take n)

def swageEnt (b : List Byte) : SwageEnt :=
  let op := blk b 6 1
  { tensor := wOf (blk b 0 4), srcFmt := blk b 4 1, dstFmt := blk b 5 1, layout := op % 2, mx := op / 2 % 2 == 1,
    sat := op / 4 % 2 == 1, rule := op / 8 % 2 == 1, rmode := op / 16 % 4,
    layer := if op / 64 % 2 = 1 then some (blk b 7 1) else none, rows := blk b 8 4, cols := blk b 12 4,
    srcOfs := blk b 16 8, bulk := (blk b 24 8).testBit 63, dst := blk b 24 8 % 2 ^ 40, scaleDst := blk b 32 8,
    tileK := blk b 40 2 }

/-- The chunk directory (R357): of each chunk its stored offset, stored length and CRC. -/
def loadDir (chunks : Nat) (b : List Byte) : List (Nat × Nat × Word) :=
  (List.range (min chunks (2 ^ 20))).map (fun i => (blk b (16 * i) 8, blk b (16 * i + 8) 4, wOf (blk b (16 * i + 12) 4)))

/-- The distribution table (R358): of each member index in the load its parent and children. One whose NCHILD is above 8 keeps it as a list
that is too long, which is refused. -/
def loadTree (b : List Byte) : List (Nat × Nat × List Nat) :=
  ((List.range (b.length / 32)).map (fun m =>
    (m, blk b (32 * m) 2, (List.range (blk b (32 * m + 2) 1)).map (fun j => blk b (32 * m + 4 + 2 * j) 2)))).filter
      (fun e => e.2.1 != 0xFFFE)

def loadDesc (r : HostRefs) : LoadDesc :=
  let b := r.block
  let fl := blk b 4 1
  { id := wOf (blk b 0 4), enc := fl.testBit 0, defl := fl.testBit 1, replace := fl.testBit 2, fenceAt := fl.testBit 3,
    srcBulk := fl.testBit 4, readerDest := fl.testBit 5, chunkLog := blk b 5 1, reader := blk b 6 2, chunks := blk b 8 4,
    first := blk b 12 4, src := blk b 16 8, nonce := (b.drop 60).take 8, seed := BitVec.ofNat 64 (blk b 68 8),
    stage := blk b 76 8, stageLen := blk b 84 8, plainLen := blk b 92 8, fenceAdmit := blk b 100 8
    dir := loadDir (blk b 8 4) r.dir, tree := loadTree r.tree, swage := r.swage.map swageEnt }

def fmtOf (c : Nat) : Option Fmt := if c < 16 then Fmt.ofCode (BitVec.ofNat 4 c) else none
def SwageEnt.src (e : SwageEnt) : Fmt := (fmtOf e.srcFmt).getD .fp32
def SwageEnt.dstF (e : SwageEnt) : Fmt := (fmtOf e.dstFmt).getD .fp32
def SwageEnt.copy (e : SwageEnt) : Bool := e.srcFmt == e.dstFmt && !e.mx
def SwageEnt.elems (e : SwageEnt) : Nat := e.rows * e.cols
def packedLen (f : Fmt) (n : Nat) : Nat := (n * f.width + 7) / 8

/-- Tiles along the rows and the columns, and bytes of one tile column (R363). -/
def SwageEnt.tileRows (e : SwageEnt) : Nat := (e.rows + e.tileK - 1) / max 1 e.tileK
def SwageEnt.tileCols (e : SwageEnt) : Nat := (e.cols + 63) / 64
def SwageEnt.colBytes (e : SwageEnt) : Nat := e.tileK * e.dstF.width / 8

/-- Bytes of a tensor and of its scales at their destinations. -/
def SwageEnt.dstLen (e : SwageEnt) : Nat :=
  if e.layout = 1 then e.tileRows * e.tileCols * 64 * e.colBytes else packedLen e.dstF e.elems
def SwageEnt.scaleLen (e : SwageEnt) : Nat :=
  if !e.mx then 0 else if e.layout = 1 then e.tileRows * e.tileCols * 2 * e.tileK else e.rows * ((e.cols + 31) / 32)

/-- Spans a load writes: tier, first byte, length. -/
def LoadDesc.spans (d : LoadDesc) : List (Bool × Nat × Nat) :=
  d.swage.flatMap (fun e => (e.bulk, e.dst, e.dstLen) :: (if e.mx then [(e.bulk, e.scaleDst, e.scaleLen)] else []))

def overlap (a b : Bool × Nat × Nat) : Bool :=
  a.1 == b.1 && decide (a.2.1 < b.2.1 + b.2.2 ∧ b.2.1 < a.2.1 + a.2.2)

/-- Every megabyte of an HBM span lies in a Correct-class region (R364). -/
def State.spanOk (s : State) (x : Bool × Nat × Nat) : Bool :=
  x.2.2 == 0 || decide (x.2.1 + x.2.2 ≤ s.capOf x.1) &&
  (x.1 || (List.range (x.2.2 / 2 ^ 20 + 2)).all (fun k =>
    let a := min (x.2.1 + k * 2 ^ 20) (x.2.1 + x.2.2 - 1)
    (s.classOf a).1))

/-- A swage entry breaks no rule of R361 to R363. -/
def SwageEnt.ok (d : LoadDesc) (raw : List Byte) (e : SwageEnt) : Bool :=
  let f3 : List Fmt := [.fp32, .bf16, .fp16]
  (fmtOf e.srcFmt).isSome && (fmtOf e.dstFmt).isSome && decide (blk raw 6 1 < 128) &&
  (e.copy || (f3.contains e.src &&
    (if e.mx then [Fmt.e4m3, .e5m2, .e3m2, .e2m3, .e2m1].contains e.dstF
     else [Fmt.fp32, .bf16, .fp16, .e4m3, .e5m2].contains e.dstF))) &&
  decide (e.rmode < 3) && (match e.layer with | none => true | some l => decide (l < 64)) &&
  decide (e.srcOfs + packedLen e.src e.elems ≤ d.plainLen) &&
  decide (blk raw 24 8 / 2 ^ 40 % 2 ^ 23 = 0) &&
  (e.layout == 0 || ([64, 128, 256].contains e.tileK && decide (e.tileK ≤ ktOf e.dstF))) &&
  decide (blk raw 42 22 = 0)

/-- The members that a distribution table reaches from a member. -/
def reach (tree : List (Nat × Nat × List Nat)) : Nat → List Nat → List Nat
  | 0, ms => ms
  | n + 1, ms => reach tree n (ms ++ (ms.flatMap (fun m => match tree.find? (fun e => e.1 == m) with
      | some e => e.2.2 | none => [])).filter (fun c => !ms.contains c)).eraseDups

/-- The entries form one tree rooted at READER (R358). -/
def LoadDesc.treeOk (d : LoadDesc) : Bool :=
  let inn := d.tree.filter (fun e => e.2.1 != 0xFFFE)
  let kids := inn.flatMap (·.2.2)
  inn.all (fun e => decide (e.2.2.length ≤ 8) && (if e.1 = d.reader then e.2.1 == 0xFFFF else
    (inn.find? (fun q => q.1 == e.2.1)).any (fun q => q.2.2.contains e.1))) &&
  inn.any (fun e => e.1 == d.reader) && kids.length == kids.eraseDups.length && !kids.contains d.reader &&
  inn.all (fun e => (reach d.tree inn.length [d.reader]).contains e.1) && kids.all (fun k => inn.any (fun e => e.1 == k))

def LoadRun.active (r : LoadRun) : Bool := !r.failed && !r.aborted && !r.complete

/-- The first faulty field of a descriptor, by its offset (R355, R503). -/
def State.loadFault (s : State) (d : LoadDesc) (refs : HostRefs) : Option Nat :=
  let b := refs.block
  let run := s.mgmt.dev == .run
  let live := s.load.loads.filter LoadRun.active
  let faults : List (Nat × Bool) :=
    [(4, 64 ≤ blk b 4 1 || d.replace != run || (d.enc && decide (4 ≤ (live.filter (fun r => r.desc.enc)).length))),
     (5, d.chunkLog < 16 || 24 < d.chunkLog), (6, 8191 < d.reader),
     (8, d.chunks ≠ (d.plainLen + 2 ^ d.chunkLog - 1) / 2 ^ d.chunkLog || 2 ^ 20 < d.chunks), (12, d.chunks < d.first),
     (32, !d.treeOk),
     (40, !(List.zip refs.swage d.swage).all (fun e => e.2.ok d e.1) || !d.spans.all s.spanOk ||
       live.any (fun r => r.desc.spans.any (fun x => d.spans.any (overlap x))) ||
       (d.enc && decide (64 < s.load.seals.length + d.spans.length))),
     (48, d.swage.length < 1 || 4096 < d.swage.length || blk b 48 4 ≠ d.swage.length), (108, blk b 108 20 ≠ 0)]
  (faults.find? (·.2)).map (·.1)

/-! ### The swage (R362, R363) -/

/-- Replaces `w` bits at bit address `a` of a tier. -/
def State.pokeBits (s : State) (bulk : Bool) (a w v : Nat) : State :=
  let n := (a % 8 + w + 7) / 8
  let old := leNat (s.peekMem bulk (a / 8) n)
  let new := old - old / 2 ^ (a % 8) % 2 ^ w * 2 ^ (a % 8) + v % 2 ^ w * 2 ^ (a % 8)
  s.poke bulk (a / 8) (leBytes n new)

/-- Bit address of element (r, c) at its destination. -/
def SwageEnt.place (e : SwageEnt) (r c : Nat) : Nat :=
  let w := e.dstF.width
  if e.layout = 0 then 8 * e.dst + (r * e.cols + c) * w
  else
    let t := (r / e.tileK) * e.tileCols + c / 64
    8 * (e.dst + t * 64 * e.colBytes + c % 64 * e.colBytes) + r % e.tileK * w

/-- Address of the scale of the block that holds element (r, c). -/
def SwageEnt.scaleAt (e : SwageEnt) (r c : Nat) : Nat :=
  if e.layout = 0 then e.scaleDst + r * ((e.cols + 31) / 32) + c / 32
  else e.scaleDst + ((r / e.tileK) * e.tileCols + c / 64) * 2 * e.tileK + c % 64 * (e.tileK / 32) + r % e.tileK / 32

/-- Chunks that the swage has, with their plaintext. -/
abbrev PlainChunks := List (Nat × List Byte)

/-- A byte of the plaintext stream, where its chunk has been decoded. A byte below FIRST_CHUNK that no chunk of this load brings is
a free value (log entry 63). -/
def LoadDesc.plainByte (d : LoadDesc) (pl : PlainChunks) (k : Nat) : Option Byte :=
  let c := k / 2 ^ d.chunkLog
  if c < d.first then some (Config.plainBelow d.id k)
  else (pl.find? (fun e => e.1 == c)).map (fun e => e.2.getD (k % 2 ^ d.chunkLog) 0)

/-- The encoding of element `i` of a tensor, where its bytes are there. -/
def LoadDesc.elem (d : LoadDesc) (pl : PlainChunks) (e : SwageEnt) (i : Nat) : Option Word :=
  let w := e.src.width
  let a := i * w / 8
  let n := (i * w % 8 + w + 7) / 8
  let bs := (List.range n).map (fun k => d.plainByte pl (e.srcOfs + a + k))
  if bs.all (·.isSome) then some (wOf (leNat (bs.map (fun b => b.getD 0)) / 2 ^ (i * w % 8) % 2 ^ w)) else none

/-- Some byte of element `i` lies in chunk `c`. -/
def LoadDesc.inChunk (d : LoadDesc) (e : SwageEnt) (c i : Nat) : Bool :=
  let w := e.src.width
  let cl := 2 ^ d.chunkLog
  decide ((e.srcOfs + i * w / 8) / cl ≤ c ∧ c ≤ (e.srcOfs + (i * w + w - 1) / 8) / cl)

def swageSeed (d : LoadDesc) (e : SwageEnt) (i : Nat) : Word := seedBits d.seed 0 e.tensor i

def modeOfNat (n : Nat) : RMode := (RMode.ofCode (BitVec.ofNat 2 n)).getD .rne

/-- One element converted, with its flags. -/
def swageElem (d : LoadDesc) (e : SwageEnt) (i : Nat) (v : Word) : Word × Flg :=
  if e.copy then (v, 0)
  else roundFloat e.dstF (decodeFloat e.src v) (modeOfNat e.rmode) e.sat false (swageSeed d e i)

def State.ldFlags (s : State) (f : Flg) : State :=
  s.rset Reg.igsLdStat (s.rget Reg.igsLdStat ||| (f.zeroExtend 32 <<< 8))

/-- Writes element (r, c) if its bytes have all come and some of them with chunk `k`. -/
def State.swageOne (s : State) (d : LoadDesc) (pl : PlainChunks) (e : SwageEnt) (k i : Nat) : State :=
  if !d.inChunk e k i then s
  else match d.elem pl e i with
    | none => s
    | some v =>
      let (x, f) := swageElem d e i v
      (s.pokeBits e.bulk (e.place (i / e.cols) (i % e.cols)) e.dstF.width x.toNat).ldFlags f

/-- The elements of an MX block: (row, column) of each place, whether inside the tensor or padding. Linear, the last block of a row whose
length is no multiple of 32 holds the elements that are left, and the packed row goes on behind them (DESIGN CHOICE, log entry 152). -/
def SwageEnt.block (e : SwageEnt) (r c : Nat) : List (Nat × Nat) :=
  if e.layout = 0 then (List.range (min 32 (e.cols - c))).map (fun j => (r, c + j)) else (List.range 32).map (fun j => (r + j, c))

/-- Writes the MX block that begins at (r, c). -/
def State.swageBlock (s : State) (d : LoadDesc) (pl : PlainChunks) (e : SwageEnt) (k r c : Nat) : State :=
  let ps := e.block r c
  let inside := fun (p : Nat × Nat) => decide (p.1 < e.rows ∧ p.2 < e.cols)
  let idx := fun (p : Nat × Nat) => p.1 * e.cols + p.2
  let touches := ps.any (fun p => inside p && d.inChunk e k (idx p)) ||
    (!ps.any inside && d.inChunk e k (e.elems - 1))
  let vals := ps.map (fun p => if inside p then d.elem pl e (idx p) else some 0)
  if !touches || vals.any (·.isNone) then s
  else
    let (sc, xs, f) := mxEncode e.dstF (vals.map (fun v => decodeFloat e.src (v.getD 0))) e.rule (modeOfNat e.rmode)
      (fun j => swageSeed d e (idx (ps.getD j (0, 0))))
    let s := (List.zip ps xs).foldl (fun s q => s.pokeBits e.bulk (e.place q.1.1 q.1.2) e.dstF.width q.2.toNat) s
    (s.poke e.bulk (e.scaleAt r c) [sc]).ldFlags f

/-- Zero encodings of the positions of stationary tiles outside the tensor (R363). -/
def State.swagePad (s : State) (e : SwageEnt) : State :=
  (List.range (e.tileRows * e.tileK)).foldl (fun s r => (List.range (e.tileCols * 64)).foldl (fun s c =>
    if e.rows ≤ r ∨ e.cols ≤ c then s.pokeBits e.bulk (e.place r c) e.dstF.width 0 else s) s) s

/-- Takes chunk `k` of a tensor to its destination. -/
def State.swageChunk (s : State) (d : LoadDesc) (pl : PlainChunks) (e : SwageEnt) (k : Nat) : State :=
  let s := if e.layout = 1 ∧ !e.mx ∧ d.inChunk e k (e.elems - 1) then s.swagePad e else s
  if e.mx then
    if e.layout = 0 then
      (List.range e.rows).foldl (fun s r => (List.range ((e.cols + 31) / 32)).foldl
        (fun s b => s.swageBlock d pl e k r (32 * b)) s) s
    else
      (List.range (e.tileRows * e.tileK / 32)).foldl (fun s b => (List.range (e.tileCols * 64)).foldl
        (fun s c => s.swageBlock d pl e k (32 * b) c) s) s
  else (List.range e.elems).foldl (fun s i => s.swageOne d pl e k i) s

/-! ### Runs -/

/-- A load whose packets this device still sends on: also one that has failed here alone (R359, R360). -/
def LoadRun.live (r : LoadRun) : Bool := !r.aborted && !r.complete

def State.setLoad (s : State) (r : LoadRun) : State :=
  { s with load := { s.load with loads := s.load.loads.map (fun x => if x.desc.id = r.desc.id ∧ x.live then r else x) } }

def State.loadOf (s : State) (id : Word) : Option LoadRun := s.load.loads.find? (fun r => r.desc.id == id && r.active)
def State.liveLoad (s : State) (id : Word) : Option LoadRun := s.load.loads.find? (fun r => r.desc.id == id && r.live)

/-- The resume point (R360). -/
def resumePoint (d : LoadDesc) (written : List Nat) : Nat :=
  ((List.range (d.chunks + 1)).find? (fun r => decide (d.first ≤ r) && (r == d.chunks || !written.contains r))).getD d.chunks

def State.ldState (s : State) (n : Nat) : State := s.rsetField Reg.igsLdStat 0 2 n

/-- A fabric-level event of a load (R373). -/
def State.raiseLoad (s : State) (code peer : Nat) (id : Word) (detail : Nat) : State :=
  s.raise (ev code (pgIgs 1) (s.objM (peer * 64)) id.toNat detail)

/-- A load fails on this device alone (R360): it goes on to forward, and as reader to send. -/
def State.failLoad (s : State) (r : LoadRun) (code peer detail : Nat) : State :=
  let s := (s.setLoad { r with failed := true, key := [] }).raiseLoad code peer r.desc.id detail
  (s.ldState 3).endOp r.cmd stFailed 0

/-- Layers of the tensors whose data a chunk holds. -/
def LoadRun.chunkEnts (r : LoadRun) (k : Nat) : List SwageEnt :=
  r.desc.swage.filter (fun e =>
    let cl := 2 ^ r.desc.chunkLog
    decide (0 < e.elems ∧ e.srcOfs / cl ≤ k ∧ k ≤ (e.srcOfs + packedLen e.src e.elems - 1) / cl))

/-- A decoded chunk may be written: always outside a replacement; in one, once the fence is closed and every layer of it is free
(R369). -/
def State.chunkFree (s : State) (r : LoadRun) (k : Nat) : Bool :=
  !r.desc.replace || (s.load.fenceClosed && (r.chunkEnts k).all (fun e => match e.layer with | none => true | some l => s.layerFree l))

/-- A layer is written once every chunk of its tensors is. -/
def LoadRun.layerWritten (r : LoadRun) (l : Nat) : Bool :=
  (List.range r.desc.chunks).all (fun k => decide (k < r.desc.first) || r.written.contains k ||
    !(r.chunkEnts k).any (fun e => e.layer == some l))
def LoadDesc.layers (d : LoadDesc) : List Nat := (d.swage.filterMap (·.layer)).eraseDups

/-- Stored length of a chunk (R357). -/
def LoadDesc.stored (d : LoadDesc) (k : Nat) : Nat := (d.dir.getD k (0, 0, 0)).2.1

/-- The lowest place in the staging region with room for `len` bytes (DESIGN CHOICE, log entry 153). -/
def LoadRun.freePlace (r : LoadRun) (len : Nat) : Option Nat :=
  (0 :: r.places.map (fun e => e.2 + r.desc.stored e.1)).find? (fun o => decide (o + len ≤ r.desc.stageLen) &&
    r.places.all (fun e => decide (e.2 + r.desc.stored e.1 ≤ o ∨ o + len ≤ e.2)))

/-- A chunk of this device's weights has a place in the staging region, where it has to wait there. -/
def State.reserve (s : State) (r : LoadRun) (k : Nat) : LoadRun :=
  if s.chunkFree r k ∨ r.places.any (fun e => e.1 == k) then r
  else match r.freePlace (r.desc.stored k) with
    | none => r
    | some o => { r with places := r.places ++ [(k, o)] }

/-- A stored chunk decoded (R357, R359, R366): its plaintext, or the event that its failure raises. -/
def decodeChunk (r : LoadRun) (k : Nat) (stored : List Byte) : Sum (List Byte) Nat :=
  let d := r.desc
  let (_, len, crc) := d.dir.getD k (0, 0, 0)
  let plain := min (2 ^ d.chunkLog) (d.plainLen - k * 2 ^ d.chunkLog)
  let stored := stored.take len
  let opened := if d.enc then
      gcmOpen r.key (d.nonce ++ beBytes 4 k) (leBytes 4 d.id.toNat ++ leBytes 4 k ++ leBytes 4 len ++ leBytes 4 0) stored
    else some stored
  match opened with
  | none => .inr 0x0811
  | some o =>
    match (if d.defl then inflate o else some o) with
    | none => .inr 0x0412
    | some p => if p.length = plain ∧ crc32c p = crc then .inl p else .inr 0x0412

/-- Chunks of the staging region that may be written now go to the swage, in their stored form. -/
def State.takeStaged (s : State) (r : LoadRun) : LoadRun × State :=
  (r.staged.filter (fun k => s.chunkFree r k)).foldl (fun (acc : LoadRun × State) k =>
    let (r, s) := acc
    let a := r.desc.stage + ((r.places.find? (fun e => e.1 == k)).map (·.2)).getD 0
    let n := r.desc.stored k
    ({ r with staged := r.staged.filter (· != k), places := r.places.filter (fun e => e.1 != k),
              taken := r.taken ++ [(k, s.peekMem true a n)] }, s.peekNote true a n)) (r, s)

/-- Swages every chunk that may be written now. A staged chunk that does not decode when it is taken fails the load. -/
def State.swageReady (s : State) (id : Word) : State :=
  match s.loadOf id with
  | none => s
  | some r =>
    let (r, s) := s.takeStaged r
    let dec := r.taken.map (fun e => (e.1, decodeChunk r e.1 e.2))
    let pl : PlainChunks := dec.filterMap (fun e => match e.2 with | .inl p => some (e.1, p) | .inr _ => none)
    let ks := (pl.map (·.1)).filter (fun k => !r.written.contains k)
    let s := ks.foldl (fun s k => (r.chunkEnts k).foldl (fun s e => s.swageChunk r.desc pl e k) s) s
    let r := { r with written := r.written ++ ks }
    let s := s.setLoad r
    let s := if r.desc.replace then { s with load := { s.load with layersDone := r.desc.layers.filter r.layerWritten } } else s
    let s := (s.rset Reg.igsLdChunks (wOf (resumePoint r.desc r.written))).rset Reg.igsLdId r.desc.id
    match dec.findSome? (fun e => match e.2 with | .inl _ => none | .inr code => some (e.1, code)) with
    | none => s
    | some (k, code) => s.failLoad r code 0 k

/-- A complete stored chunk reaches this device's swage: what does not decode fails the load, what has to wait goes to the staging region in
its stored form (R366, R369). -/
def State.takeChunk (s : State) (id : Word) (k : Nat) (stored : List Byte) : State :=
  match s.loadOf id with
  | none => s
  | some r =>
    if r.staged.contains k ∨ r.taken.any (fun e => e.1 == k) then s
    else match decodeChunk r k stored with
      | .inr code => s.failLoad r code 0 k
      | .inl _ =>
        let s := s.ldState (if s.load.fenceClosed then 2 else 1)
        let bs := stored.take (r.desc.stored k)
        let r := s.reserve r k
        match r.places.find? (fun e => e.1 == k) with
        | some e => ((s.setLoad { r with staged := r.staged ++ [k] }).poke true (r.desc.stage + e.2) bs).swageReady id
        | none => (s.setLoad { r with taken := r.taken ++ [(k, bs)] }).swageReady id

/-- This device writes the load's weights. -/
def State.isDest (s : State) (d : LoadDesc) : Bool :=
  s.member != d.reader && d.tree.any (fun e => e.1 == s.member && e.2.1 != 0xFFFE) || (s.member == d.reader && d.readerDest)

def State.children (s : State) (d : LoadDesc) : List Nat :=
  match d.tree.find? (fun e => e.1 == s.member) with | none => [] | some e => e.2.2
def State.parentOf (s : State) (d : LoadDesc) : Nat :=
  match d.tree.find? (fun e => e.1 == s.member) with | none => 0 | some e => if e.2.1 < 8192 then e.2.1 else 0

/-- Sends bytes of a chunk to this device's children on TC3 (R359). -/
def State.feedChildren (s : State) (d : LoadDesc) (k : Nat) (bs : List Byte) : State :=
  (s.children d).foldl (fun s m => match s.flowTo m 3 with
    | none => s
    | some f => s.sendMsg f 0 0 0 d.id (wOf k) s.stroke.step false 0 bs) s

/-- The reader reads its next stored chunk and sends it on. -/
def State.readChunk (s : State) (id : Word) (k : Nat) (host : List Byte) : State :=
  match s.liveLoad id with
  | none => s
  | some r =>
    if s.member ≠ r.desc.reader ∨ k ≠ r.next ∨ r.desc.chunks ≤ k then s
    else
      let (ofs, len, _) := r.desc.dir.getD k (0, 0, 0)
      let bs := if r.desc.srcBulk then s.peekMem true (r.desc.src + ofs) len else host.take len
      let s := if r.desc.srcBulk then s.peekNote true (r.desc.src + ofs) len else s
      let s := (s.setLoad { r with next := k + 1 }).feedChildren r.desc k bs
      if s.isDest r.desc then s.takeChunk id k bs else s

/-- Starts a load (R355, R365). Answers the faulty field, or none. -/
def State.startLoad (s : State) (cmd : Option CmdRef) (refs : HostRefs) : Option Nat × State :=
  let d := loadDesc refs
  match s.loadFault d refs with
  | some o => (some o, s)
  | none =>
    let key := if d.enc then unwrapKey refs.key else some []
    let good := match key with
      | none => false
      | some k => !d.enc || (wOf (blk k 32 4) == d.id && k.length == 40)
    let run : LoadRun := ⟨d, cmd, (key.getD []).take 32, [], d.first, [], [], [], [], false, false, false, false⟩
    let s := { s with load := { s.load with loads := s.load.loads.filter (fun (x : LoadRun) => x.desc.id != d.id || !x.failed) ++ [run],
                                            layersDone := if d.replace then [] else s.load.layersDone } }
    let s := if d.enc then { s with load := { s.load with seals := s.load.seals ++ d.spans.map (fun x => (⟨d.id, x.1, x.2.1, x.2.2⟩ : Seal)) } } else s
    let s := ((s.ldState (if s.load.fenceClosed then 2 else 1)).rset Reg.igsLdId d.id).rset Reg.igsLdChunks (wOf d.first)
    (none, if d.enc ∧ !good then s.failLoad run 0x0810 0 0 else s)

/-- Every chunk has been written: the load completes, with LOAD_ID in its completion (R360; log entry 154); a replacement's completion registers and the fence opens at the next
boundary (R369). -/
def State.finishLoad (s : State) (id : Word) : State :=
  match s.loadOf id with
  | none => s
  | some r =>
    let d := r.desc
    let own := !s.isDest d || (List.range d.chunks).all (fun k => decide (k < d.first) || r.written.contains k)
    let sent := s.member ≠ d.reader || d.chunks ≤ r.next
    if r.registered || !own || !sent then s
    else if d.replace then s.setLoad { r with registered := true, key := [] }
    else
      let s := (s.setLoad { r with registered := true, complete := true, key := [] }).raiseLoad 0x0410 0 id r.written.length
      (s.ldState 0).endOp r.cmd stOk (id.zeroExtend 64)

/-- Ends a load by command, epoch or drain: nothing written is undone, and a closed fence stays closed (R371). -/
def State.abortLoad (s : State) (r : LoadRun) : State := (s.setLoad { r with aborted := true, key := [] }).ldState (if s.load.fenceClosed then 2 else 0)

/-! ### The fence (R368, R369) -/

/-- Adds to the admission counter as the network does. -/
def State.permit (s : State) (n : Nat) : State :=
  let w := s.rget Reg.igsLdAdm
  match s.ldCore w with
  | none => s
  | some p =>
    if n = 0 then s
    else
      let s := s.ctrAdd p (s.roleOf p).v (fieldNat w 0 12) (wOf n) 5
      { s with load := { s.load with permitsAdded := s.load.permitsAdded + n } }

/-- Raises the admission counter to PERMITS, no further than FENCE_ADMIT allows. -/
def State.topUp (s : State) (limit : Nat) : State :=
  let w := s.rget Reg.igsLdAdm
  if !w.getLsbD 31 then s
  else
    let want := fieldNat w 19 8 - s.ldCtr w
    s.permit (if limit = 0 then want else min want (limit - s.load.permitsAdded))

/-- Closes the fence: the counter's value is taken back, ADMITTED frozen. -/
def State.closeFence (s : State) : State :=
  let w := s.rget Reg.igsLdAdm
  let n := s.admitted
  let s := match s.ldCore w with
    | none => s
    | some p => let c := s.core p; s.setCore p { c with ctr := tset 0 c.ctr (fieldNat w 0 12) 0 }
  let s := { s with load := { s.load with fenceClosed := true, frozen := some n } }
  (s.ldState 2).raiseLoad 0x0414 0 (s.rget Reg.igsLdId) (n % 2 ^ 32)

/-- Opens it after a complete replacement. -/
def State.openFence (s : State) (r : LoadRun) : State :=
  let n := s.admitted
  let left := s.load.permitsAdded - n
  let s := s.setLoad { r with complete := true }
  let s := { s with load := { s.load with fenceClosed := false, frozen := none, permitsAdded := s.load.permitsAdded - left } }
  let s := s.permit (s.rfield Reg.igsLdAdm 19 8)
  let s := s.bump Reg.igsLdVer 1
  let s := s.raiseLoad 0x0415 0 r.desc.id (s.rget Reg.igsLdVer).toNat
  let s := s.raiseLoad 0x0410 0 r.desc.id r.written.length
  (s.ldState 0).endNow r.cmd stOk (BitVec.ofNat 64 n)

/-- At every boundary (R368, R369): a finished replacement opens the fence, the fence closes when its conditions hold, and while it
is open the admission counter is raised. -/
def State.fenceStep (s : State) : State :=
  match s.load.loads.find? (fun r => r.desc.replace && r.active) with
  | some r =>
    if r.registered then s.openFence r
    else if s.load.fenceClosed then s.swageReady r.desc.id
    else
      let staged := !r.desc.fenceAt || !s.isDest r.desc ||
        (List.range r.desc.chunks).all (fun k => decide (k < r.desc.first) || r.staged.contains k || r.taken.any (fun e => e.1 == k))
      let cleared := r.desc.fenceAdmit == 0 || s.admitted == r.desc.fenceAdmit
      if staged && cleared then s.closeFence.swageReady r.desc.id else s.topUp r.desc.fenceAdmit
  | none => if s.load.fenceClosed then s else s.topUp 0

/-! ### Sealed bytes (R367) -/

def State.sealedByte (s : State) (bulk : Bool) (a : Nat) : Bool :=
  s.load.seals.any (fun x => x.bulk == bulk && decide (x.first ≤ a ∧ a < x.first + x.len))

/-- UNSEAL: sealed bytes are overwritten with zeros, and every seal ends. -/
def State.unseal (s : State) : State :=
  let s := s.load.seals.foldl (fun s x => s.poke x.bulk x.first (List.replicate x.len 0)) s
  { s with load := { s.load with seals := [] } }

end Sys2Proof.Machine
end

