-- ==== Sys2Proof/Machine/Windows.lean ====
section
/-!
DEFINITION. The spaces behind the BAR2 window (R441, R442): their extents, and reading and writing their bytes.
-/

namespace Sys2Proof.Machine

open Sys2Proof

/-- Bytes of a BAR2 target (R441). -/
def State.extent (s : State) (target : Nat) : Nat :=
  match target with
  | 0 => s.capOf false
  | 1 => s.capOf true
  | 2 => cmBytes
  | 3 => 131072
  | 4 => 384 * 65536
  | 5 => 2 ^ 20
  | _ => 0

/-- A core that a window can name: not fused off (R41). -/
def State.windowCore (s : State) (p : Nat) : Bool := decide (p < 144) && (s.roleOf p).role != .disabled

/-- A byte of a target within its extent. -/
def State.winByte (s : State) (target core a : Nat) : Byte :=
  match target with
  | 2 => if s.windowCore core then byteAt (s.core core).cm a else 0
  | 3 => if s.windowCore core then BitVec.ofNat 8 ((tget 0 (s.core core).istore (a / 8)).toNat / 2 ^ (8 * (a % 8))) else 0
  | 4 => byteAt s.mem.cal a
  | 5 => byteAt s.fab.table a
  | _ => 0

/-- Reads `n` bytes of a target; beyond the extent it reads as zero. -/
def State.winRead (s : State) (target core a n : Nat) : List Byte :=
  if target < 2 then
    let m := min n (s.extent target - a)
    s.peekMem (target == 1) a m ++ List.replicate (n - m) 0
  else (List.range n).map (fun k => if a + k < s.extent target then s.winByte target core (a + k) else 0)

/-- The counts and events of such a read, where it reads HBM or the bulk tier (R276). -/
def State.winNote (s : State) (target a n : Nat) : State :=
  if target < 2 then s.peekNote (target == 1) a (min n (s.extent target - a)) else s

/-- Writes a byte of an instruction store. -/
def setStoreByte (t : Tbl DWord) (a : Nat) (b : Byte) : Tbl DWord :=
  let w := (tget 0 t (a / 8)).toNat
  let sh := 2 ^ (8 * (a % 8))
  tset 0 t (a / 8) (BitVec.ofNat 64 (w - w / sh % 256 * sh + b.toNat * sh))

def setStoreBytes (t : Tbl DWord) (a : Nat) : List Byte → Tbl DWord
  | [] => t
  | b :: bs => setStoreBytes (setStoreByte t a b) (a + 1) bs

/-- Writes bytes of a target; what lies beyond the extent is dropped. -/
def State.winWrite (s : State) (target core a : Nat) (bs : List Byte) : State :=
  let bs := bs.take (s.extent target - a)
  match target with
  | 0 => s.poke false a bs
  | 1 => s.poke true a bs
  | 2 => if s.windowCore core then s.setCore core { s.core core with cm := setBytes (s.core core).cm a bs } else s
  | 3 => if s.windowCore core then
      s.setCore core { s.core core with istore := setStoreBytes (s.core core).istore a bs } else s
  | 4 => { s with mem := { s.mem with cal := setBytes s.mem.cal a bs } }
  | 5 => { s with fab := { s.fab with table := setBytes s.fab.table a bs } }
  | _ => s

/-- TARGET, CORE and BASE of PCI_BAR2_SEL (R459): the byte of the target at an offset of the window. -/
def selTarget (w : Word) : Nat := fieldNat w 0 4
def selCore (w : Word) : Nat := fieldNat w 4 8
def selAddr (w : Word) (off : Nat) : Nat := fieldNat w 12 20 * 2 ^ 28 + off

/-- The seal that a span of HBM or the bulk tier meets, if one does (R367). -/
def State.sealMet (s : State) (target a n : Nat) : Option Seal :=
  s.load.seals.find? (fun x => decide (target < 2) && x.bulk == (target == 1) && decide (x.first < a + n ∧ a < x.first + x.len))

def State.sealedSpan (s : State) (target a n : Nat) : Bool := (s.sealMet target a n).isSome

end Sys2Proof.Machine
end

