-- ==== Sys2Proof/Machine/RingOps.lean ====
section
/-!
DEFINITION. The command ring (R64 to R67, R443 to R448, R503): checking an entry, applying each of the fourteen commands, job start
(R237, R251, R447) and abort (R82 to R84).
-/

namespace Sys2Proof.Machine

open Sys2Proof

/-! ### Entries (R443, R444) -/

def entOp (e : RingEntry) : Nat := blk e.raw 0 2
def entTag (e : RingEntry) : Word := wOf (blk e.raw 4 4)
def entAt (e : RingEntry) : Nat := blk e.raw 8 8
def entRef (e : RingEntry) : CmdRef := ⟨entTag e, entOp e⟩

/-- The bytes from 16 up that an opcode gives a meaning. An address takes bytes 16 to 23 (DEDUCED, log entry 38). -/
def paramBytes (op : Nat) : List Nat :=
  match op with
  | 0x01 | 0x05 | 0x06 | 0x0E => List.range' 16 8
  | 0x02 => List.range' 16 4
  | 0x03 => List.range' 16 2
  | 0x04 => List.range' 16 20
  | 0x07 => 16 :: List.range' 20 28
  | 0x09 => [16]
  | 0x0A => [16, 17]
  | 0x0C => List.range' 16 12
  | _ => []

/-- The first offset at which a condition holds. -/
def firstFault (l : List (Nat × Bool)) : Option Nat := (l.find? (·.2)).map (·.1)

/-- What makes an entry malformed (R446): an unknown opcode, at offset 0, or the first nonzero reserved byte. -/
def entFault (e : RingEntry) : Option Nat :=
  let op := entOp e
  if op = 0 ∨ 0x0E < op then some 0
  else
    let used := List.range 2 ++ List.range' 4 12 ++ paramBytes op
    firstFault ((List.range 64).map (fun o => (o, !used.contains o && blk e.raw o 1 != 0)))

/-- ASSAY of the job block (R447). -/
def blockAssay (r : HostRefs) : Bool := (blk r.block 8 1).testBit 2

/-- The device takes an opcode in its present state (R444, R428). -/
def State.accepts (s : State) (e : RingEntry) : Bool :=
  let d := s.mgmt.dev
  let any := d == .ready || d == .run || d == .drain || d == .quarantine
  match entOp e with
  | 0x01 => d == .ready || (d == .quarantine && blockAssay e.refs && !s.job.present)
  | 0x02 | 0x03 | 0x0E => any
  | 0x04 | 0x05 => d == .run
  | 0x06 | 0x07 | 0x0C => d == .ready || d == .run
  | _ => d == .ready

/-- REJECTED, naming a field: where it lies, and its offset there (R503). -/
def State.reject (s : State) (c : CmdRef) (place off : Nat) : State :=
  s.reply c 0 stRejected (BitVec.ofNat 64 (place * 2 ^ 62 + off))

/-! ### Job start (R447) -/

def jobParams (r : HostRefs) : JobParams :=
  let b := r.block
  { firstStep := BitVec.ofNat 64 (blk b 0 8), replay := (blk b 8 1).testBit 0, trace := blk b 9 1,
    ledgerBase := BitVec.ofNat 64 (blk b 16 8), ledgerSize := blk b 24 8, replayBase := BitVec.ofNat 64 (blk b 32 8),
    replaySize := blk b 40 8
    replicas := (r.replicas.zipIdx.filter (fun e => e.1 != 0)).map (fun e => (e.2, e.1))
    coord := blk b 10 2, backup := blk b 12 2, restore := (blk b 8 1).testBit 1 }

/-- Check 1 of R447: reserved bytes and field ranges. A ledger ring is a multiple of 4 KiB (R345); an assay job is a replay (R385). -/
def jobBlockFault (r : HostRefs) : Option Nat :=
  let b := r.block
  firstFault ([(8, decide (16 ≤ blk b 8 1) || ((blk b 8 1).testBit 2 && !(blk b 8 1).testBit 0)), (9, decide (2 < blk b 9 1)),
      (10, decide (8191 < blk b 10 2)), (12, decide (8191 < blk b 12 2)), (14, blk b 14 1 != 0), (15, blk b 15 1 != 0),
      (24, blk b 24 8 % 4096 != 0), (48, r.replicas.any (fun x => decide (8191 < x)))] ++
    (List.range' 60 4 ++ List.range' 112 144).map (fun o => (o, blk b o 1 != 0)))

def State.gridSize (s : State) : Nat × Nat := (s.rfield Reg.stkGrid 0 4, s.rfield Reg.stkGrid 8 5)

/-- STK_GRID meets R45 and the part's limit. -/
def State.gridOk (s : State) : Bool :=
  let (w, h) := s.gridSize
  decide (1 ≤ w ∧ w ≤ (if s.fuses.activeCores = 0x80 then 8 else 7)) && [4, 8, 12, 16].contains h

/-- Whether STK_PLACE[v] offends (R237). -/
def State.placeBad (s : State) (v : Nat) : Bool :=
  let (w, h) := s.gridSize
  let en := s.rbit (Reg.stkPlace v) 31
  let p := s.rfield (Reg.stkPlace v) 0 8
  en != decide (v % 8 < w ∧ v / 8 < h) ||
  (en && (decide (fieldOf p ≠ v / 32) || (s.roleOf p).role != .spare ||
    s.placements.any (fun q => q.1 != v && q.2 == p)))

/-- SUM_ORDER and Z5_CORES of a NUM_MODE word are admissible (R33). -/
def numModeOk (w : Word) : Bool := !w.getLsbD 8 || decide (1 ≤ fieldNat w 16 7 ∧ fieldNat w 16 7 ≤ 96)

/-- Calendar words of the bulk channels, as the image gives them. -/
def putBulkCal (cal : List Host.Cell) (ws : List (Nat × Word)) : List Host.Cell :=
  ws.foldl (fun m e => setBytes m (384 * 65536 + 4 * e.1) (leBytes 4 e.2.toNat)) cal

def imageTickets (m : ImageInfo) : Tbl (Option TicketDef) :=
  m.tickets.foldl (fun t e => tset none t (1024 * e.v + e.num) (some ⟨e.bulk, e.write, e.addr, e.len⟩)) []
def imageNarrow (m : ImageInfo) : Tbl (Option NarrowDef) :=
  m.narrow.foldl (fun t e => tset none t (64 * e.v + e.num) (some ⟨e.base, e.grains, e.rows⟩)) []
def imageSegs (m : ImageInfo) : Tbl Nat := m.segs.foldl (fun t e => tset 0 t (256 * e.1 + e.2.1) e.2.2) []

/-- The state map as it lies in HBM (R502). -/
def State.smapBytes (s : State) : List Byte :=
  s.peekMem false (s.rpair Reg.stkSmapBaseLo) (32 * min 65536 (s.rget Reg.stkSmapCnt).toNat)

/-- The image's tables come into the device. -/
def State.putImage (s : State) (m : ImageInfo) : State :=
  { s with mem := { s.mem with cal := putBulkCal s.mem.cal m.bulkCal, ticketDefs := imageTickets m,
                               narrowDefs := imageNarrow m, segs := imageSegs m, seqTab := m.seqTab } }

/-- Checks 1 to 5 of R447: place and offset of the fault. -/
def State.jobFault (s : State) (r : HostRefs) : Option (Nat × Nat) :=
  match jobBlockFault r with
  | some o => some (1, o)
  | none =>
    if r.image.strokeN ≠ s.rfield Reg.stkStrokeCfg 0 5 then some (2, Reg.stkStrokeCfg)
    else if !s.gridOk then some (2, Reg.stkGrid)
    else match (List.range 128).find? s.placeBad with
      | some v => some (2, Reg.stkPlace v)
      | none =>
        if !numModeOk (s.rget Reg.numMode) then some (2, Reg.numMode)
        else
          let t := s.putImage r.image
          if t.programHash s.placements t.mem.ticketDefs s.smapBytes = (r.block.drop 64).take 32 then none else some (1, 64)

/-! #### What job start sets -/

/-- A stream at its entry: its registers stay, its flags are clear (R93, R181). -/
def StreamSt.start (x : StreamSt) (entry : Nat) : StreamSt :=
  { x with pc := wOf entry, flags := 0, lateFlags := [], loops := [], phase := .run }

/-- Side bits of every granule at job start (R251): zero, but in regions with INIT_VALID. -/
def startGrans (initValid : Nat → Bool) (x : Ctx) : Tbl Gran :=
  (x.rgns.filter (fun e => initValid e.idx)).foldl (fun t e =>
    (List.range' e.base (e.last + 1 - e.base)).foldl (fun t g =>
      if (regionOf x g).map (·.idx) = some e.idx then tset gran0 t g ⟨true, 0, e.readers⟩ else t) t) []

def startRgns (initValid : Nat → Bool) (x : Ctx) : Tbl RgnGen :=
  (x.rgns.filter (fun e => initValid e.idx)).map (fun e => (e.idx, ⟨1, 0, 0, 0⟩))

/-- The entries of a position, and its slot pattern for stroke 0. -/
def entriesOf (m : ImageInfo) (v : Nat) : Nat × Nat × Nat :=
  match m.entries.find? (fun e => e.1 == v) with | none => (0, 0, 0) | some e => e.2
def slotsOf (m : ImageInfo) (v : Nat) : BitVec 16 := match m.slots.find? (fun e => e.1 == v) with | none => 0 | some e => e.2

/-- A core that a job names, at job start (R69, R76, R131, R140, R181). -/
def State.startCore (s : State) (m : ImageInfo) (v p : Nat) : State :=
  let c := s.core p
  let (f, b, u) := entriesOf m v
  s.setCore p { c with
    f := c.f.start f, b := c.b.start b, u := c.u.start u, ctr := [], added := []
    eng := c.eng.map (fun e => (e.1, { e.2 with tag := none, tiles := [], tileFmt := [] }))
    slots := slotsOf m v, nextSlots := none, held := [], seq := 0, tickets := [], landing := [], narrow := [], commits := 0
    lockHit := none, lockCycle := none }

/-- The regions and granules of a core at job start, of every core (R251). -/
def State.startTags (s : State) (p : Nat) : State :=
  let iv := fun i => s.rbit (Reg.cmbRgnCtl p i) 30
  let x := s.ctxOf 0 p
  s.setCore p { s.core p with gran := startGrans iv x, rgn := startRgns iv x }

/-- Counters of a core's pages that job start clears (R157, R176, R179, R254, R474, R475). -/
def coreCounters (p : Nat) : List Nat :=
  (List.range 14).map (fun k => coreWin p + 0x100 + 4 * k) ++ [Reg.coreCvStep p, Reg.ccLockCnt p, Reg.veBusyCycLo p,
    Reg.veBusyCycHi p, Reg.veQfullCycLo p, Reg.veQfullCycHi p, Reg.veParCnt p, Reg.veDupCnt p, Reg.muBusyCycLo p,
    Reg.muBusyCycHi p, Reg.synWaitCycLo p, Reg.synWaitCycHi p] ++
  (List.range 4).flatMap (fun e => (List.range 7).map (fun k => coreWin p + 0x8000 + e * 0x1000 + 0x110 + 4 * k)) ++
  [0x0, 0x1000, 0x2000, 0x3000, 0x4000, 0x5000, 0x6000, 0x8000, 0x9000, 0xA000, 0xB000].map (fun o => coreWin p + o + oEvtCnt)

/-- EVT_CNT of the device-level pages (R465). -/
def deviceEvtCnts : List Nat :=
  ([0x0, 0x1, 0x2, 0x3, 0x10, 0x11, 0x12, 0x13, 0x14, 0x18, 0x30, 0x38, 0x39, 0x40, 0x41, 0x48, 0x50, 0x51] ++
    List.range' 0x20 13 ++ List.range' 0x200 64).map (fun b => 0x1000 * b + oEvtCnt)

/-- Counters of the device that job start clears (R60, R94, R254, R327, R353, R372, R395, R414, R426). -/
def deviceCounters : List Nat :=
  [Reg.stkOvrCnt, Reg.stkOvrMax, Reg.stkOvrCycLo, Reg.stkOvrCycHi, Reg.numFlagSum, Reg.igsResendLo, Reg.igsResendHi,
   Reg.igsResendFail, Reg.igsAbsent, Reg.igsHmRefused, Reg.igsEpochRefused, Reg.igsCeMarked, Reg.igsFailover, Reg.igsEpochWaitLo,
   Reg.igsEpochWaitHi, Reg.igsLdChunks, Reg.igsLdVer, Reg.stkSkipCnt, Reg.stkHoldRun, Reg.stkVoteWaitLo, Reg.stkVoteWaitHi,
   Reg.stkLedgerPi, Reg.stkLedgerCi, Reg.stkLref, Reg.stkNref, Reg.hbmStretchCycLo, Reg.hbmStretchCycHi, Reg.hbmLagCycLo,
   Reg.hbmLagCycHi, Reg.brnPauseCycLo, Reg.brnPauseCycHi, Reg.thmTjMax, Reg.pwrStepELo, Reg.pwrStepEHi]

/-- Every SEL is 0 (R329). -/
def State.clearSels (s : State) : State := (List.range 32).foldl (fun s i => s.rsetField (Reg.stkSregCtl i) 2 1 0) s

/-- Calendars start at the segment of stroke 0 (R63, R266). -/
def PcSt.start (x : PcSt) (first : Nat) : PcSt := { x with lag := 0, lagTold := false, stroke := 0, entry := first, used := 0, ran := 0 }
def State.segFirst (s : State) (ch : Nat) (stroke : Nat) : Nat :=
  tget 0 s.mem.segs (256 * ch + (s.mem.seqTab[stroke % max 1 s.mem.seqTab.length]?).getD 0)

/-- Job start, its checks passed (R447). -/
def State.startJob (s : State) (e : RingEntry) : State :=
  let r := e.refs
  let prm := jobParams r
  let assay := blockAssay r
  let b := r.block
  let places := s.placements
  let hash := (b.drop 64).take 32
  let s := s.putImage r.image
  let s := { s with job := {
    present := true, assay := assay, assayLimit := blk b 56 4, params := prm, image := r.image, programHash := hash,
    complete := false, aborted := false, cmd := some (entRef e), grid := s.gridSize, traceCopy := (blk b 8 1).testBit 3
    traceBase := BitVec.ofNat 64 (blk b 96 8), traceSize := BitVec.ofNat 64 (blk b 104 8), traceOut := s.job.traceOut } }
  let s := places.foldl (fun s q => s.setRole q.2 ⟨.active, q.1, false⟩) s
  let s := places.foldl (fun s q => s.startCore r.image q.1 q.2) ((List.range 144).foldl State.startTags s)
  let s := s.rclear (deviceEvtCnts ++ deviceCounters ++ (List.range 144).flatMap coreCounters)
  let s := s.clearSels.rset Reg.stkLsStat (wOf (s.rfield Reg.stkLsCfg 0 8))
  let s := { s with
    stroke := { s.stroke with n := s.rfield Reg.stkStrokeCfg 0 5, jobStroke := 0, step := prm.firstStep, stretched := false,
                              hung := false, drainNext := false, drained := false, ordinals := [], told := [], strokes := 0 }
    epoch := EpochSt.reset
    stp := { StepSt.reset with ledger := s.stp.ledger, committed := true }
    flights := []
    mem := { s.mem with moved := [], deliveries := [] }
    fab := { s.fab with colls := [], roots := [], coords := [], silent := [],
                        flows := s.fab.flows.map (fun (f : Nat × FlowSt) =>
                          (f.1, { f.2 with arms := [], waiting := [], early := [], refused := false })) }
    load := { s.load with permitsAdded := 0 }
    blamed := []
    pwr := { s.pwr with paces := [], stepPj := 0, capTold := false, hint := none, hintIn := none } }
  let s := (List.range 396).foldl (fun s ch => s.setPc ch ((s.pc ch).start (s.segFirst ch 0))) s
  let st := if s.mgmt.dev == .quarantine then 2 else s.asy.st
  let s := if assay then { s with asy := { s.asy with st := st, limit := blk b 56 4 } } else s
  let s := if s.mgmt.dev == .quarantine then s else { s with mgmt := { s.mgmt with dev := .run } }
  s.takeTaps.takePacks.newHallmark.sendHellos

def State.cmdJobStart (s : State) (e : RingEntry) (ok : Nat) : State :=
  match s.jobFault e.refs with
  | some (w, o) => s.reject (entRef e) w o
  | none => (s.startJob e).reply (entRef e) 0 ok 0

/-! ### ABORT (R82 to R84) -/

/-- Ends the job at once: it enters DRAIN at the boundary of application (R83). -/
def State.abortJob (s : State) : State :=
  let c := s.job.cmd
  ({ s with job := { s.job with aborted := true, cmd := none }, stroke := { s.stroke with drainNext := true } }).endNow c stAborted 0

/-- The operation that a tag names and its abort, where it is under way: job, load, transfer or burnish test. -/
def State.abortable (s : State) (tag : Word) : Option (State → State) :=
  let is_ := fun (c : Option CmdRef) => c.any (fun c => c.tag == tag)
  if s.job.present && is_ s.job.cmd then some State.abortJob
  else match s.load.loads.find? (fun r => r.active && !r.registered && is_ r.cmd) with
    | some r => some (fun (s : State) => (s.abortLoad r).endNow r.cmd stAborted 0)
    | none =>
      match s.ring.stages.find? (fun x => x.cmd.tag == tag) with
      | some x => some (fun (s : State) =>
          let left := s.ring.stages.filter (fun (y : StageOp) => y.cmd.tag != tag)
          ({ s with ring := { s.ring with stages := left } }).endNow (some x.cmd) stAborted 0)
      | none =>
        match s.brn.tests.find? (fun t => t.outcome.isNone && is_ t.cmd) with
        | some t => some (fun (s : State) =>
            let back : Role := if s.fenceOpen t.core then .fenced else .spare
            (s.setTest { t with outcome := some back, cmd := none }).endNow t.cmd stAborted 0)
        | none => none

/-- An operation of an abortable kind that has ended, not by an abort (R82, R84). -/
def State.endedBefore (s : State) (tag : Word) : Bool :=
  s.ring.ended.any (fun o => o.cmd.tag == tag && o.cmd.opcode != 0x0C && !o.aborted) ||
  s.load.loads.any (fun r => r.active && r.registered && r.cmd.any (fun c => c.tag == tag))

def State.cmdAbort (s : State) (e : RingEntry) : State :=
  let tag := wOf (blk e.raw 16 4)
  match s.abortable tag with
  | some f => f (s.reply (entRef e) 0 stAborted 0)
  | none =>
    if s.endedBefore tag then s.reply (entRef e) 0 stIgnored 0
    else s.reject (entRef e) 0 16

/-! ### The other commands (R444) -/

/-- SET_CAP (R410): the cap in force. A cap outside its range is refused. -/
def State.cmdSetCap (s : State) (e : RingEntry) (ok : Nat) : State :=
  let w := blk e.raw 16 2
  if w < 1100 ∨ 2800 < w then s.reject (entRef e) 0 16
  else (s.rsetField Reg.pwrCap 0 12 w).reply (entRef e) 0 ok 0

/-- The PAGE_ID word of a page (R464). -/
def pageId (pg : Page) : Nat := pg.blk.code + 2 ^ 8 * pg.inst + 2 ^ 20 * pg.page

/-- The registers SET_SETTING may name, with page identifier and offset. -/
def settable : List (Nat × Nat × Nat) :=
  settingRegs.tail.filterMap (fun r => (pageAt r).map (fun pg => (r, pageId pg, r % 0x1000)))

def State.cmdSetSetting (s : State) (e : RingEntry) (ok : Nat) : State :=
  let page := blk e.raw 24 4
  let off := blk e.raw 28 4
  match settable.find? (fun x => x.2.1 == page && x.2.2 == off) with
  | none => s.reject (entRef e) 0 (if settable.any (fun x => x.2.1 == page) then 28 else 24)
  | some (r, _, _) =>
    let x : Setting := ⟨s.stroke.devStroke, BitVec.ofNat 64 (blk e.raw 16 8), r, wOf page, wOf off, wOf (blk e.raw 32 4)⟩
    ({ s with epoch := { s.epoch with settings := s.epoch.settings ++ [x] } }).reply (entRef e) 0 ok 0

/-- EPOCH (R448): the number must follow the current one, and the settings must allow their summation order. -/
def State.cmdEpoch (s : State) (e : RingEntry) (ok : Nat) : State :=
  let b := e.refs.block
  let n := wOf (blk b 0 4)
  if n ≠ s.epoch.cur + 1 ∨ s.epoch.req.isSome then s.reject (entRef e) 1 0
  else if 2 ≤ blk b 4 1 then s.reject (entRef e) 1 4
  else if !numModeOk (wOf (blk e.refs.settings 0 4)) then s.reject (entRef e) 2 Reg.numMode
  else
    ({ s with epoch := { s.epoch with req := some ⟨n, (blk b 4 1).testBit 0, e.refs⟩ } }).reply (entRef e) 0 ok 0

def State.cmdLoad (s : State) (e : RingEntry) (ok : Nat) : State :=
  match s.startLoad (some (entRef e)) e.refs with
  | (some o, s) => s.reject (entRef e) 1 o
  | (none, s) => s.reply (entRef e) 0 ok 0

/-- STAGE: a transfer begins. DIRECTION 0 is host to device, 1 device to host (PRESUMED, log entry 39). -/
def State.cmdStage (s : State) (e : RingEntry) (ok : Nat) : State :=
  let dir := blk e.raw 16 1
  let w := wOf (blk e.raw 20 4)
  let a := selAddr w (blk e.raw 24 8)
  let n := blk e.raw 40 8
  let t := selTarget w
  if 1 < dir then s.reject (entRef e) 0 16
  else if s.extent t = 0 ∨ ((t = 2 ∨ t = 3) ∧ !s.windowCore (selCore w)) then s.reject (entRef e) 0 20
  else if s.extent t < a + n ∨ (dir = 1 ∧ s.sealedSpan t a n) then s.reject (entRef e) 0 24
  else
    let x : StageOp := ⟨entRef e, dir == 0, w, a, BitVec.ofNat 64 (blk e.raw 32 8), n⟩
    ({ s with ring := { s.ring with stages := s.ring.stages ++ [x] } }).reply (entRef e) 0 ok 0

/-- RETRAIN (R286): the training of a stack out of service that reads below 95 °C begins. -/
def State.cmdRetrain (s : State) (e : RingEntry) (ok : Nat) : State :=
  let k := blk e.raw 16 1
  let t := s.stk k
  if 11 < k ∨ !t.out ∨ 95 ≤ t.temp.toNat then s.reject (entRef e) 0 16
  else (s.setStk k { t with retraining := true }).reply (entRef e) 0 ok 0

/-- BURNISH_RUN: one pack on a core that no job needs. -/
def State.cmdBurnish (s : State) (e : RingEntry) (ok : Nat) : State :=
  let p := blk e.raw 16 1
  let j := blk e.raw 17 1
  let r := (s.roleOf p).role
  if 143 < p ∨ !(r = .spare ∨ r = .fenced) then s.reject (entRef e) 0 16
  else if s.brn.packs.packs.length ≤ j then s.reject (entRef e) 0 17
  else (s.reply (entRef e) 0 ok 0).startTest p .full (some j) (some (entRef e)) false

/-- STANDBY (R458): entry begins once no staging transfer runs. -/
def State.enterStandby (s : State) : State :=
  if s.ring.standbyWait && s.ring.stages.isEmpty && s.mgmt.dev == .ready then
    { s with ring := { s.ring with standbyWait := false, standbyEntry := true } }
  else s
def State.cmdStandby (s : State) (e : RingEntry) (ok : Nat) : State :=
  ({ s with ring := { s.ring with standbyWait := true } }.reply (entRef e) 0 ok 0).enterStandby

def State.cmdFwUpdate (s : State) (e : RingEntry) (ok : Nat) : State :=
  (s.reply (entRef e) 0 ok 0).fwUpdate (e.refs.data.take (blk e.raw 24 4)) (some (entRef e))

/-- SVN_ADVANCE (R451). -/
def State.cmdSvn (s : State) (e : RingEntry) (ok : Nat) : State :=
  let n := min 64 (max s.fuses.minSvn s.mgmt.fwSvn)
  ({ s with fuses := { s.fuses with minSvn := n } }.reply (entRef e) 0 ok 0).raiseM 0x080C pgMss 0 0 n

/-- A wall-clock note (R438): the value with its elapsed time, and 0x080B with bits 63:32 as its
object and bits 31:0 as its waiter (R483). The registers hold the note as well (log entry 72). -/
def State.noteWall (s : State) (v : DWord) : State :=
  let s := ({ s with mgmt := { s.mgmt with wall := s.mgmt.wall ++ [(v, s.mgmt.elapsed)] } }).setPair Reg.mssWallLo v.toNat
  s.raise (ev 0x080B pgMss (hiW v).toNat (loW v).toNat 0)
def State.cmdWallNote (s : State) (e : RingEntry) (ok : Nat) : State :=
  (s.reply (entRef e) 0 ok 0).noteWall (BitVec.ofNat 64 (blk e.raw 16 8))

/-! ### Applying an entry (R65, R66, R446) -/

/-- AT_STROKE counts in RUN and DRAIN only (R66). -/
def State.strokesCount (s : State) : Bool := s.mgmt.dev == .run || s.mgmt.dev == .drain

/-- Carries out a well-formed entry of opcode `op` that the state accepts (R444); `ok` is the status of a completion that is late or not. -/
def State.carryOut (s : State) (e : RingEntry) (op ok : Nat) : State :=
  match op with
  | 0x01 => s.cmdJobStart e ok
  | 0x02 => s.cmdAbort e
  | 0x03 => s.cmdSetCap e ok
  | 0x04 => s.cmdSetSetting e ok
  | 0x05 => s.cmdEpoch e ok
  | 0x06 => s.cmdLoad e ok
  | 0x07 => s.cmdStage e ok
  | 0x08 => s.unseal.reply (entRef e) 0 ok 0
  | 0x09 => s.cmdRetrain e ok
  | 0x0A => s.cmdBurnish e ok
  | 0x0B => s.cmdStandby e ok
  | 0x0C => s.cmdFwUpdate e ok
  | 0x0D => s.cmdSvn e ok
  | _ => s.cmdWallNote e ok

/-- Applies an entry at the boundary now; `idx` is its ring index, `late` whether it arrived after its boundary. -/
def State.applyEntry (s : State) (e : RingEntry) (idx : Nat) (late : Bool) : State :=
  let late := late && s.strokesCount && entAt e != 0
  let s := if late then s.raiseM 0x0304 (pgStk 1) idx (entTag e).toNat (entAt e % 2 ^ 32) else s
  match entFault e with
  | some o => (s.reject (entRef e) 0 o).raiseM 0x0805 pgMss 0 0 idx
  | none => if !s.accepts e then s.reject (entRef e) 0 0 else s.carryOut e (entOp e) (if late then stLate else stOk)

/-- A fetched entry is due at the boundary that has just opened (R65). -/
def State.due (s : State) (e : RingEntry) : Bool := !s.strokesCount || decide (entAt e ≤ s.stroke.jobStroke.toNat)

/-- Applies the entries that are due, in ring order (order 5 of R61). -/
def State.ringSize (s : State) : Nat := 2 ^ (s.rfield Reg.pciRingCfg 0 4 + 4)
/-- Ring index of a fetched entry with `n` fetched entries behind it. -/
def State.ringIdx (s : State) (n : Nat) : Nat := ((s.rget Reg.pciRingCi).toNat + n * s.ringSize - (n + 1) + s.ringSize) % s.ringSize
def applyDue : List (RingEntry × Bool) → State → List (RingEntry × Bool) × State
  | [], s => ([], s)
  | (e, late) :: es, s => if s.due e then applyDue es (s.applyEntry e (s.ringIdx es.length) late) else ((e, late) :: es, s)
def State.applyRing (s : State) : State :=
  let (rest, s) := applyDue s.ring.entries { s with ring := { s.ring with entries := [] } }
  { s with ring := { s.ring with entries := rest ++ s.ring.entries } }

/-- A command posted by the host is applied now, on its own: in a fetching state, and with no boundary held. `op` is the opcode of the
row; an entry of another opcode is not that command. -/
def State.applyNow (s : State) (op : Nat) (e : RingEntry) : State :=
  let d := s.mgmt.dev
  if (d == .ready || d == .run || d == .drain || d == .quarantine) && s.stroke.hold == .no && entOp e == op then
    s.applyEntry e (s.rget Reg.pciRingCi).toNat (decide (entAt e ≠ 0 ∧ entAt e < s.stroke.jobStroke.toNat))
  else s

/-- The device fetches: a state of R444, the ring enabled, and room for a completion or for one more held (R446). -/
def State.fetches (s : State) : Bool :=
  let d := s.mgmt.dev
  (d == .ready || d == .run || d == .drain || d == .quarantine) && s.rbit Reg.pciRingCfg 4 &&
  (s.cplRoom || decide (s.ring.held.length < 64))

/-- Order 10 of a boundary samples the producer index and asks for the entries up to it, at most 16 (R64). -/
def State.askEntries (s : State) (prodIdx : Nat) : State :=
  let new := (prodIdx % s.ringSize + s.ringSize - (s.rget Reg.pciRingCi).toNat % s.ringSize) % s.ringSize
  { s with ring := { s.ring with prodIdx := prodIdx, asked := if s.fetches then s.ring.asked + min 16 (new - s.ring.asked) else s.ring.asked } }

/-- An entry that was asked for may arrive. -/
def State.mayFetch (s : State) : Bool := s.fetches && decide (0 < s.ring.asked)

end Sys2Proof.Machine
end

