-- ==== Sys2Proof/Machine/StepOps.lean ====
section
/-!
DEFINITION. Step boundaries (R329 to R347, R396, R397, R501, R502): the state digest, the bands, local verdicts and votes, the job
verdict, commit or skip, the ledger and its replay.
-/

namespace Sys2Proof.Machine

open Sys2Proof

/-! ### The state digest (R30, R502) -/

/-- The bytes that entry `i` of the state map covers, read from the committed copy of its region. -/
def State.smapEntry (s : State) (i : Nat) : List Byte :=
  let e := s.peekMem false (s.rpair Reg.stkSmapBaseLo + 32 * i) 32
  match s.stateRgn (blk e 5 1), fmtOf (blk e 4 1) with
  | some r, some f =>
    let a := 256 * r.base + blk e 24 8 + (if r.sel then 256 * r.ofs else 0)
    s.peekMem r.bulk a (packedLen f (blk e 16 8))
  | _, _ => []

/-- The counts and events of reading what entry `i` of the state map covers (R276). -/
def State.smapNote (s : State) (i : Nat) : State :=
  let at_ := s.rpair Reg.stkSmapBaseLo + 32 * i
  let e := s.peekMem false at_ 32
  let s := s.peekNote false at_ 32
  match s.stateRgn (blk e 5 1), fmtOf (blk e 4 1) with
  | some r, some f => s.peekNote r.bulk (256 * r.base + blk e 24 8 + (if r.sel then 256 * r.ofs else 0)) (packedLen f (blk e 16 8))
  | _, _ => s
def State.digestNote (s : State) : State :=
  (List.range (min 65536 (s.rget Reg.stkSmapCnt).toNat)).foldl (fun s i => s.smapNote i) s

def State.stateDigest (s : State) : List Byte :=
  sha256 ((List.range (min 65536 (s.rget Reg.stkSmapCnt).toNat)).flatMap s.smapEntry)

/-! ### The bands (R341, R342) -/

def finiteWord (w : Word) : Bool := !nonFinWord w

/-- A value passes its band: above the product of reference and ratio, which is finite. -/
def bandSpikes (v ref ratio : Word) : Bool :=
  let p := decodeFloat .fp32 (mulFp32 ref ratio).1
  p.cls == .fin && fLess p (decodeFloat .fp32 v)

/-- What a band looks at: its number, value, reference with whether it exists, and ratio. -/
structure Band where
  num : Nat
  val : Option Word
  refSet : Bool
  refReg : Nat
  ratioReg : Nat
deriving DecidableEq, Repr

def State.lossBand (s : State) : Band := ⟨0, s.stp.loss.map (·.2), s.stp.lrefSet, Reg.stkLref, Reg.stkLossRatio⟩
def State.normBand (s : State) : Band := ⟨1, s.stp.sumsq, s.stp.nrefSet, Reg.stkNref, Reg.stkNormRatio⟩

/-- The band is tested and spikes. -/
def State.bandHit (s : State) (x : Band) : Bool :=
  s.rbit Reg.stkBandCfg (3 * x.num) && x.refSet && decide (s.rfield Reg.stkBandCfg 11 13 ≤ s.stp.commits) &&
  x.val.any (fun v => finiteWord v && bandSpikes v (s.rget x.refReg) (s.rget x.ratioReg))

def State.bandRun (s : State) (k : Nat) : Nat := if k = 0 then s.stp.lossRun else s.stp.normRun
def State.setBandRun (s : State) (k n : Nat) : State :=
  if k = 0 then { s with stp := { s.stp with lossRun := n } } else { s with stp := { s.stp with normRun := n } }
def State.drainSoon (s : State) : State := { s with stroke := { s.stroke with drainNext := true } }

/-- Tests a band and acts by ACT: its HOLD bit, and the state with what the spike sets in motion. -/
def State.tryBand (s : State) (x : Band) : Bool × State :=
  if s.bandHit x then
    let act := s.rfield Reg.stkBandCfg (1 + 3 * x.num) 2
    let s := s.raiseM 0x0313 (pgStk 3) 0 0 (x.num + 2 * act)
    if act = 0 then (false, s.setBandRun x.num 0)
    else
      let body := [BitVec.ofNat 8 x.num, 0, 0, 0] ++ leBytes 4 (x.val.getD 0).toNat ++ leBytes 4 (s.rget x.refReg).toNat ++
        leBytes 4 act
      let n := s.bandRun x.num + 1
      let s := (s.addEntry ⟨4, 0, body⟩).setBandRun x.num n
      let s := if act = 2 then s.drainSoon else s
      let max := s.rfield Reg.stkBandCfg 24 8
      (true, if 0 < max ∧ n = max then (s.raiseM 0x0314 (pgStk 3) 0 0 x.num).drainSoon else s)
  else (false, s.setBandRun x.num 0)

/-- A reference after a committed step. -/
def State.bandRef (s : State) (x : Band) : State :=
  match x.val with
  | none => s
  | some v =>
    if !finiteWord v then s
    else
      let ref := s.rget x.refReg
      let w := wOf (2 ^ 23 * (127 - s.rfield Reg.stkBandCfg 6 5))
      let new := if x.refSet then (fmaFp32 (addFp32 v (ref ^^^ 0x80000000)).1 w ref).1 else v
      let s := s.rset x.refReg new
      if x.num = 0 then { s with stp := { s.stp with lrefSet := true } } else { s with stp := { s.stp with nrefSet := true } }

/-! ### The local verdict (R333) -/

/-- The non-finite count of R341, saturating. -/
def State.nfTotal (s : State) : Word := wOf (min (2 ^ 32 - 1) (s.stp.nfCount.toNat + s.stp.nfTrailers))

/-- A logical channel has no backing: no step commits (R283). -/
def State.unbackedChan (s : State) : Bool := (List.range s.mem.nLc).any (fun l => !(s.chan l).backed)

/-- The local verdict with the bits of the two bands. -/
def State.verdictWord (s : State) (holdLoss holdNorm : Bool) : Nat :=
  let nf := decide (0 < s.stp.nfTrailers) || s.stp.nfCount != 0 || s.stp.normNf || s.stp.loss.any (fun l => nonFinWord l.2)
  b1 nf 0 + b1 s.stp.hmEvent 1 + b1 (s.stp.stepEvent || s.unbackedChan) 2 + b1 holdLoss 3 + b1 holdNorm 4 + b1 s.stp.broken.isSome 5

/-- Tests the bands and forms the local verdict. -/
def State.formLocal (s : State) : State :=
  let (hl, s) := s.tryBand s.lossBand
  let (hn, s) := s.tryBand s.normBand
  let s := s.rset Reg.stkHoldRun (if hl || hn then wOf (min 255 ((s.rget Reg.stkHoldRun).toNat + 1)) else 0)
  { s with stp := { s.stp with localV := s.verdictWord hl hn } }

/-! ### What the boundary waits for (R501) -/

/-- Something of a run of the step is still to come: its outcome, or an item on its way to a core. -/
def State.runOpen (s : State) (r : CollRun) : Bool :=
  r.step == s.stroke.step && (!r.done || r.cores.any (fun c => !c.placed))
def State.collsOpen (s : State) : Bool := s.fab.colls.any s.runOpen

/-! ### Votes and the job verdict (R334, R396, R397, R381) -/

/-- Body of this device's VOTE. -/
def State.voteBytes (s : State) : List Byte :=
  pad64 (agreeBytes 3 0 0 0 s.stroke.step 0 (leBytes 2 s.stp.localV ++ [BitVec.ofNat 8 (b1 s.stp.broken.isSome 0), 0] ++
    leBytes 4 s.replica ++ leBytes 8 s.stp.lastStep.toNat ++ (s.stp.lastDigest ++ List.replicate 8 0).take 8))

def digestFrag (d : List Byte) : DWord := BitVec.ofNat 64 (leNat (d.take 8))

/-- A vote counts for the step in progress. -/
def State.addVote (s : State) (v : VoteRec) : State :=
  { s with stp := { s.stp with votes := s.stp.votes.filter (fun x => x.member != v.member) ++ [v] } }
def State.ownVote (s : State) : VoteRec :=
  ⟨s.member, s.replica, s.stroke.step, s.stp.localV, s.stp.broken.isSome, s.stp.lastStep, digestFrag s.stp.lastDigest⟩

/-- The member sends its vote to the coordinator and its backup. -/
def State.sendVote (s : State) : State :=
  if s.mgmt.dev != .run || s.stp.broken.isSome || s.job.params.replay then s
  else
    let s := { s with stp := { s.stp with votedStep := some s.stroke.step } }
    ([s.job.params.coord, s.job.params.backup].eraseDups).foldl (fun s m =>
      if m = s.member then s.addVote s.ownVote else s.sendAgree m 0 0 s.stroke.step s.voteBytes) s

/-- An arriving VOTE (R300): kept for the step in progress, else dropped and counted. -/
def State.takeVote (s : State) (m : Msg) : State :=
  if m.step64 = s.stroke.step ∧ s.job.present then
    s.addVote ⟨m.src, dsc m.bytes 36 4, m.step64, dsc m.bytes 32 2, dsc m.bytes 34 1 % 2 == 1, BitVec.ofNat 64 (dsc m.bytes 40 8),
      BitVec.ofNat 64 (dsc m.bytes 48 8)⟩
  else s.bump Reg.igsEpochRefused 1

/-- Members whose vote is asked for: those outside the epoch's exclusion set and that of the last verdict, and not of a replica that has
withdrawn in the step (R333, R334). -/
def State.voters (s : State) : List Nat :=
  s.members.filter (fun m => !s.excluded m && !s.stp.lastExcl.contains (s.replicaOf m) && !s.stp.withdrawn.contains (s.replicaOf m))
def State.allVoted (s : State) : Bool := s.voters.all (fun m => s.stp.votes.any (fun v => v.member == m))

/-- Rank of a member among those of its replica in REPLICA_TABLE (R396). -/
def State.position (s : State) (m : Nat) : Nat := ((List.range m).filter (fun x => s.replicaOf x == s.replicaOf m)).length

/-- How many of a group hold a fragment, and the fragment that most hold. -/
def holders (d : DWord) (g : List VoteRec) : Nat := (g.filter (fun v => v.digest == d)).length
def commonest (g : List VoteRec) : DWord :=
  g.foldl (fun best v => if holders best g < holders v.digest g then v.digest else best) ((g.map (·.digest)).headD 0)

/-- A DIGEST_SPLIT entry (R397). -/
def splitEntry (pos agree differ : Nat) (frag : DWord) : List Byte :=
  [11, 0, 0, 0] ++ leBytes 4 pos ++ leBytes 4 agree ++ leBytes 4 differ ++ leBytes 8 frag.toNat ++ List.replicate 8 0

/-- What the settling of twin groups adds to a verdict: replicas excluded, split entries, no majority somewhere. -/
structure Settled where
  out : List Nat
  splits : List (List Byte)
  stuck : Bool
deriving DecidableEq, Repr

/-- Settles one twin group. -/
def State.settleGroup (s : State) (pos : Nat) (g : List VoteRec) (x : Settled) : State × Settled :=
  let d := commonest g
  let n := holders d g
  if n = g.length then (s, x)
  else if g.length < 2 * n then
    let bad := g.filter (fun v => v.digest != d)
    let s := bad.foldl (fun s v => s.raiseM 0x0630 (pgAsy 0) (v.member * 64) 0 pos) s
    (s, { x with out := x.out ++ bad.map (·.replica), splits := x.splits ++ [splitEntry pos n (g.length - n) d] })
  else
    let (f, s) := s.draw
    (s.raiseM 0x0631 (pgAsy 0) 0 0 pos, { x with splits := x.splits ++ [splitEntry pos n (g.length - n) f], stuck := true })

/-- Settles the twin groups of the replicas that vote. -/
def State.settleTwins (s : State) (excl : List Nat) : State × Settled :=
  let vs := s.stp.votes.filter (fun v => !excl.contains v.replica && !v.broken)
  let keys := (vs.map (fun v => (s.position v.member, v.lastStep))).eraseDups
  keys.foldl (fun acc k =>
    acc.1.settleGroup k.1 (vs.filter (fun v => s.position v.member == k.1 && v.lastStep == k.2)) acc.2) (s, ⟨[], [], false⟩)

/-- The coordinator forms the job verdict from the votes it holds. -/
def State.formVerdict (s : State) : JobVerdict × State :=
  let missing := ((s.members.filter (fun m => !s.excluded m)).filter (fun m => !s.stp.votes.any (fun v => v.member == m && !v.broken))).map s.replicaOf
  let excl := (s.stp.epochExcl ++ missing).eraseDups
  let (s, x) := s.settleTwins excl
  let excl := (excl ++ x.out).eraseDups
  let low := s.stp.votes.foldl (fun n v => n ||| v.verdict % 32) 0
  let all := (s.members.map s.replicaOf).all excl.contains
  let stop := all || x.stuck
  (⟨s.stroke.step, low != 0 || stop, low ||| (if stop then 4 else 0), if all then [] else excl, x.splits, stop⟩, s)

/-- Body of a VERDICT (R300). -/
def verdictBytes (v : JobVerdict) : List Byte :=
  pad64 (agreeBytes 4 0 0 0 v.step 0 ([BitVec.ofNat 8 (b1 v.skip 0), BitVec.ofNat 8 v.reasons, 0, 0] ++
    leBytes 4 v.excluded.length ++ leBytes 4 v.splits.length ++ List.replicate 20 0 ++ exclBytes v.excluded ++ v.splits.flatten))

def exclOf (bm : List Byte) : List Nat := (List.range 8192).filter (fun r => ((bm.getD (r / 8) 0).getLsbD (r % 8)))

/-- A received verdict. It does not say in so many words that every member drains: a split without a strict majority does (DEDUCED,
log entry 40). -/
def verdictOf (m : Msg) : JobVerdict :=
  let splits := (List.range (dsc m.bytes 40 4)).map (fun k => (m.bytes.drop (1088 + 32 * k)).take 32)
  ⟨m.step64, dsc m.bytes 32 1 % 2 == 1, dsc m.bytes 33 1 % 32, exclOf ((m.bytes.drop 64).take 1024), splits,
    splits.any (fun e => decide (blk e 8 4 ≤ blk e 12 4))⟩

def State.takeVerdict (s : State) (m : Msg) : State :=
  if m.step64 = s.stroke.step ∧ s.job.present then { s with stp := { s.stp with verdict := some (verdictOf m) } }
  else s.bump Reg.igsEpochRefused 1

/-- The coordinator sends the verdict to every member and acts on it. -/
def State.issueVerdict (s : State) : State :=
  let (v, s) := s.formVerdict
  let s := (s.members.filter (· != s.member)).foldl (fun s m => s.sendAgree m 0 0 v.step (verdictBytes v)) s
  { s with stp := { s.stp with verdict := some v, lastVerdict := some v, owed := [] } }

/-! ### Ledger records (R345, R346) -/

def LedgerEntry.bytes (e : LedgerEntry) : List Byte :=
  [BitVec.ofNat 8 e.typ, BitVec.ofNat 8 e.b1, 0, 0] ++ (e.body ++ List.replicate 28 0).take 28
def entryOf (b : List Byte) : LedgerEntry := ⟨blk b 0 1, blk b 1 1, (b.drop 4).take 28⟩

/-- Header bytes 0 to 95. -/
def LedgerRec.head (r : LedgerRec) : List Byte :=
  leBytes 8 r.step.toNat ++ leBytes 8 r.stroke.toNat ++ leBytes 4 r.strokes ++ leBytes 4 r.entries.length ++ leBytes 2 r.localV ++
  leBytes 2 r.jobV ++ [BitVec.ofNat 8 (b1 r.skip 0), BitVec.ofNat 8 r.trace, 0, 0] ++ leBytes 4 r.ls.toNat ++
  leBytes 4 r.lsNext.toNat ++ leBytes 4 r.loss.toNat ++ leBytes 4 r.sumsq.toNat ++ leBytes 4 r.nf.toNat ++
  leBytes 4 r.epoch.toNat ++ leBytes 8 r.energy.toNat ++ (r.digest ++ List.replicate 32 0).take 32

def LedgerRec.bytes (r : LedgerRec) : List Byte :=
  let tail := List.replicate 28 (0 : Byte) ++ r.entries.flatMap LedgerEntry.bytes
  r.head ++ leBytes 4 (crc32c (r.head ++ [0, 0, 0, 0] ++ tail)).toNat ++ tail

/-- A record of the replay ring, where its CRC holds. -/
def recordOf (b : List Byte) : Option LedgerRec :=
  let r : LedgerRec :=
    { step := BitVec.ofNat 64 (blk b 0 8), stroke := BitVec.ofNat 64 (blk b 8 8), strokes := blk b 16 4
      entries := (List.range (blk b 20 4)).map (fun k => entryOf ((b.drop (128 + 32 * k)).take 32))
      localV := blk b 24 2, jobV := blk b 26 2, skip := blk b 28 1 != 0, trace := blk b 29 1, ls := wOf (blk b 32 4)
      lsNext := wOf (blk b 36 4), loss := wOf (blk b 40 4), sumsq := wOf (blk b 44 4), nf := wOf (blk b 48 4)
      epoch := wOf (blk b 52 4), energy := BitVec.ofNat 64 (blk b 56 8), digest := (b.drop 64).take 32 }
  let crc := crc32c (b.take 96 ++ [0, 0, 0, 0] ++ (b.take (128 + 32 * blk b 20 4)).drop 100)
  if wOf (blk b 96 4) = crc then some r else none

/-- Where a record of `n` bytes goes in a ring of `size` with producer offset `pi`: its offset, and the bytes that PI advances. -/
def ringPlace (size pi n : Nat) : Nat × Nat := if size < pi + n then (0, size - pi + n) else (pi, n)

/-- The ring has room for a record (R345). -/
def State.ledgerRoom (s : State) (r : LedgerRec) : Bool :=
  let size := s.job.params.ledgerSize
  let pi := (s.rget Reg.stkLedgerPi).toNat
  let ci := (s.rget Reg.stkLedgerCi).toNat % max 1 size
  let free := if ci = pi then size else (ci + size - pi) % max 1 size
  decide (r.bytes.length ≤ size ∧ (ringPlace size pi r.bytes.length).2 < free)

/-- Writes the record that waits, once there is room. -/
def State.writePending (s : State) : State :=
  match s.stp.pendingRec with
  | none => s
  | some r =>
    if s.ledgerRoom r then
      let size := s.job.params.ledgerSize
      let (at_, _) := ringPlace size (s.rget Reg.stkLedgerPi).toNat r.bytes.length
      let s := { s with stp := { s.stp with pendingRec := none, ledger := s.stp.ledger ++ [r] } }
      (s.rset Reg.stkLedgerPi (wOf ((at_ + r.bytes.length) % size))).send
        (.hostWrite (s.job.params.ledgerBase + BitVec.ofNat 64 at_) r.bytes)
    else s

/-! ### Replay (R336, R347) -/

/-- The job verdict that a record of the replay ring holds. -/
def verdictOfRec (r : LedgerRec) : JobVerdict :=
  { step := r.step, skip := r.skip, reasons := r.jobV % 32
    excluded := (r.entries.filter (fun e => e.typ == 5)).map (fun e => blk e.body 0 4)
    splits := (r.entries.filter (fun e => e.typ == 11)).map LedgerEntry.bytes
    drain := false }

/-- The local verdict against the ledgered outcome (R336). -/
def State.compareReplay (s : State) (v : JobVerdict) : State :=
  let low := s.stp.localV % 32
  if (low == 0) == v.skip then
    (s.raiseM 0x0318 (pgStk 3) 0 0 low).addEntry ⟨10, 0, [BitVec.ofNat 8 (b1 v.skip 0), 0, 0, 0] ++ leBytes 2 low⟩
  else s

/-- A setting takes a value, each field as a write of it would; a change has its entry in the ledger of the step (R28, R346). -/
def State.changeSetting (s : State) (off : Nat) (val : Word) : State :=
  match (pageAt off).bind (fun pg => (rowAt pg (off % 0x1000)).map (fun r => (pg, r.1))) with
  | none => s
  | some (pg, r) =>
    let old := s.rget off
    let new := r.write false old val
    if new = old then s
    else (s.rset off new).addEntry
      ⟨7, 0, leBytes 4 (pageId pg) ++ leBytes 4 (off % 0x1000) ++ leBytes 4 old.toNat ++ leBytes 4 new.toNat⟩

/-- The settings that the ledger of a replayed step records take effect with it (R28, R29). -/
def State.replaySettings (s : State) (r : LedgerRec) : State :=
  let changes := r.entries.filterMap (fun e =>
    if e.typ = 7 then
      (settingRegs.find? (fun o => (pageAt o).any (fun pg => pageId pg == blk e.body 0 4) && o % 0x1000 == blk e.body 4 4)).map
        (fun o => (o, wOf (blk e.body 12 4)))
    else none)
  if changes.isEmpty then s else (changes.foldl (fun s x => s.changeSetting x.1 x.2) s).newHallmark

/-- A record of the replay ring has come: the scale and the settings of its step, and the sets of roots that waited for it. -/
def State.takeReplay (s : State) (r : LedgerRec) : State :=
  let fresh := (s.replayRec r.step).isNone
  let s := { s with stp := { s.stp with replayRecs := s.stp.replayRecs.filter (fun (x : LedgerRec) => x.step != r.step) ++ [r] } }
  let s := if r.step = s.stroke.step then
      let s := s.rsetField Reg.stkLsStat 0 8 (fieldNat r.ls 23 8)
      if fresh then s.replaySettings r else s
    else s
  let roots := s.fab.roots.map (fun (x : RootRun) =>
    if x.step = r.step ∧ x.decided.isNone then { x with decided := s.replayDecided x.coll x.step x.stage x.group x.lane } else x)
  ({ s with fab := { s.fab with roots := roots } }).recheck

/-! ### Closing a step (R332, R335, R337, R344, R350) -/

/-- `loss_scale_next` of R337. -/
def lossScaleNext (e cnt : Nat) (skip : Bool) (reasons : Nat) (cfg : Word) : Nat × Nat :=
  if !cfg.getLsbD 28 then (fieldNat cfg 0 8, 0)
  else if skip then
    if reasons % 2 = 1 then (max (e - 1) (fieldNat cfg 8 8), 0) else (e, cnt)
  else if 2 ^ fieldNat cfg 24 4 ≤ cnt + 1 then (min (e + 1) (fieldNat cfg 16 8), 0)
  else (e, cnt + 1)

/-- Flips SEL of every region that the step wrote (R332). -/
def State.flipSels (s : State) : State :=
  s.stp.wrote.foldl (fun s i => s.rsetField (Reg.stkSregCtl i) 2 1 (1 - s.rfield (Reg.stkSregCtl i) 2 1)) s

/-- The first collective of the step that ran without a replica. -/
def State.firstWithout (s : State) (r : Nat) : Word :=
  let bad := s.fab.colls.find? (fun x => x.step == s.stroke.step && match s.collCfg x.coll, x.incl with
    | some c, some m => (List.range c.n).any (fun j => s.replicaOf (s.shardMember c j) == r && !m.testBit j)
    | _, _ => false)
  match bad with | none => 0 | some x => x.coll

/-- Reason of a REPLICA_DROP entry: 2 epoch exclusion, 1 broken, 0 no vote (DEDUCED, log entry 41). -/
def State.dropReason (s : State) (v : JobVerdict) (r : Nat) : Nat :=
  if s.stp.epochExcl.contains r then 2
  else if s.stp.withdrawn.contains r || s.stp.votes.any (fun x => x.replica == r && x.broken) || !v.splits.isEmpty then 1
  else 0

/-- REPLICA_DROP and DIGEST_SPLIT entries of a verdict, and 0x0312 of replicas newly excluded (R350, R397). -/
def State.noteExcluded (s : State) (v : JobVerdict) : State :=
  let s := v.excluded.foldl (fun s r => s.addEntry
    ⟨5, 0, leBytes 4 r ++ [BitVec.ofNat 8 (s.dropReason v r), 0, 0, 0] ++ leBytes 4 (s.firstWithout r).toNat⟩) s
  let s := v.splits.foldl (fun s e => s.addEntry (entryOf e)) s
  let new := v.excluded.filter (fun r => !s.stp.lastExcl.contains r && !s.stp.epochExcl.contains r)
  let s := new.foldl (fun s r => s.raiseM 0x0312 (pgStk 3) 0 0 r) s
  { s with stp := { s.stp with lastExcl := v.excluded } }

/-- Own contributions kept for the late lane: ledgered as sprued, or, where the step does not commit here, released, refused ones among
them; those kept from the step before that never went into this step's late lane have missed it (R314, R344). -/
def State.settleKept (s : State) (commit : Bool) (r : CollRun) : State :=
  match s.collCfg r.coll with
  | none => s
  | some c =>
    let left := bitsOfMask c.n (nodesMask c.n r.nodes)
    let note := fun (s : State) (js : List Nat) (out : Nat) => js.foldl (fun s j => s.addEntry (lateEntry r.coll j out r.step)) s
    if r.step ≠ s.stroke.step then (note s left 2).setCollRun { r with nodes := [] }
    else if commit then
      (note s (left.filter (fun j => !r.refused.contains j)) 0).setCollRun
        { r with nodes := r.nodes.filter (fun x => !r.refused.contains x.shard) }
    else (note s left 3).setCollRun { r with nodes := [] }

/-- 0x0903 of a core over its threshold, and its count cleared (R254, R255). One that has lost its position in the step is named by
position 0 (DESIGN CHOICE, log entry 145). -/
def State.stallReport (s : State) (p : Nat) : State :=
  let v := ((s.placed.find? (fun q => q.2 == p)).map (·.1)).getD 0
  let n := (s.rget (Reg.coreCvStep p)).toNat
  let th := (s.rget (Reg.coreCvThresh p)).toNat
  let s := if 0 < th ∧ th < n then s.raise (ev 0x0903 (pgCore p) (s.objC v 0) 0 n) else s
  s.rset (Reg.coreCvStep p) 0

/-- A new step opens: everything gathered for the old one is cleared; runs older than it are forgotten. -/
def State.openStep (s : State) : State :=
  let old := s.stroke.step
  { s with
    stroke := { s.stroke with step := old + 1, strokes := 0 }
    stp := { s.stp with firstStroke := s.stroke.jobStroke, hmEvent := false, stepEvent := false, nfTrailers := 0, normNf := false,
                        loss := none, nfCount := 0, sumsq := none, wrote := [], entries := [], localV := 0, votes := [],
                        verdict := none, broken := none, withdrawn := [], energy := 0 }
    fab := { s.fab with colls := s.fab.colls.filter (fun r => r.step == old), roots := s.fab.roots.filter (fun r => r.step == old),
                        coords := s.fab.coords.filter (fun r => r.step == old) } }

/-- Closes the step by the job verdict. An assay job commits nothing and writes no digest (R385). -/
def State.closeStep (s : State) (v : JobVerdict) : State :=
  let out := v.excluded.contains s.replica
  let commit := !v.skip && !out && s.stp.broken.isNone && !s.job.assay
  let lv := s.stp.localV + b1 out 6
  let ls := s.lossScale
  let e := s.rfield Reg.stkLsStat 0 8
  let cnt := s.rfield Reg.stkLsStat 8 16
  let (e', cnt') := lossScaleNext e cnt v.skip v.reasons (s.rget Reg.stkLsCfg)
  let loss := match s.stp.loss with | none => (0x7FC00000 : Word) | some l => l.2
  let sumsq := s.stp.sumsq.getD 0x7FC00000
  let nf := s.nfTotal
  let s := (List.range 144).foldl (fun s p => s.stallReport p) s
  let s := if v.skip then (s.bump Reg.stkSkipCnt 1).raiseM 0x0310 (pgStk 3) 0 0 v.reasons else s
  let s := s.noteExcluded v
  let s := s.fab.colls.foldl (fun s r => s.settleKept commit r) s
  let s := if commit then (s.flipSels.bandRef s.lossBand).bandRef s.normBand else s
  let digest := if commit then s.stateDigest else []
  let s := if commit then s.digestNote else s
  let s := if commit then { s with stp := { s.stp with commits := s.stp.commits + 1, lastDigest := digest, lastStep := s.stroke.step } } else s
  let seen := if s.job.params.replay then !v.skip else commit
  let r : LedgerRec :=
    { step := s.stroke.step, stroke := s.stp.firstStroke, strokes := s.stroke.strokes, entries := s.stp.entries, localV := lv,
      jobV := v.reasons, skip := v.skip, trace := s.job.params.trace, ls := ls, lsNext := lossScaleWord e', loss := loss
      sumsq := sumsq, nf := nf, epoch := s.epoch.cur, energy := 0, digest := digest }
  let s := s.rset Reg.stkLsStat (wOf (e' + 256 * cnt'))
  let s := ((s.rset Reg.stkLastLoss loss).rset Reg.stkLastSumsq sumsq).rset Reg.stkLastNf nf
  let s := s.rset Reg.stkVerdict (wOf (lv + 2 ^ 16 * v.reasons + b1 v.skip 21))
  let drain := !s.job.assay && (v.drain || out || s.stp.broken.isSome)
  let s := { s with stp := { s.stp with committed := seen, pendingRec := some r } }
  let s := if drain then s.drainSoon else s
  let s := s.openStep
  match s.replayRec s.stroke.step with
  | none => s
  | some q => if s.job.params.replay then s.rsetField Reg.stkLsStat 0 8 (fieldNat q.ls 23 8) else s

/-! ### COMMIT (R188) -/

/-- The cores that issued COMMIT in the stroke, ascending by position. -/
def State.commitCores (s : State) : List (Nat × Nat) := s.placed.filter (fun q => 0 < (s.core q.2).commits)

/-- 0x0912 where some cores but not all issued COMMIT, or one issued two. -/
def State.commitCheck (s : State) : State :=
  let cs := s.commitCores
  match cs with
  | [] => s
  | (_, p) :: _ =>
    if cs.length < s.placed.length ∨ cs.any (fun q => 1 < (s.core q.2).commits) then
      s.raise (ev 0x0912 (pgCc p) (s.objM 0) 0 cs.length)
    else s

/-! ### Settings that take effect (R28, R444) -/

/-- One setting of SET_SETTING, with its ledger entry in the step that opens, whatever the old value was (R444). -/
def State.applySetting (s : State) (x : Setting) : State :=
  match (pageAt x.reg).bind (fun pg => rowAt pg (x.reg % 0x1000)) with
  | none => s
  | some (r, _) =>
    let old := s.rget x.reg
    let new := r.write false old x.val
    (s.rset x.reg new).addEntry ⟨7, 0, leBytes 4 x.page.toNat ++ leBytes 4 x.off.toNat ++ leBytes 4 old.toNat ++ leBytes 4 new.toNat⟩

/-- The settings whose step a step boundary opens or has passed, applied at an earlier boundary. In replay mode the ledger's instead
(R29). -/
def State.takeSettings (s : State) : State :=
  if s.job.params.replay then (s.replayRec s.stroke.step).elim s s.replaySettings
  else
  let due := fun (x : Setting) => decide (x.step.toNat ≤ s.stroke.step.toNat) && x.since != s.stroke.devStroke
  let now := s.epoch.settings.filter due
  if now.isEmpty then s
  else
    let s := { s with epoch := { s.epoch with settings := s.epoch.settings.filter (fun x => !due x) } }
    (now.foldl (fun s x => s.applySetting x) s).newHallmark

end Sys2Proof.Machine
end

