-- ==== Sys2Proof/Machine/PktOps.lean ====
section
/-!
DEFINITION. What an accepted packet does (R299, R300, R306, R307, R321, R352, R359, R371, R401, R414): acknowledgements and refusals,
failed messages, chunks of a load, and the message of each type and kind.
-/

namespace Sys2Proof.Machine

open Sys2Proof

/-! ### A message that has failed (R307) -/

/-- Kind of the AGREE message that a packet belongs to; of a later packet, VERDICT where no collective is named. -/
def pktKind (p : Pkt) : Nat := if p.ofs = 0 then blk p.payload 0 1 else if p.coll = 0 then 4 else 0

/-- Hands a segment with its decided set over to its backup (R307, R319). -/
def State.handOver (s : State) (c : CollCfg) (step : DWord) (stage group lane seg mask : Nat) : State :=
  let b := (s.rootEnt c stage group seg).backup
  if b = s.member then s.collGo [.hand c.coll step stage (c.rootIdx stage group seg) lane mask]
  else s.sendAgree b c.coll (handTree (c.rootIdx stage group seg)) step (decisionBytes c step stage lane mask)

/-- What a backup of the last stage needs of the first: its decisions, as far as this device knows them. -/
def State.tellStageOne (s : State) (c : CollCfg) (step : DWord) (b : Nat) : State :=
  if !c.two || b == s.member then s
  else (List.range c.groups).foldl (fun s g => ([1, 0] : List Nat).foldl (fun s lane =>
    match (s.coord c.coll step 1 g lane).decided with
    | none => s
    | some d => s.sendAgree b c.coll (c.groupTree 1 g) step (decisionBytes c step 1 lane d)) s) s

/-- The root of a segment hands its delivery over, both lanes of it. -/
def State.handResult (s : State) (c : CollCfg) (step : DWord) (seg : Nat) : State :=
  let s := s.tellStageOne c step (s.rootEnt c c.final 0 seg).backup
  ([1, 0] : List Nat).foldl (fun s lane =>
    match (s.root? c.coll step c.final 0 lane seg).bind (·.decided) with
    | none => s
    | some d => s.handOver c step c.final 0 lane seg d) s

/-- A coordinator hands the segments that a member roots over, with the set that it has decided. -/
def State.handDecision (s : State) (c : CollCfg) (peer : Nat) (step : DWord) (stage group lane : Nat) : State :=
  match (s.coord c.coll step stage group lane).decided with
  | none => s
  | some d => ((List.range c.segs).filter (fun k => s.rootMember c stage group k == peer)).foldl
      (fun s k => s.handOver c step stage group lane k d) s

/-- What else a failed message of a type sets in motion at its sender; `p` is its first packet where that is still kept. -/
def State.afterFailure (s : State) (peer : Nat) (p : Pkt) : State :=
  if p.typ = 2 then
    match s.collCfg p.coll with
    | none => s
    | some c => s.handResult c (s.stepOf p.step) (treeShard p.tree)
  else if p.typ = 5 ∧ pktKind p = 2 ∧ treeLevelOf p.tree ≠ 31 then
    match s.collCfg p.coll with
    | none => s
    | some c =>
      let stage := if c.two then blk p.payload 16 1 else 1
      s.handDecision c peer (s.stepOf p.step) stage (c.groupFrom stage p.tree) (blk p.payload 1 1)
  else if p.typ = 5 ∧ pktKind p = 4 then
    { s with stp := { s.stp with owed := (s.stp.owed.filter (· != peer)) ++ [peer] } }
  else s

/-- A packet needs a fourth resend: its message has failed. -/
def State.failMessage (s : State) (f : Nat) (r : Retained) : State :=
  let peer := (s.ctx f).peer
  let p := r.pkt
  let head := (((s.flow f).message p).find? (fun m => m.pkt.ofs == 0)).elim p (·.pkt)
  let s := s.raisePeer 0x0504 (if p.typ = 0 then sevStep else sevInfo) peer (if p.typ = 0 then 0 else p.coll) p.seq.toNat
  ((s.blameOnce peer 2 p.seq.toNat).abandon f r).afterFailure peer head

/-- A resend that counts: the fourth one fails the message (R306). -/
def State.resendOrFail (s : State) (f : Nat) (r : Retained) : State :=
  if 3 ≤ r.resends then s.failMessage f r else s.resend f r true

/-! ### Acknowledgement and refusal (R306, R308, R315) -/

def State.retainedAt (s : State) (f : Nat) (seq : Word) : Option Retained := (s.flow f).retained.find? (fun r => r.pkt.seq == seq)

/-- A refusal that no resend follows: the packet leaves the store, and a contribution is noted as refused. -/
def State.takeRefusal (s : State) (f : Nat) (r : Retained) : State :=
  let p := r.pkt
  let s := s.setFlow f { s.flow f with retained := (s.flow f).retained.filter (fun x => x.pkt.seq != p.seq) }
  if p.typ ≠ 1 then s
  else match s.collRun? p.coll (s.stepOf p.step) with
    | none => s
    | some run => s.setCollRun { run with refused := (run.refused ++ [treeShard p.tree]).eraseDups }

/-- A NACK: reasons 1 and 0 (a gap) resend at once, 4 after a pause, 2 and 3 not at all. -/
def State.takeNack (s : State) (f : Nat) (seq : Word) (reason : Nat) : State :=
  match s.retainedAt f seq with
  | none => s
  | some r =>
    if reason ≤ 1 then s.resendOrFail f r
    else if reason = 4 then
      s.setFlow f { s.flow f with retained := (s.flow f).retained.map (fun x => if x.pkt.seq = seq then { x with backoff := true } else x) }
    else s.takeRefusal f r

/-- An ACK; with CE_ECHO it cuts the rate. A verdict that a member was owed is settled once nothing of it is retained. -/
def State.onAck (s : State) (f : Nat) (p : Pkt) : State :=
  let s := s.takeAck f p.seq
  let peer := (s.ctx f).peer
  let open_ := (s.flow f).retained.any (fun r => r.pkt.typ == 5 && pktKind r.pkt == 4)
  let s := if open_ then s else { s with stp := { s.stp with owed := s.stp.owed.filter (· != peer) } }
  if p.flags.getLsbD 4 then s.cutRate f else s

/-! ### HELLO, PACE, BLAME -/

/-- A hallmark other than this device's: the peer is refused for the epoch (R321). -/
def State.onHello (s : State) (src : Nat) (h : List Byte) : State :=
  if h.take 32 = s.fab.hallmark then s
  else
    let fs := s.validFlows.filter (fun f => (s.ctx f).peer == src)
    let s := fs.foldl (fun s f => s.setFlow f { s.flow f with refused := true }) s
    let w := (hashWord h 0).toNat
    (s.raisePeer 0x050B sevStep src 0 w).blameOnce src 4 w

/-- A pace notice is held, or with TARGET 0 dropped (R414). -/
def State.onPace (s : State) (b : List Byte) : State :=
  let m := blk b 0 2 % 8192
  let n : PaceNote := ⟨blk b 2 1, blk b 3 1, blk b 4 2, BitVec.ofNat 64 (blk b 8 8)⟩
  { s with pwr := { s.pwr with paces := tset none s.pwr.paces m (if n.target = 0 then none else some n) } }

/-- A blame record at a collector (R401). -/
def State.onBlame (s : State) (b : List Byte) : State :=
  if s.job.present && (s.member == s.job.params.coord || s.member == s.job.params.backup) then
    s.blameRecord (blk b 0 2 % 8192) (blk b 2 2 % 8192) (blk b 5 1) (BitVec.ofNat 64 (blk b 8 8))
  else s

/-! ### Data -/

/-- TREE of a restoring member's report to the coordinator, and of the coordinator's word that all have reported (R352; DESIGN CHOICE, log
entry 43). -/
def restoreReport : Word := treeWord 31 0
def restoreEnd : Word := treeWord 31 1

/-- A message of the restore in hand (R352). -/
def State.restoreMsg (s : State) (m : Msg) : Bool := s.stroke.hold == .restore && (s.ctx m.flow).tc == 3 && m.coll == s.epoch.cur

/-- A complete DATA message: of a restore a region of a twin, a report, or the word that all have reported; or a receive's. -/
def State.onData (s : State) (m : Msg) : State :=
  if s.restoreMsg m then
    if m.tree = restoreReport then { s with epoch := { s.epoch with awaiting := s.epoch.awaiting.filter (· != m.src) } }
    else if m.tree = restoreEnd then { s with epoch := { s.epoch with released := true } }
    else match s.epoch.restoring with
      | some (_, t1, _) =>
        let k := if m.src = t1 then 0 else 1
        { s with epoch := { s.epoch with restored := tset [] s.epoch.restored (32 * k + treeShard m.tree) m.bytes } }
      | none => s
  else s.takeData m

/-- The load a DATA packet belongs to (R359). -/
def State.loadOfPkt (s : State) (p : Pkt) : Option LoadRun :=
  if p.typ = 0 ∧ (s.ctx (p.flow % 4096)).tc = 3 then s.liveLoad p.coll else none

/-- A chunk that would have to wait in a staging region that is full (R371). -/
def State.stagingFull (s : State) (r : LoadRun) (k : Nat) : Bool :=
  r.active && s.isDest r.desc && !s.chunkFree r k && !r.places.any (fun e => e.1 == k) && !r.taken.any (fun e => e.1 == k) &&
  (r.freePlace (r.desc.stored k)).isNone

/-- Forwards a packet to this device's children as it came. -/
def State.forward (s : State) (d : LoadDesc) (p : Pkt) : State :=
  (s.children d).foldl (fun s m => match s.flowTo m 3 with
    | none => s
    | some f => s.sendSeq f 0 (if p.flags.getLsbD 2 then flgLast else 0) 0 d.id p.tree p.ofs s.stroke.step p.payload) s

/-- Bytes of stored chunk `k` that have come, and the chunk itself. -/
def LoadRun.partsOf (r : LoadRun) (k : Nat) : List (List Byte) := (r.parts.filter (fun e => e.1 / 2 ^ 20 == k)).map (·.2)

/-- Places an accepted packet of a load; a chunk whose packets have all come is decoded (R359). -/
def State.placeChunk (s : State) (id : Word) (p : Pkt) : State :=
  match s.loadOf id with
  | none => s
  | some r =>
    let k := treeShard p.tree
    let (_, len, _) := r.desc.dir.getD k (0, 0, 0)
    let r := if s.isDest r.desc then s.reserve r k else r
    let r := { r with parts := tset [] r.parts (2 ^ 20 * k + p.ofs) p.payload }
    let s := s.setLoad r
    let got := (r.partsOf k).flatten
    if len ≤ got.length ∧ k < r.desc.chunks then
      let s := s.setLoad { r with parts := r.parts.filter (fun e => e.1 / 2 ^ 20 != k) }
      if s.isDest r.desc then s.takeChunk id k (got.take len) else s
    else s

/-- A packet of a load, behind the checks of its frame: forwarded, placed. -/
def State.loadPacket (f : Nat) (p : Pkt) (checked : Bool × Option Refusal323 × State) (r : LoadRun) : State :=
  let (ok, _, s) := checked
  if !ok then s
  else if s.stagingFull r (treeShard p.tree) then s.sendNack f p.epoch p.seq 4
  else
    let (fresh, s) := s.enter f p
    if !fresh then s
    else
      let s := s.setFlow f { s.flow f with rxq := (s.flow f).rxq.filter (fun q => q.seq != p.seq) }
      if isVoid p then s else (s.forward r.desc p).placeChunk p.coll p

/-! ### Dispatch -/

/-- An AGREE message (R300). -/
def State.onAgree (s : State) (m : Msg) : State :=
  match m.kind with
  | 1 => s.takeReport m
  | 2 => s.takeDecision m
  | 3 => s.takeVote m
  | 4 => s.takeVerdict m
  | 5 => s.takeWithdraw m
  | 6 => s.takeReportAgain m
  | _ => s.bump Reg.igsHmRefused 1

/-- A message of a flow, `p` being the packet that completed it. -/
def State.onMsg (s : State) (p : Pkt) (m : Msg) : State :=
  match m.typ with
  | 0 => s.onData m
  | 1 => s.takeContrib m
  | 2 => s.takeResult m
  | 3 => s.onAck m.flow p
  | 4 => s.takeNack m.flow (wOf (blk m.bytes 0 4)) (blk m.bytes 4 4)
  | 5 => s.onAgree m
  | 6 => s.onHello m.src m.bytes
  | 8 => s.onPace m.bytes
  | 9 => s.onBlame m.bytes
  | _ => s

/-- A frame at a port that is up; in keep-alive mode a port carries TC0 alone (R293, R301). -/
def State.onFrame (s : State) (x : Rx) : State :=
  let q := s.port x.port
  if !q.up || (q.keepalive && pktClass x.pkt.typ (s.ctx (x.pkt.flow % 4096)).tc != 0) then s
  else match s.loadOfPkt x.pkt with
    | some r => State.loadPacket (x.pkt.flow % 4096) x.pkt (s.check x (x.pkt.flow % 4096)) r
    | none =>
      let (ms, s) := s.receive x
      ms.foldl (fun s m => s.onMsg x.pkt m) s

end Sys2Proof.Machine
end

