-- ==== Sys2Proof/Machine/PowerOps.lean ====
section
/-!
DEFINITION. The power controller at a boundary (R405 to R423): energy, the step target and its sources, the step change, pace
notices.
-/

namespace Sys2Proof.Machine

open Sys2Proof

/-! ### The power model (R407, R423) -/

/-- An FZ7-112: the power of its cores scales by 112/128. -/
def State.part112 (s : State) : Bool := s.fuses.activeCores != 0x80

/-- `ptab(k)` in units of 1/640,000 W, from its formula (DEDUCED, log entry 42). -/
def ptab (small : Bool) (k : Nat) : Nat :=
  (if small then 13790 else 15760) * (32 - k) * (50 - k) ^ 2 + 4700000 * (32 - k) + 288000000

/-- The static power that the worst part adds, in the same units. -/
def worstStatic (small : Bool) (k : Nat) : Nat := (if small then 672 else 768) * (50 - k) ^ 3

/-- Measured power of a stroke in watts, as a fraction: energy over duration, or the worst-part figure where telemetry is lost. -/
def State.measured (s : State) (durNs : Nat) : Nat × Nat :=
  if s.pwr.telemetryLost || s.pwr.strokeLost then
    (ptab s.part112 s.pwr.k + worstStatic s.part112 s.pwr.k, 640000)
  else (s.pwr.strokePj, 1000 * max 1 durNs)

/-- `cap_step` of R411, the power given as a fraction of watts. -/
def capStep (small : Bool) (k : Nat) (pm : Nat × Nat) (cap hyst : Nat) : Nat :=
  ((List.range 16).find? (fun j =>
    let lim := if j < k then cap - hyst else cap
    decide (pm.1 * ptab small j ≤ lim * pm.2 * ptab small k))).getD 15

def State.capW (s : State) : Nat := s.rfield Reg.pwrCap 0 12

/-! ### Voltage (R407, R408, R420, R421) -/

/-- TRIM(k) as it acts now: none in BOOT, in QUARANTINE, and in the 60 s after a slack event (R421). -/
def State.trimNow (s : State) (k : Nat) : Nat :=
  if s.mgmt.dev = .boot ∨ s.mgmt.dev = .quarantine ∨ s.pwr.trimHold ≠ [] then 0 else s.trimOf k

/-- Commands V(k) over AVSBus, in quarter millivolts. -/
def State.commandVolt (s : State) (k : Nat) : State := s.send (.avs (4 * s.fuses.vfuse.getD k 0 - 10 * s.trimNow k))

/-- The step whose voltage is commanded: the one stepped to, where a rise is on its way (R408). -/
def State.voltStep (s : State) : Nat := if s.pwr.rising then s.pwr.k - 1 else s.pwr.k

/-- Trims that had no effect until now act again, or act no longer: the voltage follows (R421). -/
def State.retrim (s : State) : State := if s.trimOf s.voltStep = 0 then s else s.commandVolt s.voltStep

/-! ### The sources of the step target (R409 to R422) -/

/-- A register write of the cap comes into force (R410), as does PLANISH (R419). -/
def State.takeShadows (s : State) : State :=
  let s := match s.pwr.capShadow, (pageAt Reg.pwrCap).bind (fun pg => rowAt pg (Reg.pwrCap % 0x1000)) with
    | some w, some (r, _) => s.rset Reg.pwrCap (r.write false (s.rget Reg.pwrCap) w)
    | _, _ => s
  { s with pwr := { s.pwr with capShadow := none, planish := s.rfield Reg.pwrCtl 0 5 } }

/-- kc, and 0x0701 where the cap cannot be met (R411, R412). -/
def State.takeCap (s : State) (pm : Nat × Nat) : State :=
  let k := s.pwr.k
  let kc := capStep s.part112 k pm s.capW (s.rfield Reg.pwrCap 12 8)
  let s := { s with pwr := { s.pwr with kc := kc } }
  if k = 15 ∧ s.capW * pm.2 < pm.1 ∧ !s.pwr.capTold then
    ({ s with pwr := { s.pwr with capTold := true } }).raiseM 0x0701 pgPwr 0 0 (pm.1 / pm.2)
  else s

/-- The pair that came in the stroke replaces the one held (R415); a hint past its stroke is dropped. -/
def State.takeHintPair (s : State) : State :=
  let d := s.stroke.devStroke.toNat
  let s := match s.pwr.hintIn with
    | none => s
    | some (c, lead) =>
      let w := s.rfield (Reg.pwrClass c) 0 12
      if c = 0 ∨ w = 0 then s
      else
        let kq := capStep s.part112 0 (w, 1) s.capW 0
        let sp := d + lead
        let h : Option HintSt := if s.pwr.k < kq then some ⟨kq, max d (sp - (kq - s.pwr.k)), sp⟩ else none
        { s with pwr := { s.pwr with hint := h } }
  let h := s.pwr.hint.filter (fun h => decide (d ≤ h.sp))
  { s with pwr := { s.pwr with hintIn := none, hint := h } }

/-- kh at the boundary that opens the present stroke. -/
def State.kh (s : State) : Nat :=
  match s.pwr.hint with
  | none => 0
  | some h => if h.lo ≤ s.stroke.devStroke.toNat then h.kq else 0

def State.kp (s : State) : Nat :=
  if s.rbit Reg.pwrCtl 6 then (match s.pace with | none => 0 | some (_, t) => t) else 0

/-- kd from the stretched share of the stroke (R417). -/
def State.takeStretch (s : State) (durNs stretchNs : Nat) : State :=
  let long := decide (durNs < 10 * stretchNs)
  let calm := decide (50 * stretchNs < durNs)
  let run := if long then s.pwr.stretchRun + 1 else 0
  let quiet := if calm then s.pwr.calmRun + 1 else 0
  let s := { s with pwr := { s.pwr with stretchRun := if run = 16 then 0 else run, calmRun := min 1024 quiet } }
  let s := if run = 16 then
      ({ s with pwr := { s.pwr with kd := min 15 (s.pwr.k + 1) } }).raiseM 0x0702 pgPwr 0 0 (1000 * stretchNs / max 1 durNs)
    else s
  if quiet = 1024 then { s with pwr := { s.pwr with kd := 0 } } else s

/-- kj from the junction temperature at the boundary (R422). -/
def State.takeJunction (s : State) : State :=
  let warn := s.rfield Reg.thmCfg 0 8
  let hot := decide (warn ≤ s.pwr.tj)
  let cool := if s.pwr.tj < warn - 3 then s.pwr.coolRun + 1 else 0
  let hold := s.rfield Reg.pwrCtl 12 8
  let kj := if s.pwr.stretch.tj then 15 else if hot then min 15 (s.pwr.k + 1)
    else if hold ≤ cool && decide (0 < cool) then 0 else s.pwr.kj
  let told := s.pwr.tjWarnTold
  let s := { s with pwr := { s.pwr with kj := kj, coolRun := min 256 cool, tjWarnTold := hot } }
  if hot && !told then s.raiseM 0x0710 pgThm 0 0 s.pwr.tj else s

/-- kt and the source that set it: the first of the list wins a tie (R409). -/
def State.setTarget (s : State) : State :=
  let src := [s.pwr.kc, s.kh, s.kp, s.pwr.kd, s.pwr.kj, s.rfield Reg.pwrCtl 8 4]
  let kt := src.foldl max 0
  let lim := if kt = 0 then 0 else ((List.range 6).find? (fun i => src.getD i 0 == kt)).getD 0 + 1
  { s with pwr := { s.pwr with kt := kt, limiter := lim } }

/-- At most one step change (R408, R409). -/
def State.moveStep (s : State) : State :=
  let p := s.pwr
  if p.rising then
    { s with pwr := { p with rising := false, k := p.k - 1, upRun := if p.kt < p.k then min 256 (p.upRun + 1) else 0 } }
  else if p.k < p.kt then ({ s with pwr := { p with k := p.k + 1, upRun := 0 } }).commandVolt (p.k + 1)
  else if p.kt < p.k then
    let n := p.upRun + 1
    let s := { s with pwr := { p with upRun := min 256 n } }
    if s.rfield Reg.pwrCtl 12 8 ≤ n then ({ s with pwr := { s.pwr with rising := true } }).commandVolt (p.k - 1) else s
  else { s with pwr := { p with upRun := 0 } }

/-! ### Pace notices (R413) -/

def State.paceValue (s : State) : Nat := max s.pwr.kc s.pwr.kj
def State.paceBytes (s : State) : List Byte :=
  pad64 (leBytes 2 s.member ++ [BitVec.ofNat 8 s.paceValue, BitVec.ofNat 8 s.pwr.k] ++ leBytes 2 s.capW ++ [0, 0] ++
    leBytes 8 s.stroke.jobStroke.toNat)

/-- The distinct peers of the valid flow contexts. -/
def State.flowPeers (s : State) : List Nat := (s.validFlows.map (fun f => (s.ctx f).peer)).eraseDups

/-- Sends the notice to every peer on TC0. -/
def State.sendPace (s : State) : State :=
  let s := { s with pwr := { s.pwr with paceSent := s.paceValue } }
  let body := s.paceBytes
  s.flowPeers.foldl (fun s m => match s.flowTo m 0 with
    | none => s
    | some f => s.sendPlain f 8 flgLast 0 body) s
def State.tellPace (s : State) : State :=
  if s.rbit Reg.pwrCtl 5 && s.paceValue != s.pwr.paceSent then s.sendPace else s

/-- A release of `e` engines ramps at planish fraction F (R81). -/
def ramps (f e : Nat) : Bool := decide (1132 < e * (16 - f))

/-- Time a release ramp delays, in ns: it lasts (16 - F) / 16 × E × 3.164 / 224 µs, in which the clock runs at (16 + F) / 32 of its rate on
average, as the worked figures of 03_stroke.md have it (DEDUCED, log entry 138). -/
def rampNs (f e : Nat) : Nat := (16 - f) ^ 2 * e * 3164 / (16 * 32 * 224)

/-- Order 8 of R61. The stroke's release ramps, at the fraction that was in force in it, are clock stretches like any other (R81, R416). -/
def State.powerStep (s : State) (durNs stretchNs : Nat) (releases : List Nat) : State :=
  let rs := releases.filter (ramps s.pwr.planish)
  let s := s.bump Reg.pwrStretchCnt rs.length
  let stretchNs := stretchNs + (rs.map (rampNs s.pwr.planish)).sum
  let s := s.takeShadows
  let s := s.takeCap (s.measured durNs)
  let s := s.takeHintPair.takeStretch durNs stretchNs
  let s := s.bumpPair Reg.pwrStretchNsLo stretchNs
  s.takeJunction.setTarget.moveStep.tellPace

/-! ### Energy (R406, R423) -/

/-- Order 10 of R61: the stroke's energy is recorded. Where telemetry was lost it is not known, and what the totals take in is a free
value (log entry 5). -/
def State.energyStep (s : State) : State :=
  let lost := s.pwr.strokeLost || s.pwr.telemetryLost
  let (f, s) := if lost then s.draw else (0, s)
  let pj := if lost then f.toNat % 2 ^ 32 * 1000000 else s.pwr.strokePj
  let word := if lost then 2 ^ 32 - 1 else min (2 ^ 32 - 1) (pj / 1000000)
  let s := { s with pwr := { s.pwr with strokePj := 0, strokeLost := false, vrTold := false
                                        stepPj := s.pwr.stepPj + pj, totalPj := s.pwr.totalPj + pj } }
  ((s.rset Reg.pwrStrokeE (wOf word)).setPair Reg.pwrStepELo (s.pwr.stepPj / 1000000)).setPair Reg.pwrTotalELo
    (s.pwr.totalPj / 1000000000)

end Sys2Proof.Machine
end

