-- ==== Sys2Proof/Machine/Boundary.lean ====
section
/-!
DEFINITION. The stroke boundary (R57, R58, R61 to R63, R71 to R74, R428, R429): its ten orders, the places at which it can be held, layout
epochs and twin restore (R324, R344, R351, R352, R448, R449), the entry to DRAIN and the exit from it, and how a boundary that was
held goes on.
-/

namespace Sys2Proof.Machine

open Sys2Proof

/-! ### When a boundary falls -/

/-- The arithmetic clock runs (R428, R432, R492). -/
def State.clockRuns (s : State) : Bool :=
  !s.pwr.clocksStopped &&
  match s.mgmt.dev with
  | .boot => decide (2 ≤ s.mgmt.bootStage)
  | .ready | .run | .drain | .quarantine => true
  | _ => false

/-- The work of a stream in the stroke is complete (R71). -/
def streamDone (c : Core) (st : Stream) : Bool :=
  !ownsSlot c st || match (c.stream st).phase with | .ended | .halted _ => true | _ => false

/-- The streams that have not reached their stroke-end, in the order of R75. -/
def State.lateStreams (s : State) : List (Nat × Stream) :=
  if !s.live then []
  else s.placed.flatMap (fun q => ([.f, .b, .u] : List Stream).filterMap (fun st =>
    if streamDone (s.core q.2) st then none else some (q.1, st)))

/-- A boundary can fall now: none is held, and every stream is done or the stroke has been given up (R71 to R74). -/
def State.mayFall (s : State) : Bool := s.clockRuns && s.stroke.hold == .no && (s.stroke.hung || s.lateStreams.isEmpty)

/-- 0x0302 or 0x0303 names the first late stream; the device drains at the boundary. -/
def State.giveUp (s : State) (code : Nat) : State :=
  match s.lateStreams with
  | [] => s
  | (v, st) :: rest =>
    let s := s.raise (ev code (pgStk 1) (s.objC v st.codeNat) 0 (rest.length + 1))
    { s with stroke := { s.stroke with hung := true, drainNext := true } }

/-! ### Orders 1 to 3 -/

/-- Records the overrun of a stretched stroke: 0x0301 names the stream that issued its stroke-end last (R72). -/
def State.noteOverrun (s : State) (b : BoundaryObs) : State :=
  if !s.stroke.stretched || b.extra == 0 then s
  else
    let (v, st) := s.stroke.lastEnd.elim (0, 0) (fun q => (q.1, q.2.codeNat))
    let s := (s.bump Reg.stkOvrCnt 1).bumpPair Reg.stkOvrCycLo b.extra
    let s := s.rset Reg.stkOvrMax (wOf (min (2 ^ 32 - 1) (max (s.rget Reg.stkOvrMax).toNat b.extra)))
    s.raise (ev 0x0301 (pgStk 1) (s.objC v st) 0 b.extra)

/-- A stack in stage 2 stretches the stroke by an eighth (R285). -/
def State.anyStage2 (s : State) : Bool := (List.range 12).any (fun k => (s.stk k).stage == 2 && !(s.stk k).out)

/-- Order 1: overrun, pause, thermal stretch, the checks reported at the boundary. -/
def State.orderOne (s : State) (b : BoundaryObs) : State :=
  let s := if s.live then s.noteOverrun b else s
  let s := s.bumpPair Reg.brnPauseCycLo b.pause
  let s := b.idle.foldl (fun s q => s.bumpPair (Reg.mePlanCycLo (q.1 % 144) (q.2.1 % 4)) q.2.2) s
  let s := if s.anyStage2 then s.bumpPair Reg.hbmStretchCycLo (2 ^ s.stroke.n / 8) else s
  let s := s.placedByCore.foldl (fun s q => s.reportLock q.1 q.2) s
  if s.live then s.commitCheck else s

/-- Every stream of every core has issued JOBEND (R83). -/
def State.jobEnded (s : State) : Bool :=
  s.live && !s.placed.isEmpty && s.placed.all (fun q =>
    ([.f, .b, .u] : List Stream).all (fun st => ((s.core q.2).stream st).phase == .halted true))

/-- Order 2: what has registered is complete (R82, R83). Answers the operations newly marked. -/
def State.orderTwo (s : State) : List EndedOp × State :=
  let s := if s.jobEnded && !s.job.complete then
      let c := s.job.cmd
      ({ s with job := { s.job with complete := true, cmd := none } }).endOp c stOk 0
    else s
  s.markEnded

/-- The job stroke number rises in RUN and DRAIN, and during an assay job (R58, R385). -/
def State.jobCounts (s : State) : Bool := s.mgmt.dev == .run || s.mgmt.dev == .drain || s.assaying

/-- Order 3. -/
def State.orderThree (s : State) : State :=
  { s with stroke := { s.stroke with
      devStroke := s.stroke.devStroke + 1
      jobStroke := if s.jobCounts then s.stroke.jobStroke + 1 else s.stroke.jobStroke
      strokes := if s.live then s.stroke.strokes + 1 else s.stroke.strokes } }

/-! ### DRAIN (R402, R428, R429) -/

/-- The device enters DRAIN. A job that has neither ended nor been aborted fails; a replacement request that waited is raised. -/
def State.enterDrain (s : State) : State :=
  let c := s.job.cmd
  let s := ({ s with
    mgmt := { s.mgmt with dev := .drain }
    job := { s.job with cmd := none }
    stroke := { s.stroke with drainNext := false, drained := false, hung := false, stretched := false }
    brn := { s.brn with paused := [] } }).endNow c stFailed 0
  if s.brn.replPending then s.raiseRepl else s

/-- Order 5: a job that has ended, or anything that names DRAIN, takes the device out of RUN. -/
def State.takeDrain (s : State) : State :=
  if s.mgmt.dev = .run ∧ (s.stroke.drainNext ∨ s.job.complete) then s.enterDrain else s

/-- A collective of the device is not over: its outcome or an item of it is still to come. -/
def CollRun.pending (r : CollRun) : Bool := !r.done || r.cores.any (fun c => !c.placed)

/-- Collectives and messages of the device that are not over (R324): messages sent and not acknowledged, received in part, and on their
way to a core. -/
def State.netOpen (s : State) : Bool :=
  s.fab.colls.any CollRun.pending ||
  s.fab.flows.any (fun f => f.2.retained.any (fun r => r.pkt.typ == 0) || f.2.rxq.any (fun p => p.typ == 0)) ||
  s.flights.any (fun f => f.opc == 0x81 || f.opc == 0x82)

/-- Something of the drain work is still to be done (R429). -/
def State.drainOpen (s : State) : Bool := s.netOpen || s.stp.pendingRec.isSome

/-- How many operations a forced drain abandons (DEDUCED, log entry 46): open collectives, and DATA messages not acknowledged. -/
def State.openOps (s : State) : Nat :=
  (s.fab.colls.filter CollRun.pending).length +
  (s.fab.flows.map (fun f => (f.2.retained.filter (fun r => r.pkt.typ == 0 && r.pkt.flags.getLsbD 2)).length)).sum

/-- What a forced drain leaves of the fabric's work: nothing. -/
def State.abandonWork (s : State) : State :=
  let s := { s with flights := s.flights.filter (fun f => !(f.opc == 0x81 || f.opc == 0x82)),
                    stp := { s.stp with pendingRec := none } }
  { s with fab := { s.fab with colls := [], roots := [], coords := [],
                               flows := s.fab.flows.map (fun (e : Nat × FlowSt) => (e.1, { e.2 with retained := [], arms := [], rxq := [] })) } }

/-- Every ACTIVE core returns to SPARE (R41). -/
def State.releaseCores (s : State) : State :=
  s.placed.foldl (fun s q => s.setRole q.2 { s.roleOf q.2 with role := .spare }) s

/-- Order 7: the device leaves DRAIN for READY, or for QUARANTINE where it holds assay records; records of a step that no boundary
closed are opened here (R384). -/
def State.leaveDrain (s : State) : State :=
  if s.mgmt.dev = .drain ∧ s.stroke.drained then
    let s := s.openAssay
    let to_ : DevState := if s.asy.st = 1 then .quarantine else .ready
    let s := s.releaseCores
    let s := { s with mgmt := { s.mgmt with dev := to_ }, job := { s.job with present := false },
                      stroke := { s.stroke with drained := false } }
    if to_ = .quarantine then s.retrim else s
  else s

/-! ### Assay jobs (R385 to R388) -/

/-- A record still pending becomes INCONCLUSIVE (R386). -/
def AssayRec.close (r : AssayRec) : AssayRec := if r.outcome = 0 then { r with outcome := 4 } else r

/-- The assay job of this device has ended: its records are decided, and the device returns to READY. -/
def State.decideAssay (s : State) : State :=
  let recs := s.asy.recs.map AssayRec.close
  let s := { s with asy := { s.asy with recs := recs, st := 3 } }
  let s := recs.foldl (fun s r => (s.fenceOutcome r).raiseM 0x0611 (pgAsy 0) r.pcore 0 (r.word 0).toNat) s
  let c := s.job.cmd
  let s := (s.releaseCores).endOp c stOk 0
  ({ s with mgmt := { s.mgmt with dev := .ready }, job := { s.job with present := false, complete := true, cmd := none },
            stroke := { s.stroke with drainNext := false, hung := false } }).retrim.replCheck

/-- An assay job has run its strokes. -/
def State.assayOver (s : State) : Bool :=
  s.job.present && s.job.assay && decide (s.job.assayLimit ≤ s.stroke.jobStroke.toNat)

/-- Ends an assay job: in QUARANTINE its records are decided, in RUN the device drains. -/
def State.endAssay (s : State) : State :=
  if s.mgmt.dev = .quarantine then s.decideAssay
  else if s.mgmt.dev = .run then
    let c := s.job.cmd
    (({ s with job := { s.job with complete := true, cmd := none } }).endOp c stOk 0).drainSoon
  else s

/-- Order 7: an assay job in QUARANTINE that has ended before its limit: by its program, by an abort, or because the replay stopped
(R386). -/
def State.cutAssay (s : State) : State :=
  if s.mgmt.dev == .quarantine && s.job.present && s.job.assay && (s.job.complete || s.job.aborted || s.stroke.drainNext) then
    s.decideAssay
  else s

/-! ### Layout epochs (R324, R344, R371, R448, R449) -/

/-- Contributions kept for a late lane are dropped when an epoch begins (R344), with the shards of the old epoch's entry (R128). -/
def State.dropKept (s : State) (cfg : Option CollCfg) (r : CollRun) : State :=
  match cfg with
  | none => s
  | some c =>
    let kept := bitsOfMask c.n (nodesMask c.n r.nodes)
    let s := kept.foldl (fun s j => s.addEntry (lateEntry r.coll j 4 r.step)) s
    s.setCollRun { r with nodes := [] }

/-- A replacement that is incomplete is abandoned (R371). -/
def State.abandonLoad (s : State) : State :=
  match s.load.loads.find? (fun r => r.desc.replace && r.active && !r.registered) with
  | none => s
  | some r => ((s.abortLoad r).raiseLoad 0x0413 0 r.desc.id s.load.layersDone.length).endNow r.cmd stAborted 0

/-- The registers an epoch image may write (R233, R353, R449). -/
def imageReg (off : Nat) : Bool :=
  match pageAt off with
  | none => false
  | some pg =>
    match rowAt pg (off % 0x1000) with
    | none => false
    | some (r, _) =>
      let rw := r.fields.any (fun f => f.acc == .rw || f.acc == .rwl)
      rw && (match pg.blk with
        | .hbm | .blk => true
        | .cmb => true
        | .core => true
        | .num => off != Reg.numMode
        | .stk => pg.page == 3 && decide (0x200 ≤ off % 0x1000)
        | _ => false)

/-- One record of the epoch image: none where it is faulty (R449). -/
def State.imageRecord (s : State) (tgt vpos off : Nat) (data : List Byte) : Option State :=
  if tgt = 15 then
    let offs := (List.range (data.length / 4)).map (fun k => (off + 4 * k, wOf (blk data (4 * k) 4)))
    if off % 4 = 0 ∧ vpos = 0 ∧ offs.all (fun e => imageReg e.1) then
      some (offs.foldl (fun s e => match (pageAt e.1).bind (fun pg => rowAt pg (e.1 % 0x1000)) with
        | some (r, _) => s.rset e.1 (r.write false (s.rget e.1) e.2)
        | none => s) s)
    else none
  else if tgt = 2 ∨ tgt = 3 then
    match s.holder vpos with
    | some p => if vpos < 128 ∧ off + data.length ≤ s.extent tgt then some (s.winWrite tgt p off data) else none
    | none => none
  else if tgt = 4 ∨ tgt = 5 then
    if vpos = 0 ∧ off + data.length ≤ s.extent tgt then some (s.winWrite tgt 0 off data) else none
  else none

/-- Writes the records of an epoch image in order. Answers whether all were sound. -/
def State.writeImage : Nat → List Byte → State → Bool × State
  | 0, _, s => (true, s)
  | n + 1, bs, s =>
    if bs.isEmpty then (true, s)
    else
      let len := blk bs 4 4
      if blk bs 1 1 ≠ 0 ∨ len % 4 ≠ 0 ∨ bs.length < 16 + len then (false, s)
      else match s.imageRecord (blk bs 0 1) (blk bs 2 2) (blk bs 8 8) ((bs.drop 16).take len) with
        | none => (false, s)
        | some s => State.writeImage n (bs.drop (16 + (len + 15) / 16 * 16)) s

/-- Logical channels without backing leave, and the others are numbered anew with their contents (R283). -/
def State.renumber (s : State) : State :=
  let old := List.range s.mem.nLc
  let keep := old.filter (fun l => (s.chan l).backed)
  if keep.length = old.length then s
  else
    let chans : Tbl Chan := (keep.zipIdx.map (fun e => (e.2, s.chan e.1))).filter (fun e => e.2 != chan0)
    let cells := s.mem.hbm.filterMap (fun e =>
      (keep.zipIdx.find? (fun k => k.1 == e.1 / 2500000000)).map (fun k => (hbmKey k.2 (e.1 % 2500000000), e.2)))
    { s with mem := { s.mem with hbm := cells, chans := chans, nLc := keep.length } }

/-- The member-table replacements of an epoch (R351, R448). -/
def State.newMembers (s : State) (r : HostRefs) : State :=
  let tab := r.members.foldl (fun t e => setBytes t (igsMemberTab + 16 * (e.1 % 8192)) (e.2.take 16)) s.fab.table
  { s with fab := { s.fab with table := tab } }

/-- Settings and exclusion set of an epoch (R33, R351, R448): each setting that changes has its entry in the ledger (R27, R28, R346). -/
def State.epochSettings (s : State) (r : HostRefs) : State :=
  let s := settingRegs.zipIdx.foldl (fun s e => s.changeSetting e.1 (wOf (blk r.settings (4 * e.2) 4))) s
  { s with stp := { s.stp with epochExcl := r.excl } }

/-- The epoch image is there (R448): its size in the epoch block is not 0. -/
def hasImage (r : HostRefs) : Bool := blk r.block 88 8 != 0

/-- Fetches and writes the image and computes its hash (R449), over the member table as the epoch has it (DEDUCED, log entry 144). Answers
whether the image is sound and the hash is the epoch block's. -/
def State.epochImage (s : State) (r : HostRefs) : Bool × State :=
  let (ok, s) := if hasImage r then
      let (ok, s) := State.writeImage (r.data.length / 16 + 1) r.data s
      let s := s.putImage r.image
      (ok, { s with job := { s.job with image := r.image } })
    else (true, s)
  let h := (s.newMembers r).programHash s.placed s.mem.ticketDefs s.smapBytes
  (ok && h == (r.block.drop 8).take 32, { s with job := { s.job with programHash := h } })

/-- 0x0506 of a drain that does not end, or of an image that is not the epoch's; the device drains. -/
def State.epochFails (s : State) (e : Word) : State :=
  (s.raisePeer 0x0506 sevStep 0 0 e.toNat).drainSoon

/-- Takes the packets of the new epoch out of the flow buffer, HELLO first (R326). -/
def State.takeEarly (s : State) : State :=
  let all := s.fab.flows.flatMap (fun e => e.2.early)
  let s := { s with fab := { s.fab with flows := s.fab.flows.map (fun (e : Nat × FlowSt) => (e.1, { e.2 with early := [] })) } }
  let (hello, rest) := all.partition (fun p => p.typ == 6)
  (hello ++ rest).foldl (fun s p =>
    match s.loadOfPkt p with
    | some r => State.loadPacket (p.flow % 4096) p (s.checkEpoch (p.flow % 4096) p false) r
    | none =>
      let (ms, s) := s.receiveEarly p
      ms.foldl (fun s m => s.onMsg p m) s) s

/-- A twin of a restoring member sends the committed copies of its state regions (R352): one message for each region on TC3, COLL
the epoch and TREE the region (DESIGN CHOICE, log entry 43). -/
def State.serveTwin (s : State) (m : Nat) : State :=
  match s.flowTo m 3 with
  | none => s
  | some f =>
    s.stateRgns.foldl (fun s r =>
      let a := 256 * r.base + (if r.sel then 256 * r.ofs else 0)
      (s.peekNote r.bulk a (256 * r.len)).sendMsg f 0 0 0 s.epoch.cur (wOf r.idx) s.stroke.step false 0
        (s.peekMem r.bulk a (256 * r.len))) s

/-- This member's part in a restore epoch: what it restores, and whom it serves, as twin or as fallback twin (log entry 43). -/
def State.openRestore (s : State) (twins : List (Nat × Nat × Nat)) : State :=
  let mine := (twins.find? (fun t => t.1 == s.member)).map (fun t => (0, t.2.1, t.2.2))
  let served := (twins.filter (fun t => t.2.1 == s.member || t.2.2 == s.member)).map (·.1)
  let s := { s with epoch := { s.epoch with restoring := mine, restored := [], leftOut := false,
                                            awaiting := (twins.map (·.1)).eraseDups, released := false } }
  served.foldl (fun s m => s.serveTwin m) s

/-- Epoch e + 1 begins (R324, R326, R344, R351, R371, R391, R401). `old` is the state under the tables of the epoch before (R128), whose
roots are forgotten with it. -/
def State.beginEpoch (s old : State) (q : EpochReq) : State :=
  let s := s.fab.colls.foldl (fun s r => s.dropKept (old.collCfg r.coll) r) s
  let s := { (s.newMembers q.refs).abandonLoad.renumber with epoch := { s.epoch with cur := q.epoch, req := none } }
  let s := s.addEntry ⟨6, 0, leBytes 4 q.epoch.toNat ++ (s.job.programHash.take 8) ++ leBytes 4 q.refs.excl.length⟩
  let s := s.epochSettings q.refs
  let s := { s with blame := [], blamed := [],
                    fab := { s.fab with silent := [], roots := [], coords := [],
                                        flows := s.fab.flows.map (fun (e : Nat × FlowSt) => (e.1, { e.2 with refused := false })) } }
  s.takePacks.keepHallmark.newHallmark.sendHellos

/-! ### Orders 7 to 10 -/

/-- HBM and bulk changes at order 7: channels replaced, thermal stages taken (R281 to R286). -/
def State.memoryStep (s : State) : State :=
  let s := s.replaceChans
  (List.range 12).foldl (fun s k => s.setStk k { s.stk k with stage := (s.stk k).want }) s

/-- Order 9: slot patterns latched, streams at their next stroke, counts of the stroke cleared (R69, R71). -/
def Core.nextStroke (c : Core) : Core :=
  let go := fun (x : StreamSt) => if x.phase = .ended then { x with phase := .run } else x
  { c with slots := c.nextSlots.getD c.slots, nextSlots := none, commits := 0, f := go c.f, b := go c.b, u := go c.u }

/-- Each calendar begins the segment of the new stroke (R63, R266); one that lags goes on with what it has not run (R270). -/
def State.restartCals (s : State) : State :=
  let n := s.stroke.jobStroke
  (List.range 396).foldl (fun s ch =>
    let x : PcSt := { s.pc ch with lagTold := false }
    s.setPc ch (if 0 < x.lag then x else { x with stroke := n, entry := s.segFirst ch n.toNat, used := 0, ran := 0 })) s

def State.orderNine (s : State) : State :=
  let s := s.placed.foldl (fun s q => s.setCore q.2 (s.core q.2).nextStroke) s
  let s := if s.live then s.restartCals else s
  { s with stroke := { s.stroke with n := s.rfield Reg.stkStrokeCfg 0 5, ordinals := [], told := [], stretched := false } }

/-- Order 10: energy, the ledger record of a step that has closed, the producer index (R64, R345, R406). -/
def State.orderTen (s : State) (b : BoundaryObs) : State :=
  let s := s.energyStep
  let s := if s.stroke.closes then
      let e := BitVec.ofNat 64 (s.pwr.stepPj / 1000000)
      let s := { s with stp := { s.stp with pendingRec := s.stp.pendingRec.map (fun (r : LedgerRec) => { r with energy := e }) },
                        pwr := { s.pwr with stepPj := 0 } }
      s.setPair Reg.pwrStepELo 0
    else s
  s.writePending.askEntries b.prodIdx

/-- The measurement values as of now (R455). -/
def State.takeMeas (s : State) : State :=
  { s with mgmt := { s.mgmt with meas :=
    ⟨s.mgmt.fwImage, s.mgmt.fwVersion, s.mgmt.fwSvn, s.fuses.minSvn, s.brn.packs.image, s.readNow .mss Reg.stkPart, s.brn.fences, s.brn.repairs,
      s.manifest (if s.job.programHash.isEmpty then 0 else s.job.image.ldtBuilt) s.job.programHash, s.fab.hallmark,
      s.rget Reg.brnRepl, s.readNow .mss Reg.mssState⟩ } }

/-- Orders 7 to 10, and the end of the boundary. -/
def State.ordersToTen (s : State) (b : BoundaryObs) : State :=
  let s := if s.stroke.closes then s.takeSettings else s
  let s := s.cutAssay.leaveDrain
  let s := s.roleStep s.stroke.closes
  let s := (if s.placed = s.stroke.taps.places then s else s.takeTaps).memoryStep.replCheck
  let s := (s.powerStep b.durNs b.stretchNs b.releases).orderNine.orderTen b
  ({ s with stroke := { s.stroke with hold := .no, obs := none, closing := none, closes := false } }).takeMeas

/-! ### Order 6 -/

/-- The hold of a restore ends. -/
def State.endRestore (s : State) : State :=
  match s.stroke.obs with
  | some b => ({ s with stroke := { s.stroke with hold := .no }
                        epoch := { s.epoch with restoring := none, awaiting := [], released := false } }).ordersToTen b
  | none => s

/-- The flow that carries a word of the restore to a member. -/
def State.restoreFlowTo (s : State) (m : Nat) : Option Nat := (s.flowTo m 3).orElse (fun _ => s.flowTo m 0)

/-- A word of the restore to a member: an empty granule whose TREE names it. -/
def State.tellRestore (s : State) (m : Nat) (tree : Word) : State :=
  match s.restoreFlowTo m with
  | none => s
  | some f => s.sendMsg f 0 0 0 s.epoch.cur tree s.stroke.step false 0 (List.replicate 64 0)

/-- The hold of a restore goes on until every restoring member has reported (R352): the coordinator sees to it, and tells the others. -/
def State.restoreGoes (s : State) : State :=
  if s.stroke.hold != .restore then s
  else if s.epoch.released then s.endRestore
  else if s.member = s.job.params.coord ∧ s.epoch.awaiting = [] then
    ((s.members.filter (· != s.member)).foldl (fun s m => s.tellRestore m restoreEnd) s).endRestore
  else s

/-- The boundary goes on once an epoch has begun: a restore holds it further. The packets that came early are taken now. -/
def State.afterEpoch (s : State) (q : EpochReq) (b : BoundaryObs) : State :=
  let s := s.bumpPair Reg.igsEpochWaitLo b.epochWait
  if q.restore then
    (({ s with stroke := { s.stroke with hold := .restore, obs := some b } }).openRestore q.refs.twins).takeEarly.restoreGoes
  else s.takeEarly.ordersToTen b

/-- Order 6: an epoch that is due holds the boundary until the old one has drained. The request of a device that leaves RUN is
forgotten (DESIGN CHOICE, log entry 44). -/
def State.orderSix (s : State) (b : BoundaryObs) : State :=
  match s.epoch.req with
  | none => s.ordersToTen b
  | some _ =>
    if s.mgmt.dev = .run then { s with stroke := { s.stroke with hold := .epoch, obs := some b } }
    else ({ s with epoch := { s.epoch with req := none } }).ordersToTen b

/-- The old epoch has drained (R324). -/
def State.epochDrained (s : State) : State :=
  match s.stroke.hold, s.stroke.obs, s.epoch.req with
  | .epoch, some b, some q =>
    let s := { s with stroke := { s.stroke with hold := .no } }
    let (ok, t) := s.epochImage q.refs
    if ok then (t.beginEpoch s q).afterEpoch q b
    else
      let t := { t with epoch := { t.epoch with req := none } }
      ((t.epochFails q.epoch).takeDrain).ordersToTen b
  | _, _, _ => s

/-- The drain of the old epoch has passed its limit. -/
def State.epochStuck (s : State) : State :=
  match s.stroke.hold, s.stroke.obs, s.epoch.req with
  | .epoch, some b, some q =>
    let s := { s with stroke := { s.stroke with hold := .no }, epoch := { s.epoch with req := none } }
    (((s.bumpPair Reg.igsEpochWaitLo b.epochWait).epochFails q.epoch).takeDrain).ordersToTen b
  | _, _, _ => s

/-! #### Twin restore (R352) -/

/-- Writes the restored regions to copy 0, and sets their SEL to 0; `k` is 0 for what the twin has sent, 1 for the fallback twin. -/
def State.putRestored (s : State) (k : Nat) : State :=
  s.stateRgns.foldl (fun s r =>
    let bs := (tget [] s.epoch.restored (32 * k + r.idx)).take (256 * r.len)
    (s.poke r.bulk (256 * r.base) bs).rsetField (Reg.stkSregCtl r.idx) 2 1 0) s

/-- This member's restore is over, well or not: it reports to the coordinator and waits for the others. -/
def State.reportRestore (s : State) : State :=
  let s := { s with epoch := { s.epoch with restoring := none } }
  let c := s.job.params.coord
  if c = s.member then ({ s with epoch := { s.epoch with awaiting := s.epoch.awaiting.filter (· != s.member) } }).restoreGoes
  else s.tellRestore c restoreReport

/-- The data and the twin's digest are here. -/
def State.restoreDone (s : State) (digest : List Byte) : State :=
  match s.stroke.hold, s.epoch.restoring with
  | .restore, some (k, t1, t2) =>
    let s := s.putRestored k
    let d := s.stateDigest
    let twin := if k = 0 then t1 else t2
    if d = digest then
      let s := (s.raiseM 0x0317 (pgStk 3) 0 0 twin).addEntry ⟨9, 0, leBytes 4 s.member ++ leBytes 4 twin ++ d.take 8⟩
      ({ s with
        job := { s.job with params := { s.job.params with restore := false } }
        stp := { s.stp with lastDigest := d, lastStep := s.stroke.step - 1
                            firstStroke := if s.job.params.restore then s.stroke.jobStroke else s.stp.firstStroke } }).reportRestore
    else
      let s := s.raiseM 0x0316 (pgStk 3) 0 0 twin
      if k = 0 then { s with epoch := { s.epoch with restoring := some (1, t1, t2) } }
      else ({ s with epoch := { s.epoch with leftOut := true } }).reportRestore
  | _, _ => s

/-! ### Order 5 -/

/-- Order 5: commands, with the number of the boundary that applies them (R478); standby, DRAIN and the fence follow. -/
def State.orderFive (s : State) (b : BoundaryObs) : State :=
  let c := s.stroke.closing
  let s := ({ s with stroke := { s.stroke with closing := none } }).applyRing.enterStandby
  let s := ({ s with stroke := { s.stroke with closing := c } }).takeDrain
  let s := if s.mgmt.dev = .run then s.fenceStep else s
  s.orderSix b

/-! ### Order 4 (R333 to R336, R345, R347, R501) -/

/-- The boundary goes on after order 4. -/
def State.afterFour (s : State) : State :=
  match s.stroke.obs with
  | some b => ({ s with stroke := { s.stroke with hold := .no } }).orderFive b
  | none => s

def State.holdAt (s : State) (h : HoldAt) : State := { s with stroke := { s.stroke with hold := h } }

/-- Closes the step by a verdict; the cycles of the hold are counted. -/
def State.stepCloses (s : State) (v : JobVerdict) : State :=
  let s := s.bumpPair Reg.stkVoteWaitLo ((s.stroke.obs.map (·.hold)).getD 0)
  (s.closeStep v).afterFour

/-- The verdict: of the replay ring, of the coordinator, or this device's own as coordinator. -/
def State.orderFourC (s : State) : State :=
  if s.job.params.replay then
    match s.replayRec s.stroke.step with
    | some r => (s.compareReplay (verdictOfRec r)).stepCloses (verdictOfRec r)
    | none => s.holdAt .replay
  else match s.stp.verdict with
    | some v => s.stepCloses v
    | none =>
      if s.member = s.job.params.coord ∧ s.allVoted then
        let s := s.issueVerdict
        match s.stp.verdict with
        | some v => s.stepCloses v
        | none => s
      else s.holdAt .verdict

/-- The collectives of the step, then the local verdict and the vote. -/
def State.orderFourB (s : State) : State :=
  if s.collsOpen then s.holdAt .colls else s.formLocal.sendVote.orderFourC

/-- Room for the record of the step before. -/
def State.orderFourA (s : State) : State :=
  let s := s.writePending
  if s.stp.pendingRec.isSome then s.holdAt .ledger else s.orderFourB

/-- Order 4, where the stroke ends a step. -/
def State.orderFour (s : State) : State :=
  if s.live && !s.commitCores.isEmpty then ({ s with stroke := { s.stroke with closes := true } }).orderFourA
  else s.afterFour

/-- A held boundary goes on if what it waits for has come. -/
def State.resume (s : State) : State :=
  match s.stroke.hold with
  | .ledger => s.orderFourA
  | .colls => s.orderFourB
  | .verdict | .replay => s.orderFourC
  | .restore => s.restoreGoes
  | .no | .epoch => s

/-- The boundary (R61). -/
def State.boundary (s : State) (b : BoundaryObs) : State :=
  let s := { s with stroke := { s.stroke with closing := some s.stroke.jobStroke, obs := some b, closes := false } }
  let (newly, s) := (s.orderOne b).orderTwo
  let s := s.orderThree
  let s := newly.foldl (fun s o => s.reply o.cmd 1 o.status o.result) s
  let s := { s with stroke := { s.stroke with hung := false } }
  s.orderFour

end Sys2Proof.Machine
end

