-- ==== Sys2Proof/Machine/Burnish.lean ====
section
/-!
DEFINITION. The commands of burnish (R390 to R395, R432): tests and their ends, the schedule's times, rotations, pack images.
-/

namespace Sys2Proof.Machine

open Sys2Proof

/-- BOOT's test of every working core has ended: stages 5 to 7, the hallmark, READY with 0x0807 (R432). -/
def State.bootTested (s : State) : State :=
  if s.mgmt.dev == .boot && s.mgmt.bootStage == 5 && s.brn.tests.all (fun t => !t.boot || t.outcome.isSome) then
    let s := s.takeTests
    let s := ({ s with mgmt := { s.mgmt with bootStage := 6 } }).newHallmark
    let s := { s with mgmt := { s.mgmt with bootStage := 7, dev := .ready } }
    (s.replCheck.raiseM 0x0807 pgMss 0 0 (s.mgmt.elapsed.toNat / 1000000)).takeMeas
  else s

/-- BURNISH_TEST_COMPLETE (R390, R392, R393): the packs of the test on core `p` have run. -/
def execBurnishTestComplete (p : Fin 144) (runs : List PackRun) (s : State) : Host.Outcome State Fault Refusal :=
  .next (s.finishTest p.val runs).bootTested

/-- BURNISH_DUE (R392). A core fused off, fenced, under test or already due stays as it is. -/
def execBurnishDue (p : Fin 144) (s : State) : Host.Outcome State Fault Refusal :=
  .next (
    let r := (s.roleOf p.val).role
    if (r == .active || r == .spare) && !s.brn.due.contains p.val && !s.brn.tests.any (fun t => t.core == p.val) then
      { s with brn := { s.brn with due := s.brn.due ++ [p.val] } }
    else s)

/-- DEFER_MAX_EXPIRY (R394): a deferred test is overdue, and runs under PAUSE. -/
def execDeferMaxExpiry (p : Fin 144) (s : State) : Host.Outcome State Fault Refusal :=
  .next (if s.brn.deferred.contains p.val && !s.brn.overdue.contains p.val then
    ({ s with brn := { s.brn with overdue := s.brn.overdue ++ [p.val] } }).raiseM 0x0623 pgBrn p.val 0 p.val
  else s)

/-- PAUSE_SLICE_END (R394): the core resumes. -/
def execPauseSliceEnd (p : Fin 144) (s : State) : Host.Outcome State Fault Refusal :=
  .next { s with brn := { s.brn with paused := s.brn.paused.filter (· != p.val) } }

/-- ROTATION_COPY_COMPLETE (R393): the spare takes the position at the next boundary. -/
def execRotationCopyComplete (f : Fin 4) (s : State) : Host.Outcome State Fault Refusal :=
  .next { s with brn := { s.brn with
    rotations := s.brn.rotations.map (fun (r : Rotation) => if r.field = f.val then { r with copied := true } else r) } }

/-- PACK_IMAGE_INSTALL (R391): by the firmware that runs, from BOOT on (R428). -/
def execPackImageInstall (image : List Byte) (s : State) : Host.Outcome State Fault Refusal :=
  .next (match s.mgmt.dev with
  | .ready | .run | .drain | .quarantine => s.installPacks image
  | _ => s)

end Sys2Proof.Machine
end

