-- ==== Sys2Proof/Machine/Fabric.lean ====
section
/-!
DEFINITION. The commands of the fabric (R292 to R309, R327, R398 to R401, R413, R414): packets of the transport, link retry, the timers of
flows and peers, lanes and ports.
-/

namespace Sys2Proof.Machine

open Sys2Proof

/-- A frame whose packet has a type, or that a row takes for another reason; a boundary that waited for it goes on. -/
def State.frameOf (s : State) (fits : Bool) (r : Rx) : State := if fits then (s.onFrame r).resume else s

/-- A packet of an AGREE message of a kind, a later packet of one, or one of a kind that is refused (R300). -/
def agreeFits (r : Rx) (k : Nat) : Bool :=
  let q := blk r.pkt.payload 0 1
  r.pkt.typ == 5 && (r.pkt.ofs != 0 || q == k || q == 0 || decide (7 ≤ q))

/-! ### Packets -/

/-- A DATA packet that belongs to no load, or a packet of a type that is refused (R299). -/
def execIgsumDataPacket (r : Rx) (s : State) : Host.Outcome State Fault Refusal :=
  .next (s.frameOf ((r.pkt.typ == 0 && (s.loadOfPkt r.pkt).isNone) || decide (10 ≤ r.pkt.typ)) r)

/-- ACK (R306, R308). -/
def execAck (r : Rx) (s : State) : Host.Outcome State Fault Refusal := .next (s.frameOf (r.pkt.typ == 3) r)

/-- NACK (R306, R315). -/
def execNack (r : Rx) (s : State) : Host.Outcome State Fault Refusal := .next (s.frameOf (r.pkt.typ == 4) r)

/-- HELLO (R321). -/
def execHello (r : Rx) (s : State) : Host.Outcome State Fault Refusal := .next (s.frameOf (r.pkt.typ == 6) r)

/-- HEARTBEAT (R327). -/
def execHeartbeat (r : Rx) (s : State) : Host.Outcome State Fault Refusal := .next (s.frameOf (r.pkt.typ == 7) r)

/-- PACE (R413, R414). -/
def execPace (r : Rx) (s : State) : Host.Outcome State Fault Refusal := .next (s.frameOf (r.pkt.typ == 8) r)

/-- BLAME (R398, R401). -/
def execBlame (r : Rx) (s : State) : Host.Outcome State Fault Refusal := .next (s.frameOf (r.pkt.typ == 9) r)

/-! ### Link retry (R305) -/

/-- Bytes of a frame with its FCS. -/
def SentFrame.size (f : SentFrame) : Nat := f.hdr.length + (pktBytes f.pkt).length + 4
def replayBuffer : Nat := 256 * 1024

/-- Frame `n` of port `q`, while it lies in the port's replay buffer of 256 KiB: what has been sent behind it leaves it there. One that
does not has been acknowledged before its room was needed (DEDUCED, log entry 143). -/
def State.buffered (s : State) (q n : Nat) : Option SentFrame :=
  let mine := s.fab.sent.filter (fun f => f.port == q)
  match mine.find? (fun f => f.frame == n) with
  | none => none
  | some f =>
    let later := (List.range ((s.port q).txCount - n)).filterMap (fun k => mine.find? (fun g => g.frame == n + k))
    if (later.map (·.size)).sum ≤ replayBuffer then some f else none

/-- Frame `n` of port `q` is sent again: at most eight times in all, then it is dropped. -/
def State.relink (s : State) (q n : Nat) : State :=
  let x := s.port q
  let t := tget 0 x.tries n
  match s.buffered q n with
  | none => s
  | some f =>
    if !x.up || !x.llr || 7 < t then s
    else
      let s := s.setPort q { x with tries := tset 0 x.tries n (t + 1) }
      if t = 7 then s.bump (Reg.fabRetryDrop q) 1
      else { s.bumpPair (Reg.fabRetryLo q) 1 with fab := { s.fab with sent := s.fab.sent ++ [f] } }

/-- LINK_RETRY_REQUEST: the partner found a bad FCS. -/
def execLinkRetryRequest (q : Fin 64) (frame : Nat) (s : State) : Host.Outcome State Fault Refusal := .next (s.relink q.val frame)

/-- LINK_REPLAY_TIMEOUT: a frame has gone unacknowledged for 1 µs. -/
def execLinkReplayTimeout (q : Fin 64) (frame : Nat) (s : State) : Host.Outcome State Fault Refusal := .next (s.relink q.val frame)

/-! ### Timers of a flow (R306 to R308) -/

/-- RESEND_TIMEOUT: IGS_RTO has passed without an ACK of a packet. -/
def execResendTimeout (fl : Fin 4096) (seq : Word) (s : State) : Host.Outcome State Fault Refusal :=
  .next (match s.retainedAt fl.val seq with
  | none => s
  | some r => (s.resendOrFail fl.val r).resume)

/-- NACK_BACKOFF_EXPIRY: the packet goes again, and the resend does not count. -/
def execNackBackoffExpiry (fl : Fin 4096) (seq : Word) (s : State) : Host.Outcome State Fault Refusal :=
  .next (match s.retainedAt fl.val seq with
  | none => s
  | some r => if r.backoff then s.resend fl.val r false else s)

/-- ACK_TIMER: 2 µs after the first packet not yet acknowledged. -/
def execAckTimer (fl : Fin 4096) (s : State) : Host.Outcome State Fault Refusal :=
  .next (if 0 < (s.flow fl.val).sinceAck then s.sendAck fl.val else s)

/-- SEND_RATE_RISE: 10 µs without CE_ECHO. -/
def execSendRateRise (fl : Fin 4096) (s : State) : Host.Outcome State Fault Refusal :=
  .next (if (s.flow fl.val).rate.isSome then s.riseRate fl.val else s)

/-! ### Timers of peers (R327, R398, R401, R413, R414) -/

/-- HEARTBEAT_TIMER: a heartbeat on each context with HB. -/
def execHeartbeatTimer (s : State) : Host.Outcome State Fault Refusal :=
  .next ((s.validFlows.filter (fun f => (s.ctx f).hb)).foldl (fun s f => s.sendPlain f 7 flgLast 0 []) s)

/-- PEER_SILENT_TIMEOUT: a peer that no context has heard from for 8 ms; `ms` since it was last heard. -/
def execPeerSilentTimeout (m : Fin 8192) (ms : Nat) (s : State) : Host.Outcome State Fault Refusal :=
  .next (if decide (8 ≤ ms) && s.peers.contains m.val && !s.fab.silent.contains m.val then
    let s := { s with fab := { s.fab with silent := s.fab.silent ++ [m.val] } }
    (s.raisePeer 0x050C sevInfo m.val 0 ms).blameOnce m.val 1 ms
  else s)

/-- BLAME_TALLY_TIMER: 8 ms after a suspect's first record. -/
def execBlameTallyTimer (suspect : Fin 8192) (s : State) : Host.Outcome State Fault Refusal :=
  .next (match s.blame.find? (fun x => x.member == suspect.val) with
  | none => s
  | some x => s.raiseM 0x0641 (pgAsy 1) (x.member * 64) 0 x.reporters.length)

/-- PACE_RESEND: every 1,024 strokes while the value is above 0. -/
def execPaceResend (s : State) : Host.Outcome State Fault Refusal :=
  .next (if s.rbit Reg.pwrCtl 5 && decide (0 < s.paceValue) then s.sendPace else s)

/-- PACE_HOLD_EXPIRY: a notice has been held for 2,048 stroke periods. -/
def execPaceHoldExpiry (sender : Fin 8192) (s : State) : Host.Outcome State Fault Refusal :=
  .next { s with pwr := { s.pwr with paces := tset none s.pwr.paces sender.val none } }

/-! ### What the port hardware answers (R296) -/

/-- The device's own address, in the IP version in use. -/
def State.ownAddr (s : State) : AskAddr → Bool
  | .ip4 a => !s.rbit Reg.igsCfg 16 && a == s.rget Reg.igsIp4
  | .ip6 a => s.rbit Reg.igsCfg 16 &&
      a.toNat == (List.range 4).foldl (fun n i => n * 2 ^ 32 + (s.rget (Reg.igsIp6 i)).toNat) 0

/-- ARP_REQUEST: an ARP request or an IPv6 neighbour solicitation for the device's own address is answered. -/
def execArpRequest (q : Fin 64) (a : AskAddr) (s : State) : Host.Outcome State Fault Refusal :=
  .next (if (s.port q.val).up && s.ownAddr a then
    s.send (match a with | .ip4 _ => .arp q.val (s.macOf q.val) | .ip6 _ => .nd q.val (s.macOf q.val))
  else s)

/-- PFC_PAUSE_FRAME: it holds or frees a traffic class of a port, where PFC_EN allows it; only time changes (R308). -/
def execPfcPauseFrame (q : Fin 64) (tc : Fin 4) (pause : Bool) (s : State) : Host.Outcome State Fault Refusal :=
  .next (
    let x := s.port q.val
    if !x.up || !s.rbit (Reg.fabPortCfg q.val) (4 + tc.val) then s
    else
      let m := BitVec.ofNat 8 (2 ^ tc.val)
      s.setPort q.val { x with paused := if pause then x.paused ||| m else x.paused &&& ~~~m })

/-! ### Lanes and ports (R292 to R295, R430, R432) -/

/-- The port that uses a lane: its own two, or a spare lane in place of one of them. -/
def State.lanePort (s : State) (lane : Nat) : Option Nat :=
  if lane < 128 then
    let q := lane / 2
    if (s.port q).spare = some (lane % 2) then none else some q
  else ((List.range 16).map (fun k => 16 * (lane - 128) + k)).find? (fun q => (s.port q).spare.isSome)

/-- Packets sent on a port and not acknowledged go again on the ports that are up, uncounted (R294, R306). -/
def State.resendPort (s : State) (q : Nat) : State :=
  s.validFlows.foldl (fun s f =>
    ((s.flow f).retained.filter (fun r => r.port == q)).foldl (fun s r => s.resend f r false) s) s

/-- A lane fails: its port goes down with 0x0501, and takes the field's spare lane if that is free. -/
def State.failLane (s : State) (lane : Nat) : State :=
  match s.lanePort lane with
  | none => s
  | some q =>
    let x := s.port q
    if !x.up && !x.retraining then s
    else
      let f := q / 16
      let take := decide (lane < 128) && x.spare.isNone && !tget false s.fab.spareUsed f
      let s := s.setPort q { x with up := false, retraining := take, spare := if take then some (lane % 2) else x.spare }
      let s := if take then { s with fab := { s.fab with spareUsed := tset false s.fab.spareUsed f true } } else s
      let s := (s.setDegraded.raiseM 0x0501 (pgFab q) q 0 lane).resendPort q
      s.replCheck

/-- LANE_FAILURE: a lane loses lock. -/
def execLaneFailure (lane : Fin 132) (s : State) : Host.Outcome State Fault Refusal := .next (s.failLane lane.val)

/-- LANE_FEC_CHECK: the codewords that a lane's FEC corrected and could not correct in one second; above FAB_LANE_THRESH it fails. -/
def execLaneFecCheck (lane : Fin 132) (uncorr corr : Nat) (s : State) : Host.Outcome State Fault Refusal :=
  .next (match s.lanePort lane.val with
  | none => s
  | some q =>
    let s := (s.bumpPair (Reg.fabFecCorrLo q) corr).bump (Reg.fabFecUncorr q) uncorr
    if s.rfield (Reg.fabLaneThresh q) 0 16 < uncorr then s.failLane lane.val else s)

/-- LANE_RETRAIN_DONE: the port is up on the spare lane, with 0x0502. -/
def execLaneRetrainDone (q : Fin 64) (s : State) : Host.Outcome State Fault Refusal :=
  .next (
    let x := s.port q.val
    if x.retraining then
      (s.setPort q.val { x with up := true, retraining := false }).raiseM 0x0502 (pgFab q.val) q.val 0 (128 + q.val / 16)
    else s)

/-- Stage 4 of BOOT is over once every enabled port is up or has failed; every working core is tested next (R432). -/
def State.bootPorts (s : State) : State :=
  if s.mgmt.dev == .boot && s.mgmt.bootStage == 4 && (List.range 64).all (fun q =>
      !s.rbit (Reg.fabPortCfg q) 0 || (s.port q).up || s.rbit (pgFab q + oEvt) 0) then
    let cores := (List.range 144).filter (fun p => (s.roleOf p).role == .spare)
    cores.foldl (fun s p => s.startTest p .full none none true) { s with mgmt := { s.mgmt with bootStage := 5 } }
  else s

/-- PORT_LINK_UP: the end of a full-rate link-up of an enabled port: in BOOT, on a wake, or once the loader has enabled it. A port that
fails stays down with 0x0501; which of its lanes failed is a free value (log entry 5). -/
def execPortLinkUp (q : Fin 64) (ok llr : Bool) (s : State) : Host.Outcome State Fault Refusal :=
  .next (
    let x := s.port q.val
    let running := match s.mgmt.dev with
      | .boot => decide (4 ≤ s.mgmt.bootStage)
      | .off | .recovery => false
      | .standby => s.ring.wake
      | _ => true
    if !running || !s.rbit (Reg.fabPortCfg q.val) 0 || (x.up && !x.keepalive) || x.retraining then s
    else if ok then
      (s.setPort q.val { x with up := true, keepalive := false, llr := llr && s.rbit (Reg.fabPortCfg q.val) 3 }).bootPorts
    else
      let s := (s.setPort q.val { x with up := false, keepalive := false }).setDegraded
      let (f, s) := s.draw
      ((s.raiseM 0x0501 (pgFab q.val) q.val 0 (f.toNat % 2 ^ 32)).bootPorts).replCheck)

end Sys2Proof.Machine
end

