-- ==== Sys2Proof/Machine/Memory.lean ====
section
/-!
DEFINITION. The commands of HBM3E and the bulk tier (R258 to R291): calendar slots and deliveries, refresh and scrub, the narrow path, lost
channels, temperature, training.
-/

namespace Sys2Proof.Machine

open Sys2Proof

/-! ### Calendar slots (R265 to R270, R288) -/

/-- Data slots of a pseudo-channel in a stroke of 2^n cycles: 27 of each frame of 32 slots of 3 cycles (R265). -/
def hbmSlots (n : Nat) : Nat :=
  let k := 2 ^ n / 3
  k / 32 * 27 + ((List.range (k % 32)).filter (fun i => i % 8 != 7 && i != 3)).length

/-- Data slots of a bulk channel: 15 of every 16 slots (R288). -/
def bulkSlots (n cyc : Nat) : Nat :=
  let k := 2 ^ n / max 1 cyc
  k - k / 16

/-- Cycles of a bulk slot. -/
def State.slotCyc (s : State) (ch : Nat) : Nat := if ch < 384 then 3 else s.rfield Reg.blkStat 16 3

def State.slotsOf (s : State) (ch : Nat) : Nat := if ch < 384 then hbmSlots s.stroke.n else bulkSlots s.stroke.n (s.slotCyc ch)

/-- A calendar whose segment is over begins the next one, if its stroke has opened; none where it has nothing to run. -/
def State.calAt (s : State) (ch : Nat) : Option PcSt :=
  let x := s.pc ch
  if x.ran < s.slotsOf ch then some x
  else if x.stroke.toNat < s.stroke.jobStroke.toNat then
    let n := x.stroke + 1
    some { x with stroke := n, entry := s.segFirst ch n.toNat, used := 0, ran := 0 }
  else none

/-- The run entry at a calendar's place (R266): kind, ticket, position, count. -/
def State.calEntry (s : State) (ch : Nat) (x : PcSt) : Nat × Nat × Nat × Nat :=
  let w := wOf (leNat (bytesAt s.mem.cal (65536 * ch + 4 * x.entry) 4))
  (fieldNat w 0 2, fieldNat w 2 10, fieldNat w 12 7, fieldNat w 19 13)

/-- The calendar has run one slot of an entry of `count` slots. -/
def PcSt.advance (x : PcSt) (count : Nat) : PcSt :=
  let y := { x with ran := x.ran + 1, used := x.used + 1 }
  if count ≤ y.used then { y with entry := y.entry + 1, used := 0 } else y

/-- The logical channel that the calendar of a position serves (R266). -/
def State.chanAt (s : State) (ch : Nat) : Option Nat :=
  (List.range s.mem.nLc).find? (fun l => (s.chan l).home == ch)

/-- A slot is held for some cycles: the calendar falls behind by them; beyond a stroke period 0x0407 says so once in the stroke (R270). -/
def State.holdSlot (s : State) (ch v : Nat) (cls : StallClass) (held : Nat) : State :=
  let x := s.pc ch
  let lag := x.lag + held
  let over_ := decide (2 ^ s.stroke.n < lag) && !x.lagTold && decide (ch < 384)
  let s := s.setPc ch { x with lag := lag, lagTold := x.lagTold || over_ }
  let s := if ch < 384 then s.bumpPair Reg.hbmLagCycLo held else s
  let s := match s.holder v with
    | none => s
    | some p =>
      let lo := if cls == .read then Reg.coreCvReadLo p else Reg.coreCvQueueLo p
      (s.bumpPair lo held).bump (Reg.coreCvStep p) held
  if over_ then
    let phys := match s.chanAt ch with | none => ch | some l => (s.chan l).phys
    s.raiseM 0x0407 (pgHbm 0) (phys * 1024) 0 (min (2 ^ 32 - 1) lag)
  else s

/-- What a data slot moves: the place of its codeword or stripe in the ticket's run, its address, its channel and the offset there. -/
structure SlotUnit where
  place : Nat
  addr : Nat
  chan : Nat
  off : Nat
deriving DecidableEq, Repr

/-- The next unit of a ticket on a calendar's channel: none where the run has none left there. -/
def State.slotUnit (s : State) (ch v t : Nat) (d : TicketDef) : Option SlotUnit :=
  let cs := s.bulkChans
  let n := max 1 (if d.bulk then cs.length else s.mem.nLc)
  let unit := if d.bulk then 256 else 64
  let l := if d.bulk then (cs.zipIdx.find? (fun e => e.1 == ch - 384)).map (·.2) else s.chanAt ch
  match l with
  | none => none
  | some l =>
    match (runOn n l unit d.addr d.units 0)[s.movedOn v t ch]? with
    | none => none
    | some i =>
      let a := s.xlate d.bulk d.write (d.addr + unit * i)
      let (k, off) := locate n a
      some ⟨i, a, if d.bulk then cs.getD k 0 else k, off⟩

/-- A read slot: the data sets out for its core. -/
def State.readSlot (s : State) (ch v t : Nat) (d : TicketDef) (u : SlotUnit) (err : ReadErr) : State :=
  let (bytes, s) := if d.bulk then
      let (bs, s) := s.stripeRead u.chan u.off u.addr err
      (bs.take (64 * d.unitLen u.place), s)
    else
      let (bs, _, s) := s.cwRead u.chan u.off u.addr err ⟨v, t⟩
      (bs, s)
  let s := { s with mem := { s.mem with deliveries := s.mem.deliveries ++ [(⟨ch, d.bulk, v, t, u.place, bytes⟩ : Delivery)] } }
  s.setMoved v t ch (s.movedOn v t ch + 1)

/-- The bytes of a write slot, read from core memory under the arm: none where a granule is not valid. -/
def State.slotBytes (s : State) (v p : Nat) (k : Ticket) (d : TicketDef) (u : SlotUnit) : Option (List Byte × State) :=
  let n := 64 * d.unitLen u.place
  if !k.ok then some (List.replicate n 0, s)
  else
    let off := refOff k.buf + (if d.bulk then 256 else 64) * u.place
    (readGranules (s.ctxOf v p) k.st (granules off n) (s.core p)).map (fun q =>
      let bs := maskStale off (q.2.map (·.1)) (bytesAt q.1.cm off n)
      (bs, q.2.foldl (fun s e => match staleFx k.st e s.stroke.jobStroke with
        | .ev code id w det caps => s.coreRaise p v code id w det caps
        | _ => s) (s.setCore p q.1)))

/-- Writes a unit to its memory. -/
def State.writeUnit (s : State) (d : TicketDef) (u : SlotUnit) (run : Nat) (bs : List Byte) : State :=
  let s := s.noteWrote d.bulk run
  if d.bulk then (List.range (d.unitLen u.place)).foldl (fun s w =>
    s.blkWrite u.chan (u.off + 64 * w) (u.addr + 64 * w) ((bs.drop (64 * w)).take 64)) s
  else s.cwWrite u.chan u.off u.addr bs false

/-- CALENDAR_DATA_SLOT (R265 to R270, R288): the calendar of a position runs its next data slot, or is held at it for the cycles that `obs` tells. -/
def execCalendarDataSlot (ch : Fin 396) (obs : SlotObs) (s : State) : Host.Outcome State Fault Refusal :=
  .next (
    let ch := ch.val
    if !s.live || s.stroke.hold != .no then s
    else match s.calAt ch with
    | none => s
    | some x =>
      let (kind, t, v, count) := s.calEntry ch x
      let s := s.setPc ch x
      let next := fun (s : State) => s.setPc ch ((s.pc ch).advance count)
      let idle := next (s.setPc ch { x with lag := x.lag - s.slotCyc ch })
      match s.holder v, s.ticketDef v t with
      | some p, some d =>
        if kind ≠ 1 ∧ kind ≠ 2 ∨ d.write ≠ (kind == 2) ∨ d.bulk ≠ decide (384 ≤ ch) then idle
        else match s.slotUnit ch v t d, tget none (s.core p).tickets t with
        | none, _ => s.holdSlot ch v .queue obs.held
        | some u, none =>
          if kind = 1 ∧ (s.core p).landing.length < 512 then next (s.readSlot ch v t d u obs.err) else s.holdSlot ch v .queue obs.held
        | some u, some k =>
          if kind = 1 then next (s.readSlot ch v t d u obs.err)
          else match s.slotBytes v p k d u with
            | none => s.holdSlot ch v .read obs.held
            | some (bs, s) =>
              let s := s.writeUnit d u (d.addr + (if d.bulk then 256 else 64) * u.place) bs
              (next (s.setMoved v t ch (s.movedOn v t ch + 1))).endRun v t
      | _, _ => idle)

/-! ### Deliveries (R202, R268) -/

/-- The granules of a delivery: places in the ticket's buffer and bytes. -/
def Delivery.grains (d : Delivery) : List (Nat × List Byte) :=
  if d.bulk then (List.range (d.bytes.length / 64)).map (fun w => (4 * d.grain + w, (d.bytes.drop (64 * w)).take 64))
  else [(d.grain, d.bytes)]

/-- Lands granules under an arm, all of them or none. -/
def State.landGrains (v p : Nat) (k : Ticket) : List (Nat × List Byte) → State → Option State
  | [], s => some s
  | g :: gs, s => (s.landGrain v p k g.1 g.2).bind (State.landGrains v p k gs)

/-- CALENDAR_READ_DELIVERY: delivery `k` reaches its core: under its arm, or into the landing buffer while that has room. Deliveries of one
channel come in their order. `h` tells for how long its write was held on unread data (R249, R254). -/
def execCalendarReadDelivery (k : Nat) (h : HoldObs) (s : State) : Host.Outcome State Fault Refusal :=
  .next (match s.mem.deliveries[k]? with
  | none => s
  | some d =>
    if (s.mem.deliveries.take k).any (fun e => e.pc == d.pc) then s
    else
      let off := { s with mem := { s.mem with deliveries := s.mem.deliveries.eraseIdx k } }
      match s.holder d.core with
      | none => off
      | some p =>
        let off := match h.upset with
          | some (.dataPath site granule) => off.onDataPath p d.core site.toNat granule.toNat
          | _ => off
        match tget none (s.core p).tickets d.ticket with
        | some a => match State.landGrains d.core p a d.grains off with
          | none => s
          | some t => (t.landHeld d.core h.cycles).endRun d.core d.ticket
        | none =>
          let c := off.core p
          if 512 < c.landing.length + d.grains.length then s
          else off.setCore p { c with landing := c.landing ++ d.grains.map (fun g => (d.ticket, g.1, g.2)) })

/-! ### Refresh, scrub and migration (R272, R273, R281) -/

/-- The address of an offset in a logical channel: the inverse of `hbm_locate`. -/
def unlocate (n l off : Nat) : Nat :=
  let j := off / 256
  (j * n + (l + n - 97 * j % n) % n) * 256 + off % 256

/-- The controllers of a physical pseudo-channel run. -/
def State.pcRuns (s : State) (p : Nat) : Bool :=
  s.clockRuns && (s.stk (p / 32)).trained && !(s.stk (p / 32)).out && !(s.pc p).lost

/-- Codewords of a general bank, and the codeword at place `x` of them in ascending order (R263, R273). -/
def bankCws (nb bank : Nat) : Nat := 4 * ((generalStripes nb - bank + (63 - nb)) / (64 - nb))
def bankCw (nb bank x : Nat) : Nat := 4 * (bank + (64 - nb) * (x / 4)) + x % 4

/-- A codeword of channel `l` is read by scrub or for a migration; what the read corrects is written back as it was (R273). -/
def State.scrubRead (s : State) (l k : Nat) (err : ReadErr) : State :=
  (s.cwRead l (64 * k) (unlocate (max 1 s.mem.nLc) l (64 * k)) err noReader).2.2

/-- REFRESH_RESERVE_SLOT: slot `k` of frame `f`, and so slot 4 f + k of a stroke, on a pseudo-channel. At stage 0 the slots at positions 7 and 23 scrub the next codeword of
the bank the slot is assigned, or copy the next codeword for a migration; elsewhere only a refresh is issued, which no state shows. -/
def execRefreshReserveSlot (p : Fin 384) (f : Nat) (k : Fin 4) (err : ReadErr) (s : State) : Host.Outcome State Fault Refusal :=
  .next (match s.chanOf p.val with
  | none => s
  | some l =>
    let nb := s.narrowBanks
    let bank := (4 * f + k.val) % (64 - nb)
    let c := s.chan l
    if !s.pcRuns p.val || (s.stk (p.val / 32)).stage != 0 || k.val % 2 != 0 then s
    else if c.migrating.isSome then
      if 4 * pcStripes ≤ c.copied then s else (s.setChan l { c with copied := c.copied + 1 }).scrubRead l c.copied err
    else
      let pc := s.pc p.val
      let x := tget 0 pc.scrub bank % bankCws nb bank
      (s.setPc p.val { pc with scrub := tset 0 pc.scrub bank ((x + 1) % bankCws nb bank) }).scrubRead l (bankCw nb bank x) err)

/-- MIGRATION_COMPLETE (R281): every codeword has been copied; the map switches at the next boundary. -/
def execMigrationComplete (l : Fin 384) (s : State) : Host.Outcome State Fault Refusal :=
  .next (
    let c := s.chan l.val
    if c.backed && c.migrating.isSome && decide (4 * pcStripes ≤ c.copied) && (s.stk (c.phys / 32)).stage == 0 then
      s.setChan l.val { c with migrated := true }
    else s)

/-! ### The narrow path (R277 to R280) -/

/-- Grain `k` of a request: the row's place in the list, the grain in the row. -/
def NarrowReq.grain (r : NarrowReq) (d : NarrowDef) (k : Nat) : Option Nat :=
  (r.idx[k / d.grains]?).map (fun i => d.base + 32 * (i.toNat * d.grains + k % d.grains))

/-- An index not below the row count raises 0x0910; its row reads as zeros, or is skipped (R203). -/
def State.badRows (s : State) (v : Nat) (r : NarrowReq) (d : NarrowDef) : NarrowReq × State :=
  r.idx.zipIdx.foldl (fun (acc : NarrowReq × State) e =>
    if d.rows ≤ e.1.toNat ∧ !acc.1.got.any (fun g => g.1 == e.2 * d.grains) then
      ({ acc.1 with got := acc.1.got ++ (List.range d.grains).map (fun g => (e.2 * d.grains + g, List.replicate 32 (0 : Byte))) },
        acc.2.addrEvent v r.st (if r.scatter then 0x63 else 0x62) e.1.toNat)
    else acc) (r, s)

/-- Serves one grain: reads it, or merges it into its codeword. Answers its bytes. -/
def State.serveGrain (s : State) (r : NarrowReq) (k a : Nat) (err : ReadErr) : List Byte × State :=
  let b := s.xlate false r.scatter a
  let (l, off) := locate (max 1 s.mem.nLc) b
  let (bs, out, s) := s.cwRead l off b err noReader
  let w := off % 64
  if r.scatter then
    let new := bs.take w ++ (r.data.drop (32 * k)).take 32 ++ bs.drop (w + 32)
    ([], (s.noteWrote false a).cwWrite l (off - w) b new out.fails)
  else ((bs.drop w).take 32, s)

/-- Every grain has been served: the rows go to core memory, and CTR_D rises. -/
def State.endNarrow (s : State) (v p : Nat) (r : NarrowReq) (n : Nat) : State :=
  let c := s.core p
  let s := s.setCore p { c with narrow := c.narrow.erase r }
  let bytes := (List.range n).flatMap (fun k => match r.got.find? (fun g => g.1 == k) with | some g => g.2 | none => [])
  let done := match r.ctr with | none => [] | some k => [Item.done v k]
  s.flight v v 1 r.st (if r.scatter then 0x63 else 0x62) ((if r.scatter || !r.refOk then [] else itemsOf (refOff r.ref) bytes) ++ done)

/-- The index list or the source rows of a window's instruction are not complete: every pseudo-channel holds for as long (R270, R280;
log entry 97). -/
def State.holdAll (s : State) (v held : Nat) : State :=
  (List.range s.mem.nLc).foldl (fun s l => s.holdSlot (s.chan l).home v .queue held) s

/-- NARROW_SLOT: the narrow slot of frame `f` on a pseudo-channel, in a window that names core `v` and table `t`. Where the window's
instruction has no complete list, `x` tells for how many cycles the calendars wait for it. -/
def execNarrowSlot (p : Fin 384) (f : Nat) (v : Fin 128) (t : Fin 64) (x : SlotObs) (s : State) : Host.Outcome State Fault Refusal :=
  .next (
    let v := v.val
    match s.holder v, tget none s.mem.narrowDefs (64 * v + t.val), s.chanAt p.val with
    | some q, some d, some l =>
      match (s.core q).narrow.find? (fun r => r.table == t.val) with
      | none => if !s.live || s.stroke.hold != .no || decide (12 ≤ f % 16) then s else s.holdAll v x.held
      | some r =>
        if !s.live || s.stroke.hold != .no || decide (12 ≤ f % 16) || d.grains == 0 then s
        else
          let n := r.idx.length * d.grains
          let (r', s) := s.badRows v r d
          let mine := (List.range n).find? (fun k => !r'.got.any (fun g => g.1 == k) && (match r'.grain d k with
            | none => false
            | some a => (locate (max 1 s.mem.nLc) (s.xlate false r.scatter a)).1 == l))
          let (r', s) := match mine.bind (fun k => (r'.grain d k).map (fun a => (k, a))) with
            | none => (r', s)
            | some (k, a) =>
              let (bs, s) := s.serveGrain r' k a x.err
              ({ r' with got := r'.got ++ [(k, bs)] }, s)
          let c := s.core q
          let s := s.setCore q { c with narrow := c.narrow.map (fun y => if y = r then r' else y) }
          if n ≤ r'.got.length then s.endNarrow v q r' n else s
    | _, _, _ => s)

/-! ### Lost channels (R282, R283, R289) -/

/-- PSEUDO_CHANNEL_LOSS: a pseudo-channel stops responding. One that backs a channel is replaced at the next boundary; one that a
migration fills gives the migration up. -/
def execPseudoChannelLoss (p : Fin 384) (s : State) : Host.Outcome State Fault Refusal :=
  .next (
    let x := s.pc p.val
    if !s.pcRuns p.val || x.fail then s
    else match s.chanOf p.val with
    | some _ => s.setPc p.val { x with lost := true }
    | none =>
      let s := s.setPc p.val { x with fail := true }
      (List.range s.mem.nLc).foldl (fun s l =>
        let c := s.chan l
        if c.migrating = some p.val then s.setChan l { c with migrating := none, copied := 0, migrated := false } else s) s)

/-- The device enters DRAIN at the next boundary, if it runs a job (R51). -/
def State.stopJob (s : State) : State :=
  if s.mgmt.dev = .run ∨ s.mgmt.dev = .quarantine then { s with stroke := { s.stroke with drainNext := true } } else s

/-- BULK_CHANNEL_FAILURE (R289, R476). -/
def execBulkChannelFailure (ch : Fin 12) (s : State) : Host.Outcome State Fault Refusal :=
  .next (if !s.rbit Reg.blkStat ch.val then s
    else
      let s := s.rset Reg.blkStat (s.rget Reg.blkStat &&& ~~~(wOf (2 ^ ch.val)))
      let cap0 := ch.val + 2 * 16 + 2 ^ 31
      let s := s.setDegraded.raise { ev 0x040B pgBlk (s.objM (ch.val * 1024)) 0 cap0 with
        caps := [(0x28, cap0), (0x2C, 0), (0x30, jobLo s)] }
      s.stopJob.replCheck)

/-! ### Temperature (R284 to R286) -/

/-- The stage a reading asks for, from the stage it finds: entered at 85, 95 and 105 °C, left at 82 and 92 °C (R284). -/
def stageFor (stage temp : Nat) : Nat :=
  if 105 ≤ temp then 3
  else if 95 ≤ temp ∨ (2 ≤ stage ∧ 92 < temp) then 2
  else if 85 ≤ temp ∨ (1 ≤ stage ∧ 82 < temp) then 1
  else 0

/-- A stack leaves service: its contents are lost (R286). -/
def State.stackOut (s : State) (k : Nat) : State :=
  let s := s.setStk k { s.stk k with out := true, stage := 3, want := 3 }
  (List.range s.mem.nLc).foldl (fun s l =>
    let c := s.chan l
    if c.backed && c.phys / 32 == k then s.loseData l else s) s

/-- HBM_TEMPERATURE_READ: the controller reads the temperature of stack `k`. Stages 1 and 2 change at the next boundary, stage 3 at
once. A stack out of service returns only by RETRAIN. -/
def execHbmTemperatureRead (k : Fin 12) (temp : BitVec 8) (s : State) : Host.Outcome State Fault Refusal :=
  .next (
    let k := k.val
    let x := s.stk k
    if !x.trained && !x.out then s
    else
      let s := s.setStk k { x with temp := temp }
      if x.out then s
      else
        let to_ := stageFor x.want.toNat temp.toNat
        let tell := fun (s : State) (code : Nat) => s.raiseM code (pgHbm (k + 1)) (k * 1024) 0 temp.toNat
        if to_ = 3 then (tell (s.stackOut k) 0x0723).stopJob
        else
          let s := s.setStk k { s.stk k with want := BitVec.ofNat 2 to_ }
          if x.want.toNat < to_ then tell s (if to_ = 2 then 0x0722 else 0x0721) else s)

/-! ### Training (R264, R287, R290, R432) -/

/-- Channels in service after training: each non-reserve pseudo-channel, or the reserve that stands in for one that failed: the
pseudo-channel that backs it, and the position. -/
def trainChans (bad : List Nat) : List Nat → List Nat → List (Nat × Nat)
  | _, [] => []
  | free, p :: ps =>
    if !bad.contains p then (p, p) :: trainChans bad free ps
    else
      let own := reserves.getD (p / 96) 0
      match (if free.contains own then some own else free.head?) with
      | none => trainChans bad free ps
      | some r => (r, p) :: trainChans bad (free.filter (· != r)) ps

/-- The HBM is trained: N_LC, the map, 0x0409 for each pseudo-channel that failed. -/
def State.trainHbm (s : State) (bad : List Nat) : State :=
  let s := (List.range 12).foldl (fun s k => s.setStk k { s.stk k with trained := true }) s
  let s := bad.foldl (fun s p =>
    (s.setPc p { s.pc p with trainFail := true }).raiseM 0x0409 (pgHbm 0) (p * 1024) 0 (chanWord p 0 0)) s
  let cs := trainChans bad (reserves.filter (fun r => !bad.contains r)) ((List.range 384).filter (fun p => !reserves.contains p))
  let s := { s with mem := { s.mem with nLc := cs.length } }
  let s := cs.zipIdx.foldl (fun s e => s.setChan e.2 ⟨e.1.1, e.1.2, true, none, 0, false, none, []⟩) s
  if cs.length < 380 then s.setDegraded else s

/-- The bulk tier is trained: channels in service and cycles per slot; 0x040C for each that failed. -/
def State.trainBulk (s : State) (bad : List Nat) : State :=
  if s.rfield Reg.blkCfg 4 3 = 0 then s
  else
    let good := (List.range 12).filter (fun k => !bad.contains k)
    let s := s.rset Reg.blkStat (wOf ((good.map (fun k => 2 ^ k)).sum + 2 ^ 16 * (if s.rfield Reg.blkCfg 0 2 = 0 then 3 else 4)))
    bad.foldl (fun s k => s.setDegraded.raiseM 0x040C pgBlk (k * 1024) 0 (k + 2 ^ 31)) s

/-- The training of stacks under RETRAIN is over (R286, R290): they are in service again, at the stage their temperature asks for; a
pseudo-channel that failed is replaced from the reserve at the next boundary. -/
def State.retrained (s : State) (bad : List Nat) : State :=
  let ks := (List.range 12).filter (fun k => (s.stk k).retraining)
  let s := ks.foldl (fun s k =>
    let t := s.stk k
    let st : BitVec 2 := if 85 ≤ t.temp.toNat then 1 else 0
    s.setStk k { t with out := false, trained := true, retraining := false, stage := st, want := st }) s
  (bad.filter (fun p => ks.contains (p / 32))).foldl (fun s p =>
    (s.setPc p { s.pc p with trainFail := true, lost := (s.chanOf p).isSome }).raiseM 0x0409 (pgHbm 0) (p * 1024) 0 (chanWord p 0 0)) s

/-- Settings that a training has found are stored; with none, those stored have passed verification and are used again (R290). -/
def State.storeTraining (s : State) (found : List Byte) : State :=
  if found.isEmpty then s
  else { s with mgmt := { s.mgmt with nor := { s.mgmt.nor with training := found } } }

/-- MEMORY_TRAINING_COMPLETE: stage 3 of BOOT ends, and stage 4 begins (R290, R432); or stacks under RETRAIN return to service. -/
def execMemoryTrainingComplete (failed : TrainObs) (found : List Byte) (s : State) :
    Host.Outcome State Fault Refusal :=
  .next (
    let bad := (failed.pcs.map (·.val)).eraseDups
    if s.mgmt.dev == .boot then
      if s.mgmt.bootStage == 3 then
        let s := ((s.trainHbm bad).trainBulk ((failed.bulk.map (·.val)).eraseDups)).storeTraining found
        ({ s with mgmt := { s.mgmt with bootStage := 4 } }).replCheck.bootPorts
      else s
    else if (List.range 12).any (fun k => (s.stk k).retraining) then (s.storeTraining found).retrained bad
    else s)

end Sys2Proof.Machine
end

