-- ==== Sys2Proof/Machine/Power.lean ====
section
/-!
DEFINITION. The commands of power and temperature (R400, R405, R406, R416 to R423, R492): samples, faults, stretching, anneal, the junction.
-/

namespace Sys2Proof.Machine

open Sys2Proof

/-! ### Samples (R405, R406, R418, R423) -/

/-- POWER_SAMPLE: VDD_CORE over AVSBus, and the time to the next sample. Readings have returned where they were lost. -/
def execPowerSample (a : AvsObs) (s : State) : Host.Outcome State Fault Refusal :=
  .next (if s.mgmt.dev = .off then s
    else { s with pwr := { s.pwr with strokePj := s.pwr.strokePj + a.mv * a.ma * a.ns / 1000, telemetryLost := false } })

/-- A regulator fault or a power-good early warning (R400, R418): 0x0704, the last-gasp record, DRAIN. -/
def State.vrFault (s : State) (status : Nat) : State := ((s.raiseM 0x0704 pgPwr 0 0 status).lastGasp 16 status).stopJob

/-- Takes back the last-gasp records for reason 17 that have not left yet. -/
def State.recallGasp (s : State) : State :=
  let own := leBytes 2 s.member
  { s with fab := { s.fab with sent := s.fab.sent.filter (fun (x : SentFrame) =>
      !(x.pkt.typ == 9 && x.pkt.payload.take 6 == own ++ own ++ [0, 17])) } }

/-- The last-gasp record of PG_WARN_N (reason 16) or of the junction (17). Of the two within 2 µs one record is sent, with reason 16
(R493). -/
def State.gaspOnce (s : State) (reason detail : Nat) : State :=
  let near := match s.pwr.gasp with | none => false | some (_, t) => decide ((s.mgmt.elapsed - t).toNat < 2000)
  let old := (s.pwr.gasp.map (·.1)).getD 0
  if near && old == 16 && reason == 17 then s
  else
    let s := if near && old == 17 && reason == 16 then s.recallGasp else s
    ({ s with pwr := { s.pwr with gasp := some (reason, s.mgmt.elapsed) } }).lastGasp reason detail

/-- PMBUS_POLL: the power of the other rails in milliwatts, the time to the next poll, and STATUS_WORD, whose bits report faults. -/
def execPmbusPoll (mw ns : Nat) (status : Word) (s : State) : Host.Outcome State Fault Refusal :=
  .next (if s.mgmt.dev = .off then s
    else
      let s := { s with pwr := { s.pwr with strokePj := s.pwr.strokePj + mw * ns } }
      if status = 0 then s else s.vrFault status.toNat)

/-- AVSBUS_TELEMETRY_TIMEOUT: no reading for 1 ms (R423). -/
def execAvsbusTelemetryTimeout (s : State) : Host.Outcome State Fault Refusal :=
  .next (if s.pwr.telemetryLost || s.mgmt.dev == .off then s
    else
      let s := { s with pwr := { s.pwr with telemetryLost := true, strokeLost := true } }
      s.raise { ev 0x0705 pgPwr (s.objM 0) 0 0xFFFF with sev := sevDegrade })

/-! ### Stretching (R416, R420, R422) -/

/-- Clock edges are delayed from now on; an episode begins where none runs. -/
def State.stretchOn (s : State) : State :=
  if s.pwr.stretching then s else ({ s with pwr := { s.pwr with stretching := true } }).bump Reg.pwrStretchCnt 1

/-- The episode ends once nothing asks for it. -/
def State.stretchOff (s : State) : State :=
  let x := s.pwr.stretch
  if x.droop.isEmpty && !x.vrAlert && !x.slack && !x.tj then { s with pwr := { s.pwr with stretching := false } } else s

def State.setStretch (s : State) (x : StretchSrc) : State := { s with pwr := { s.pwr with stretch := x } }

/-- DROOP_DETECT: a droop detector of field `f` fires. -/
def execDroopDetect (f : Fin 4) (s : State) : Host.Outcome State Fault Refusal :=
  .next (if !s.clockRuns then s
    else
      let x := s.pwr.stretch
      (s.setStretch { x with droop := if x.droop.contains f.val then x.droop else x.droop ++ [f.val] }).stretchOn)

/-- VR_ALERT_N asserted while the clock runs: a stretch, and 0x0703 once in a stroke with the current in amperes. -/
def State.vrWarn (s : State) (amps : Nat) : State :=
  let s := s.stretchOn
  if s.pwr.vrTold then s else ({ s with pwr := { s.pwr with vrTold := true } }).raiseM 0x0703 pgPwr 0 0 amps

/-- VR_ALERT_N changes. Before the arithmetic clock starts it is only kept (R493). -/
def execVrAlertN (asserted : Bool) (amps : Nat) (s : State) : Host.Outcome State Fault Refusal :=
  .next (
    let s := s.setStretch { s.pwr.stretch with vrAlert := asserted }
    if asserted && s.clockRuns then s.vrWarn amps else s)

/-- STRETCH_RELEASE: every detector has been clear for 256 stretched cycles. VR_ALERT_N and the junction may still hold it. -/
def execStretchRelease (s : State) : Host.Outcome State Fault Refusal :=
  .next (s.setStretch { s.pwr.stretch with droop := [], slack := false }).stretchOff

/-- SLACK_CRITICAL (R420): a replica of field `f` falls below SLACK_CRIT. Of a step change under way it is the trim of the step stepped to
that is cleared, and the voltage already commanded stands (R424). -/
def execSlackCritical (f : Fin 4) (s : State) : Host.Outcome State Fault Refusal :=
  .next (if !s.clockRuns then s
    else
      let k := s.voltStep
      let rising := s.pwr.rising
      let s := (s.setStretch { s.pwr.stretch with slack := true }).stretchOn
      let s := { s with pwr := { s.pwr with trim := tset 0 s.pwr.trim k 0, trimHold := s.pwr.trimHold.filter (· != k) ++ [k] } }
      let s := if rising then s else s.commandVolt k
      s.raiseM 0x0706 pgPwr (f.val * 2 ^ 17) 0 k)

/-! ### Anneal (R420, R421) -/

/-- ANNEAL_WINDOW: a window of 10 s at one step ends; `code` is the least slack code in it. -/
def execAnnealWindow (code : BitVec 6) (s : State) : Host.Outcome State Fault Refusal :=
  .next (
    let k := s.pwr.k
    let t := s.trimOf k
    let on := match s.mgmt.dev with | .ready | .run | .drain => s.rbit Reg.pwrCtl 7 && !s.pwr.trimHold.contains k | _ => false
    let new := if s.rfield Reg.pwrAnneal 0 6 ≤ code.toNat then min 24 (t + 1)
      else if code.toNat < s.rfield Reg.pwrAnneal 8 6 then t - 1 else t
    if !on || new == t then s
    else
      let s := ({ s with pwr := { s.pwr with trim := tset 0 s.pwr.trim k new } }).commandVolt k
      if new = 24 ∧ !s.pwr.trimTold.contains k then
        ({ s with pwr := { s.pwr with trimTold := s.pwr.trimTold ++ [k] } }).raise
          { ev 0x0705 pgPwr (s.objM 0) 0 k with sev := sevInfo }
      else s)

/-- ANNEAL_HOLD_EXPIRY: 60 s have passed since the oldest slack event that still holds a trim. After the last one trims act again. -/
def execAnnealHoldExpiry (s : State) : Host.Outcome State Fault Refusal :=
  .next (
    let t := { s with pwr := { s.pwr with trimHold := s.pwr.trimHold.drop 1 } }
    if s.pwr.trimHold.length = 1 && s.clockRuns then t.retrim else t)

/-! ### The junction (R422, R492) -/

/-- JUNCTION_SENSOR_READ: the highest reading, and where it was taken. -/
def execJunctionSensorRead (tj : BitVec 8) (f : Fin 4) (sensor : Fin 16) (s : State) : Host.Outcome State Fault Refusal :=
  .next (
    if s.mgmt.dev = .off then s else
    let t := tj.toNat
    let low := f.val * 2 ^ 17
    let s := s.rset Reg.thmTj (wOf (t + 2 ^ 8 * f.val + 2 ^ 10 * sensor.val))
    let s := s.rset Reg.thmTjMax (wOf (max t (s.rfield Reg.thmTjMax 0 8)))
    let s := { s with pwr := { s.pwr with tj := t } }
    let s := if 105 ≤ t ∧ !s.pwr.stretch.tj then
        ((s.setStretch { s.pwr.stretch with tj := true }).stretchOn).raiseM 0x0711 pgThm low 0 t
      else if t < 102 ∧ s.pwr.stretch.tj then (s.setStretch { s.pwr.stretch with tj := false }).stretchOff
      else s
    if 110 ≤ t ∧ !s.pwr.tripped then
      let s := { s with pwr := { s.pwr with tripped := true }, mgmt := { s.mgmt with thermtripN := false } }
      (s.gaspOnce 17 t).raiseM 0x0712 pgThm low 0 t
    else s)

/-- THERMTRIP_TIMEOUT: VDD_CORE has not been removed within 10 ms of THERMTRIP_N; the clocks stay stopped (R492). -/
def execThermtripTimeout (s : State) : Host.Outcome State Fault Refusal :=
  .next (if s.pwr.tripped then { s with pwr := { s.pwr with clocksStopped := true } } else s)

/-- PG_WARN_N falls (R400, R418, R492): a power-good early warning. No STATUS_WORD comes with it: the detail is a free value (log
entry 5). -/
def execPgWarnN (s : State) : Host.Outcome State Fault Refusal :=
  .next (if s.mgmt.dev = .off then s
    else
      let (f, s) := s.draw
      let w := f.toNat % 2 ^ 32
      ((s.raiseM 0x0704 pgPwr 0 0 w).gaspOnce 16 w).stopJob)

end Sys2Proof.Machine
end

