-- ==== Sys2Proof/Machine/Ring.lean ====
section
/-!
DEFINITION. The commands of the command ring (R64 to R67, R82 to R84, R443 to R448, R451, R503): the fourteen entries, each applied on its
own, the arrival of a fetched one, and the ends of what they start.
-/

namespace Sys2Proof.Machine

open Sys2Proof

/-- JOB_START (R447). -/
def execJobStart (e : RingEntry) (s : State) : Host.Outcome State Fault Refusal := .next (s.applyNow 0x01 e)

/-- ABORT (R82 to R84): an aborted job enters DRAIN at once. -/
def execAbort (e : RingEntry) (s : State) : Host.Outcome State Fault Refusal :=
  .next (
    let t := s.applyNow 0x02 e
    if t.job.aborted && !s.job.aborted then t.takeDrain else t)

/-- SET_CAP (R410). -/
def execSetCap (e : RingEntry) (s : State) : Host.Outcome State Fault Refusal := .next (s.applyNow 0x03 e)

/-- SET_SETTING (R28, R444). -/
def execSetSetting (e : RingEntry) (s : State) : Host.Outcome State Fault Refusal := .next (s.applyNow 0x04 e)

/-- EPOCH (R324, R448). -/
def execEpoch (e : RingEntry) (s : State) : Host.Outcome State Fault Refusal := .next (s.applyNow 0x05 e)

/-- LOAD_WEIGHTS (R355). -/
def execLoadWeights (e : RingEntry) (s : State) : Host.Outcome State Fault Refusal := .next (s.applyNow 0x06 e)

/-- STAGE (R444). -/
def execStage (e : RingEntry) (s : State) : Host.Outcome State Fault Refusal := .next (s.applyNow 0x07 e)

/-- UNSEAL (R367). -/
def execUnseal (e : RingEntry) (s : State) : Host.Outcome State Fault Refusal := .next (s.applyNow 0x08 e)

/-- RETRAIN (R286). -/
def execRetrain (e : RingEntry) (s : State) : Host.Outcome State Fault Refusal := .next (s.applyNow 0x09 e)

/-- BURNISH_RUN (R444). -/
def execBurnishRun (e : RingEntry) (s : State) : Host.Outcome State Fault Refusal := .next (s.applyNow 0x0A e)

/-- STANDBY (R458). -/
def execStandby (e : RingEntry) (s : State) : Host.Outcome State Fault Refusal := .next (s.applyNow 0x0B e)

/-- FW_UPDATE (R451). -/
def execFwUpdate (e : RingEntry) (s : State) : Host.Outcome State Fault Refusal := .next (s.applyNow 0x0C e)

/-- SVN_ADVANCE (R451). -/
def execSvnAdvance (e : RingEntry) (s : State) : Host.Outcome State Fault Refusal := .next (s.applyNow 0x0D e)

/-- WALL_NOTE (R438). -/
def execWallNote (e : RingEntry) (s : State) : Host.Outcome State Fault Refusal := .next (s.applyNow 0x0E e)

/-- COMMAND_FETCH_ARRIVAL (R64 to R66): the entry waits for the boundary at which it is due; it is late where that boundary has passed. -/
def execCommandFetchArrival (e : RingEntry) (s : State) : Host.Outcome State Fault Refusal :=
  .next (if !s.mayFetch then s
    else
      let late := s.strokesCount && entAt e != 0 && decide (entAt e ≤ s.stroke.jobStroke.toNat)
      let s := { s with ring := { s.ring with entries := s.ring.entries ++ [(e, late)], asked := s.ring.asked - 1 } }
      s.rset Reg.pciRingCi (wOf (((s.rget Reg.pciRingCi).toNat + 1) % s.ringSize)))

/-- Moves the bytes of a transfer: `host` are those read from host memory. -/
def State.moveStage (s : State) (x : StageOp) (host : List Byte) : State :=
  let t := selTarget x.target
  let c := selCore x.target
  if x.toDevice then s.winWrite t c x.dev (host.take x.len) 
  else (s.winNote t x.dev x.len).send (.hostWrite x.host (s.winRead t c x.dev x.len))

/-- STAGE_COMPLETE (R444, R445): the transfer of a tag ends. -/
def execStageComplete (tag : Word) (data : List Byte) (s : State) : Host.Outcome State Fault Refusal :=
  .next (match s.ring.stages.find? (fun x => x.cmd.tag == tag) with
  | none => s
  | some x =>
    let s := s.moveStage x data
    ({ s with ring := { s.ring with stages := s.ring.stages.erase x } }).endOp (some x.cmd) stOk 0)

/-- FIRMWARE_WRITE_COMPLETE (R451): the oldest accepted image is in the SPI NOR; the running firmware stays. -/
def execFirmwareWriteComplete (s : State) : Host.Outcome State Fault Refusal :=
  .next (match s.ring.fwWrite with
  | [] => s
  | (image, cmd) :: rest =>
    let s := { s with ring := { s.ring with fwWrite := rest },
                      mgmt := { s.mgmt with spiWpN := !rest.isEmpty, nor := { s.mgmt.nor with firmware := image, torn := false } } }
    (s.raiseM 0x0802 pgMss 0 0 (fwVersionOf image)).endOp cmd stOk 0)

end Sys2Proof.Machine
end

