-- ==== Sys2Proof/Machine/BootOps.lean ====
section
/-!
DEFINITION. Reset and BOOT (R6, R43, R421, R431 to R433, R450 to R452, R458, R491 to R493), standby and waking (R293, R428, R458, R487).
-/

namespace Sys2Proof.Machine

open Sys2Proof

/-! ### Reset (R431, R439, R491) -/

/-- What a reset leaves: fuses, the SPI NOR, what has been written to host memory and sent, the test access port, and the levels of the
pins. The write of a firmware image that it cuts off leaves the image area torn (R458). NOC_LDT_SEL comes up with the version that the
part carries in its fuses (R4, R242). -/
def State.cleared (s : State) : State :=
  { State.reset.rset Reg.nocLdtSel (s.fuses.ldtVer.zeroExtend 32) with
    pending := s.pending, fuses := s.fuses, free := s.free
    mgmt := { MgmtSt.reset with
      nor := { s.mgmt.nor with torn := s.mgmt.nor.torn || !s.ring.fwWrite.isEmpty }
      hostLog := s.mgmt.hostLog, out := s.mgmt.out, pwrgood := s.mgmt.pwrgood, resetN := s.mgmt.resetN
      strapRcv := s.mgmt.strapRcv, jtag := s.mgmt.jtag }
    ring := { RingSt.reset with written := s.ring.written }
    job := { JobSt.reset with traceOut := s.job.traceOut }
    stp := { StepSt.reset with ledger := s.stp.ledger }
    brn := { BrnSt.reset with packs := s.brn.nextPacks.getD s.brn.packs, fences := s.brn.fences
                              repairs := s.brn.repairs, mapped := s.brn.repairs, before := s.minutes }
    pwr := { PwrSt.reset with stretch := ⟨[], s.pwr.stretch.vrAlert, false, false⟩ } }

/-- PWRGOOD has fallen or RESET_N is low: the device is held in reset. THERMTRIP_N is released once PWRGOOD has fallen (R492). -/
def State.holdReset (s : State) (pwrgood : Bool) : State :=
  let t := s.cleared
  { t with mgmt := { t.mgmt with dev := .off, pwrgood := pwrgood, resetN := s.mgmt.resetN && !pwrgood
                                 thermtripN := s.mgmt.thermtripN || !pwrgood }
           pwr := { t.pwr with tripped := s.pwr.tripped && pwrgood, clocksStopped := s.pwr.clocksStopped && pwrgood } }

/-! ### BOOT (R432) -/

def State.setDev (s : State) (d : DevState) : State := { s with mgmt := { s.mgmt with dev := d } }
def State.setStage (s : State) (n : Nat) : State := { s with mgmt := { s.mgmt with bootStage := n } }

/-- Firmware that does not verify: RECOVERY, with 0x0801 (R432, R452). -/
def State.bootFails (s : State) (k : Nat) : State := (s.setDev .recovery).raiseM 0x0801 pgMss 0 0 k

/-- The roles that BOOT gives: cores fused off, cores of the fence list, spares (R41, R43). -/
def State.bootRoles (s : State) : State :=
  (List.range 144).foldl (fun s p =>
    if s.fuses.disabled.contains p then s.setRoleKind p .disabled
    else if s.fenceOpen p then s.setRoleKind p .fenced
    else s.setRoleKind p .spare) s

/-- The firmware writes BLK_CFG from the board description in SPI NOR; a value that the register refuses changes nothing (R287). -/
def State.boardBulk (s : State) : State :=
  let w := s.mgmt.nor.bulkCfg &&& 0x73
  if fieldNat w 0 2 = 3 ∨ 4 < fieldNat w 4 3 then s else s.rset Reg.blkCfg w

/-- Stage 2: VDD_CORE and the arithmetic clock, or a rail fault; then stage 3 is in progress. A warning of the regulator that came
before the clock is handled now (R493); the current is a free value (log entry 5). -/
def State.bootClock (s : State) (rail : Option Word) : State :=
  let s := s.setStage 2
  match rail with
  | some w => (s.raiseM 0x0704 pgPwr 0 0 w.toNat).setDev .off
  | none =>
    let s := (s.commandVolt 0).bootRoles.boardBulk.setStage 3
    if s.pwr.stretch.vrAlert then
      let (f, s) := s.draw
      s.vrWarn (f.toNat % 2 ^ 32)
    else s

/-- Stages 1 and 2. An image whose write was cut off does not verify; which check fails is a free value (log entry 5). -/
def State.bootImage (s : State) (rail : Option Word) : State :=
  let s := s.setStage 1
  let image := s.mgmt.nor.firmware
  if s.mgmt.nor.torn then
    let (f, s) := s.draw
    s.bootFails (1 + f.toNat % 3)
  else match s.fwFault image with
    | some k => s.bootFails k
    | none =>
      let s := { s with mgmt := { s.mgmt with fwImage := image, fwVersion := fwVersionOf image, fwSvn := fwSvnOf image } }
      s.bootClock rail

/-- Power-on reset and BOOT up to training. With STRAP_RCV the image is not read (R491, R493). Where only RESET_N was low, THERMTRIP_N
stays asserted, and clocks that have been stopped stay so (R492; DEDUCED, log entry 47). -/
def State.powerOn (s : State) (b : BootObs) : State :=
  let t := s.holdReset s.mgmt.pwrgood
  let t := { t with mgmt := { t.mgmt with strapRcv := b.strapRcv, pwrgood := true, resetN := true } }
  let t := if t.pwr.clocksStopped then t else t.setDev .boot
  if t.pwr.clocksStopped then t
  else if b.strapRcv then (t.setStage 1).setDev .recovery else t.bootImage b.railFault

/-- PCI_RECOVERY.GO (R452): the image in the recovery buffer is verified, written to SPI NOR, and BOOT begins. -/
def State.recoveryGo (s : State) : State :=
  if s.mgmt.dev ≠ .recovery then s
  else
    let image := bytesAt s.mgmt.recovery 0 (640 + leNat (bytesAt s.mgmt.recovery 12 4) % (16 * 2 ^ 20))
    match s.fwFault image with
    | some _ => s.rset Reg.pciRecovery (s.rget Reg.pciRecovery ||| 2)
    | none =>
      let s := { s with mgmt := { s.mgmt with dev := .boot, nor := { s.mgmt.nor with firmware := image, torn := false } } }
      s.bootImage none

/-- A reset of the PCIe endpoint (R431): the PCI page, its latches, what of the rings lies in it. -/
def State.pciReset (s : State) (why : Nat) : State :=
  if s.mgmt.dev = .off then s
  else
    let low := fun (k : Nat) => decide (k % 2 ^ 28 < 0x1000)
    let s := { s with regs := s.regs.filter (fun e => 0x1000 ≤ e.1), latches := s.latches.filter (fun e => !low e.1),
                      loHeld := s.loHeld.filter (fun e => !low e.1), ring := { s.ring with prodIdx := 0, asked := 0 } }
    s.raiseM 0x0804 pgMss 0 0 why

/-! ### Standby (R293, R428, R458, R487) -/

/-- A wake arrives: a device that is entering or in STANDBY acts on it. -/
def State.wakeUp (s : State) : State :=
  if s.mgmt.dev == .standby || s.ring.standbyEntry then { s with ring := { s.ring with wake := true } } else s

/-- Every enabled port runs in keep-alive mode, one that is down as soon as its link is up; VDD_CORE goes to V(15). -/
def State.standbyEntered (s : State) : State :=
  if !s.ring.standbyEntry then s
  else
    let s := (List.range 64).foldl (fun s q =>
      if s.rbit (Reg.fabPortCfg q) 0 then s.setPort q { s.port q with keepalive := true } else s) s
    ({ s.setDev .standby with ring := { s.ring with standbyEntry := false } }).commandVolt 15

/-- READY again, once no port is left in keep-alive mode. -/
def State.woken (s : State) : State :=
  if s.mgmt.dev == .standby && s.ring.wake && (List.range 64).all (fun q => !((s.port q).up && (s.port q).keepalive)) then
    let s := (List.range 64).foldl (fun s q => s.setPort q { s.port q with keepalive := false }) s
    ({ s.setDev .ready with ring := { s.ring with wake := false } }).commandVolt s.voltStep
  else s

end Sys2Proof.Machine
end

