-- ==== Sys2Proof/Machine/Manage.lean ====
section
/-!
DEFINITION. The commands of the register pages and windows (R345, R387, R410, R431, R438, R439, R441, R442, R446, R452, R463 to R471).
-/

namespace Sys2Proof.Machine

open Sys2Proof

/-! ### What a write of a register sets in motion -/

/-- ASY_CLR (R387): decided records go. -/
def State.clearAssay (s : State) : State :=
  if s.asy.st = 3 then { s with asy := { s.asy with recs := [], ninth := [], st := 0 } } else s

/-- HBM_PC_CLR of stack `k` (R284). -/
def State.clearCe (s : State) (k : Nat) (bits : Word) : State :=
  (List.range 32).foldl (fun s c =>
    if bits.getLsbD c then s.setPc (32 * k + c) { s.pc (32 * k + c) with ceCnt := 0 } else s) s

/-- 0x0808 once the host log ring has room again (R439). -/
def State.tellDrop (s : State) : State :=
  if s.mgmt.dropped && s.logRoom then
    ({ s with mgmt := { s.mgmt with dropped := false } }).raiseM 0x0808 pgMss 0 0 (s.rget Reg.logDrop).toNat
  else s

/-- LOG_CFG: setting EN starts the copy from index 0 (R439). -/
def State.writeLogCfg (s : State) (path : Path) (pg : Page) (v : Word) : State :=
  let was := s.rbit Reg.logCfg 11
  let s := s.writeWord path pg Reg.logCfg v
  (if s.rbit Reg.logCfg 11 && !was then s.rset Reg.logPi 0 else s).tellDrop

/-- MSS_WALL_HI: the write of HI records the note (R438). -/
def State.writeWall (s : State) (path : Path) (pg : Page) (v : Word) : State :=
  let s := s.writeWord path pg Reg.mssWallHi v
  s.noteWall (BitVec.ofNat 64 (s.rpair Reg.mssWallLo))

/-- FAB_PORT_CFG: a port that is no longer enabled goes down (DEDUCED, log entry 48). -/
def State.writePortCfg (s : State) (path : Path) (pg : Page) (off : Nat) (v : Word) : State :=
  let s := s.writeWord path pg off v
  let x := s.port pg.inst
  if !s.rbit off 0 && x.up then (s.setPort pg.inst { x with up := false, keepalive := false }).resendPort pg.inst else s

/-- A write of a word of a page's own. -/
def State.writeOwn (s : State) (path : Path) (pg : Page) (off : Nat) (v : Word) : State :=
  if off = Reg.pciWake then (if v.getLsbD 0 then s.wakeUp else s)
  else if off = Reg.pciRecovery then (if v.getLsbD 0 then s.recoveryGo else s)
  else if off = Reg.pciRingCfg ∨ off = Reg.pciCplCi then (s.writeWord path pg off v).flushCpls
  else if off = Reg.mssWallHi then s.writeWall path pg v
  else if off = Reg.logCfg then s.writeLogCfg path pg v
  else if off = Reg.logCi then (s.writeWord path pg off v).tellDrop
  else if off = Reg.pwrCap then { s with pwr := { s.pwr with capShadow := some v } }
  else if off = Reg.stkLedgerCi then (s.writeWord path pg off v).writePending.resume
  else if off = Reg.asyClr then (if v.getLsbD 0 then s.clearAssay else s)
  else if pg.blk = .hbm ∧ pg.page ≠ 0 ∧ off % 0x1000 = 0x180 then s.clearCe (pg.page - 1) v
  else if pg.blk = .fab ∧ off % 0x1000 = 0x100 then s.writePortCfg path pg off v
  else s.writeWord path pg off v

/-- A whole-word write at a BAR0 offset (R463, R464, R470). -/
def State.writeReg (s : State) (path : Path) (off : Nat) (v : Word) : State :=
  if off % 4 ≠ 0 then s
  else match s.target path off with
  | none => s
  | some pg => if off % 0x1000 < 0x100 then s.writeCommon path pg (off % 0x1000) v else s.writeOwn path pg off v

/-! ### Register rows -/

def bar0Size : Nat := 0x2000000

/-- A write on a path, beyond BAR0 a fault (R441). -/
def State.regWrite (s : State) (path : Path) (off : Nat) (v : Word) : Host.Outcome State Fault Refusal :=
  if bar0Size ≤ off then .fault .outsideBar0 else .next (s.writeReg path off v)

/-- REGISTER_WRITE (R468, R470): a write with partial byte enables is dropped. -/
def execRegisterWrite (p : Path) (off : Nat) (v : Word) (enables : BitVec 4) (s : State) : Host.Outcome State Fault Refusal :=
  if enables = 0xF then s.regWrite p off v else if bar0Size ≤ off then .fault .outsideBar0 else .next s

/-- REGISTER_LO_READ (R470, R471): a read of LO latches HI, a read of HI returns what is latched. -/
def execRegisterLoRead (p : Path) (off : Nat) (s : State) : Host.Outcome State Fault Refusal :=
  if bar0Size ≤ off then .fault .outsideBar0
  else
    let (w, t) := s.readReg p (off - off % 4)
    .next { t with mgmt := { t.mgmt with readback := leBytes 4 w.toNat } }

/-- EVT_CLEAR (R465): a write of 1s to EVT of a page. -/
def execEvtClear (p : Path) (page : Nat) (bits : Word) (s : State) : Host.Outcome State Fault Refusal :=
  s.regWrite p (0x1000 * page + oEvt) bits

/-- CNT_CLR (R465): CTL is written with CNT_CLR set and CAPTURE_EN as it stands. -/
def execCntClr (p : Path) (page : Nat) (s : State) : Host.Outcome State Fault Refusal :=
  s.regWrite p (0x1000 * page + oCtl) ((s.rget (0x1000 * page + oCtl) &&& 1) ||| 2)

/-- EVT_FORCE (R467). -/
def execEvtForce (p : Path) (page : Nat) (bits : Word) (s : State) : Host.Outcome State Fault Refusal :=
  s.regWrite p (0x1000 * page + oEvtForce) bits

/-- LOCK_SET (R464, R468): HOSTLOCK is written as it stands. -/
def execLockSet (p : Path) (page : Nat) (s : State) : Host.Outcome State Fault Refusal :=
  s.regWrite p (0x1000 * page + oLock) ((s.rget (0x1000 * page + oLock) &&& 4) ||| 1)

/-- LOCK_CLEAR (R464, R468): HOSTLOCK is written as it stands. -/
def execLockClear (p : Path) (page : Nat) (s : State) : Host.Outcome State Fault Refusal :=
  s.regWrite p (0x1000 * page + oLock) ((s.rget (0x1000 * page + oLock) &&& 4) ||| 2)

/-- PCI_WAKE (R458). -/
def execPciWake (p : Path) (s : State) : Host.Outcome State Fault Refusal := .next (s.writeReg p Reg.pciWake 1)

/-- PCI_RECOVERY_GO (R452). -/
def execPciRecoveryGo (p : Path) (s : State) : Host.Outcome State Fault Refusal := .next (s.writeReg p Reg.pciRecovery 1)

/-- ASY_CLR (R387). -/
def execAsyClr (p : Path) (s : State) : Host.Outcome State Fault Refusal := .next (s.writeReg p Reg.asyClr 1)

/-- HBM_PC_CLR (R284). -/
def execHbmPcClr (p : Path) (k : Fin 12) (bits : Word) (s : State) : Host.Outcome State Fault Refusal :=
  .next (s.writeReg p (Reg.hbmPcClr k.val) bits)

/-- MSS_WALL_HI_WRITE (R438). -/
def execMssWallHiWrite (p : Path) (v : Word) (s : State) : Host.Outcome State Fault Refusal :=
  .next (s.writeReg p Reg.mssWallHi v)

/-- PWR_CAP_WRITE (R410): into the shadow. -/
def execPwrCapWrite (p : Path) (v : Word) (s : State) : Host.Outcome State Fault Refusal := .next (s.writeReg p Reg.pwrCap v)

/-- STK_LEDGER_CI_WRITE (R345): a boundary held for room goes on. -/
def execStkLedgerCiWrite (p : Path) (v : Word) (s : State) : Host.Outcome State Fault Refusal :=
  .next (s.writeReg p Reg.stkLedgerCi v)

/-- PCI_CPL_CI_WRITE (R446): held completions are written. -/
def execPciCplCiWrite (p : Path) (v : Word) (s : State) : Host.Outcome State Fault Refusal :=
  .next (s.writeReg p Reg.pciCplCi v)

/-- PCI_RING_CFG_WRITE (R431). -/
def execPciRingCfgWrite (p : Path) (v : Word) (s : State) : Host.Outcome State Fault Refusal :=
  .next (s.writeReg p Reg.pciRingCfg v)

/-- LOG_CFG_WRITE (R439). -/
def execLogCfgWrite (p : Path) (v : Word) (s : State) : Host.Outcome State Fault Refusal := .next (s.writeReg p Reg.logCfg v)

/-- LOG_CI_WRITE (R439). -/
def execLogCiWrite (p : Path) (v : Word) (s : State) : Host.Outcome State Fault Refusal := .next (s.writeReg p Reg.logCi v)

/-! ### The BAR2 window (R441, R442, R452) -/

def bar2Size : Nat := 0x10000000
def recoverySize : Nat := 16 * 2 ^ 20

def State.bar2Sel (s : State) : Word := s.rget Reg.pciBar2Sel

/-- The endpoint answers (R432, R433). -/
def State.pcieAnswers (s : State) : Bool :=
  match s.mgmt.dev with
  | .off => false
  | .boot => decide (1 ≤ s.mgmt.bootStage)
  | _ => true

/-- A host write through the window: in RECOVERY into the buffer, in RUN dropped with 0x080A. -/
def State.bar2Write (s : State) (off : Nat) (data : List Byte) : State :=
  if !s.pcieAnswers then s
  else match s.mgmt.dev with
  | .recovery =>
    { s with mgmt := { s.mgmt with recovery := setBytes s.mgmt.recovery off (data.take (recoverySize - off)) } }
  | .run => s.raiseM 0x080A pgMss 0 0 (off % 2 ^ 32)
  | _ =>
    let w := s.bar2Sel
    s.winWrite (selTarget w) (selCore w) (selAddr w off) data

/-- BAR2_WRITE. -/
def execBar2Write (off : Nat) (data : List Byte) (s : State) : Host.Outcome State Fault Refusal :=
  if bar2Size < off + data.length then .fault .outsideBar2 else .next (s.bar2Write off data)

/-- What a read through the window returns: sealed bytes read as zero. -/
def State.bar2Bytes (s : State) (off len : Nat) : List Byte :=
  if !s.pcieAnswers then List.replicate len 0
  else if s.mgmt.dev = .recovery then
    (List.range len).map (fun k => if off + k < recoverySize then byteAt s.mgmt.recovery (off + k) else 0)
  else
    let w := s.bar2Sel
    let a := selAddr w off
    let t := selTarget w
    (s.winRead t (selCore w) a len).zipIdx.map (fun e => if (s.sealMet t (a + e.2) 1).isSome then 0 else e.1)

/-- 0x0812 of a read that meets a sealed byte, with the load that sealed it (R367, R373). -/
def State.sealNote (s : State) (off len : Nat) : State :=
  let w := s.bar2Sel
  if !s.pcieAnswers ∨ s.mgmt.dev = .recovery then s
  else match s.sealMet (selTarget w) (selAddr w off) len with
  | none => s
  | some x => s.raiseLoad 0x0812 0 x.load (off % 2 ^ 32)

/-- The counts and events of reading the memory that the window shows. -/
def State.bar2Note (s : State) (off len : Nat) : State :=
  let w := s.bar2Sel
  if !s.pcieAnswers ∨ s.mgmt.dev = .recovery then s else s.winNote (selTarget w) (selAddr w off) len

/-- BAR2_READ. -/
def execBar2Read (off len : Nat) (s : State) : Host.Outcome State Fault Refusal :=
  if bar2Size < off + len then .fault .outsideBar2
  else
    let bs := s.bar2Bytes off len
    let s := (s.bar2Note off len).sealNote off len
    .next { s with mgmt := { s.mgmt with readback := bs } }

end Sys2Proof.Machine
end

