-- ==== Sys2Proof/Machine/Attest.lean ====
section
/-!
DEFINITION. The commands of the management processor's messages (R436, R454, R455, R458, R463): MCTP and the seven SPDM requests, by
either path.
-/

namespace Sys2Proof.Machine

open Sys2Proof

/-- The firmware runs: MCTP and SPDM work (R432, R436). -/
def State.firmwareRuns (s : State) : Bool :=
  match s.mgmt.dev with
  | .off | .recovery => false
  | .boot => decide (2 ≤ s.mgmt.bootStage)
  | _ => true

/-! ### MCTP (R436, R451, R458, R463) -/

def mctpPort : Nat := 47111

/-- A packet reaches the firmware: every one by VDM, over Ethernet from a permitted peer on the MCTP port. -/
def State.mctpFrom (s : State) : MctpVia → Bool
  | .vdm => true
  | .eth peer udp => s.mgmt.nor.peers.contains peer && udp == mctpPort

/-- What the firmware does with a message. -/
def State.mctpDo (s : State) : MctpMsg → State
  | .regRead off =>
    if bar0Size ≤ off then s.send (.mctp none)
    else
      let (w, t) := s.readReg .mctp (off - off % 4)
      t.send (.mctp (some w))
  | .regWrite off v => if bar0Size ≤ off then s.send (.mctp none) else (s.writeReg .mctp off v).send (.mctp none)
  | .fwUpdate image => s.fwUpdate image none
  | .other => s

/-- MCTP_PACKET. -/
def execMctpPacket (via : MctpVia) (m : MctpMsg) (s : State) : Host.Outcome State Fault Refusal :=
  .next (if s.firmwareRuns && s.mctpFrom via then s.mctpDo m else s)

/-- MCTP_WAKE_COMMAND (R458). -/
def execMctpWakeCommand (s : State) : Host.Outcome State Fault Refusal := .next (if s.firmwareRuns then s.wakeUp else s)

/-! ### SPDM (R453 to R455) -/

/-- A request is answered, where the firmware runs. -/
def State.answer (s : State) (r : SpdmResp) : State := if s.firmwareRuns then s.send (.spdm r) else s

/-- The certificate chain of a slot: 0 signing, 1 wrapping. -/
def State.chain (s : State) (slot : Nat) : Option (List Byte) := (s.mgmt.nor.certs.find? (fun c => c.1 == slot)).map (·.2)
def State.slotMask (s : State) : Byte := s.mgmt.nor.certs.foldl (fun m c => m ||| (1 <<< c.1 : Byte)) 0

/-- An entry of the fence list as numbers. -/
def FenceEntry.nums (e : FenceEntry) : List Nat := [e.core, e.unit, e.outcome, e.min, b1 e.returned 0]

/-- A repair in the fence list as numbers (R149). -/
def Repair.nums (r : Repair) : List Nat := [r.core, r.me, b1 r.col 0, r.pos]

/-- The measurement blocks (R455), as of the last boundary. -/
def MeasSt.block (m : MeasSt) : Nat → List Byte
  | 1 => Config.bootRomDigest
  | 2 => sha256 m.fw
  | 3 => leBytes 4 m.version ++ leBytes 4 m.svn ++ leBytes 4 m.minSvn
  | 4 => sha256 m.packs
  | 5 => leBytes 4 m.part.toNat
  | 6 => sha256 (Config.fenceBytes (m.fences.map FenceEntry.nums ++ m.repairs.map Repair.nums))
  | 7 => m.manifest
  | 8 => m.hallmark
  | 9 => leBytes 4 m.repl.toNat ++ leBytes 4 m.state.toNat
  | _ => []

/-- The DMTF form of a measurement block (R455; the types PRESUMED, log entry 49): index, specification, size, type, size of the value, the
value. Digests are of types 0, 1 and 3; what is raw has the type's bit 7. -/
def measType : Nat → Byte
  | 1 => 0x00
  | 2 => 0x01
  | 3 => 0x83
  | 4 => 0x03
  | 5 => 0x82
  | 6 => 0x03
  | 7 => 0x84
  | 8 => 0x83
  | _ => 0x82
def measRecord (b : Nat × List Byte) : List Byte :=
  [BitVec.ofNat 8 b.1, 1] ++ leBytes 2 (b.2.length + 3) ++ [measType b.1] ++ leBytes 2 b.2.length ++ b.2

def asciiBytes (t : String) : List Byte := t.toList.map (fun c => BitVec.ofNat 8 c.toNat)

/-- What a signature of SPDM 1.2 is made over (PRESUMED, log entry 49): the version's name four times, zeros and the context up to 36 bytes,
and the hash of the messages. -/
def spdmSigned (context messages : List Byte) : List Byte :=
  let name := asciiBytes "dmtf-spdm-v1.2.*"
  name ++ name ++ name ++ name ++ List.replicate (36 - context.length) 0 ++ context ++ sha256 messages
def challengeContext : List Byte := asciiBytes "responder-challenge_auth signing"
def measContext : List Byte := asciiBytes "responder-measurements signing"

/-! #### The messages as bytes (DSP0274, PRESUMED, log entry 49) -/

def versionBytes : List Byte := [0x10, 0x04, 0, 0, 0, 1, 0x00, 0x12]

/-- CERT_CAP, CHAL_CAP, and MEAS_CAP with signature. -/
def capBytes : List Byte :=
  let (ct, data, msg) := Config.spdmSizes
  [0x12, 0x61, 0, 0, 0, ct, 0, 0] ++ leBytes 4 0x16 ++ leBytes 4 data.toNat ++ leBytes 4 msg.toNat

/-- DMTF measurements, TPM_ALG_SHA_256, TPM_ALG_RSASSA_3072. -/
def algBytes : List Byte :=
  [0x12, 0x63, 0, 0] ++ leBytes 2 36 ++ [1, 0] ++ leBytes 4 2 ++ leBytes 4 4 ++ leBytes 4 1 ++ List.replicate 16 0

def State.digestBytes (s : State) : List Byte :=
  [0x12, 0x01, 0, s.slotMask] ++ s.mgmt.nor.certs.flatMap (fun c => sha256 c.2)
def certBytes (slot : Nat) (part : List Byte) (left : Nat) : List Byte :=
  [0x12, 0x02, BitVec.ofNat 8 slot, 0] ++ leBytes 2 part.length ++ leBytes 2 left ++ part

/-- CHALLENGE_AUTH and MEASUREMENTS up to the signature. -/
def State.authBytes (s : State) (chain own summary : List Byte) : List Byte :=
  [0x12, 0x03, 0, s.slotMask] ++ sha256 chain ++ own ++ summary ++ [0, 0]
def measBytes (idx : Nat) (bs : List (Nat × List Byte)) (own : List Byte) : List Byte :=
  let recs := if idx = 0 then [] else bs.flatMap measRecord
  [0x12, 0x60, (if idx = 0 then 9 else 0), 0, BitVec.ofNat 8 (if idx = 0 then 0 else bs.length)] ++ leBytes 3 recs.length ++ recs ++
    own ++ [0, 0]

/-! #### The requests -/

/-- GET_VERSION: SPDM 1.2. It begins a new exchange. -/
def execGetVersion (s : State) : Host.Outcome State Fault Refusal :=
  .next (if s.firmwareRuns then ({ s with mgmt := { s.mgmt with
    spdmAlg := false, spdmCaps := false, spdmStart := [0x10, 0x84, 0, 0] ++ versionBytes, spdmCerts := [], spdmMeas := [] } }).answer (.version 2) else s)

/-- GET_CAPABILITIES: CERT_CAP, CHAL_CAP and MEAS_CAP with signature, and nothing else. -/
def execGetCapabilities (s : State) : Host.Outcome State Fault Refusal :=
  .next (if s.firmwareRuns then ({ s with mgmt := { s.mgmt with spdmCaps := true } }).answer
    (.capabilities true true true true false false false false) else s)

/-- NEGOTIATE_ALGORITHMS: RSA-3072 and SHA-256, which a requester must offer. The opening of the exchange is complete with it; `caps` is
the GET_CAPABILITIES request that came before it. -/
def execNegotiateAlgorithms (offer : AlgOffer) (caps : List Byte) (s : State) : Host.Outcome State Fault Refusal :=
  .next (
    let ok := offer.rsa3072 && offer.sha256
    if !s.firmwareRuns then s
    else if ok then ({ s with mgmt := { s.mgmt with
      spdmAlg := true, spdmCaps := false,
      spdmStart := s.mgmt.spdmStart ++ (if s.mgmt.spdmCaps then caps ++ capBytes else []) ++ offer.req ++ algBytes } }).answer (.algorithms true true)
    else s.answer .error)

/-- Requests that need the algorithms (PRESUMED, log entry 49), and the messages of digests and certificates that were exchanged. -/
def State.spdmReady (s : State) : Bool := s.firmwareRuns && s.mgmt.spdmAlg
def State.refuseSpdm (s : State) : State := s.answer .error
def State.noteCerts (s : State) (bs : List Byte) : State :=
  { s with mgmt := { s.mgmt with spdmCerts := s.mgmt.spdmCerts ++ bs, spdmMeas := [] } }

/-- GET_DIGESTS: the SHA-256 of each chain. -/
def execGetDigests (s : State) : Host.Outcome State Fault Refusal :=
  .next (if !s.spdmReady then s.refuseSpdm
    else (s.noteCerts ([0x12, 0x81, 0, 0] ++ s.digestBytes)).answer (.digests (s.mgmt.nor.certs.map (fun c => (c.1, sha256 c.2)))))

/-- GET_CERTIFICATE: part of the chain of a slot, and how many bytes follow it. -/
def execGetCertificate (slot : Fin 8) (off len : Nat) (s : State) : Host.Outcome State Fault Refusal :=
  .next (match s.chain slot.val with
  | none => s.refuseSpdm
  | some c =>
    if !s.spdmReady ∨ c.length ≤ off then s.refuseSpdm
    else
      let part := (c.drop off).take len
      let left := c.length - (off + len)
      (s.noteCerts ([0x12, 0x82, BitVec.ofNat 8 slot.val, 0] ++ leBytes 2 off ++ leBytes 2 len ++ certBytes slot.val part left)).answer
        (.certificate slot.val off part left))

/-- A nonce of the device: free values (log entry 5). -/
def State.nonce (s : State) : List Byte × State :=
  let (a, s) := s.draw
  let (b, s) := s.draw
  let (c, s) := s.draw
  let (d, s) := s.draw
  (leBytes 8 a.toNat ++ leBytes 8 b.toNat ++ leBytes 8 c.toNat ++ leBytes 8 d.toNat, s)

/-- The summary of the measurements that a CHALLENGE asks for: 0 none, 1 of the boot ROM and the firmware, 0xFF of all. -/
def State.summary (s : State) (kind : Nat) : Option (List Byte) :=
  let all := fun (n : Nat) => sha256 ((List.range' 1 n).flatMap (fun i => measRecord (i, s.mgmt.meas.block i)))
  match kind with
  | 0 => some []
  | 1 => some (all 2)
  | 0xFF => some (all 9)
  | _ => none

/-- The messages that the signature of CHALLENGE_AUTH covers: all of the exchange but measurements. -/
def State.challengeText (s : State) (kind : Nat) (nonce chain own summary : List Byte) : List Byte :=
  s.mgmt.spdmStart ++ s.mgmt.spdmCerts ++ [0x12, 0x83, 0, BitVec.ofNat 8 kind] ++ nonce ++ s.authBytes chain own summary

/-- CHALLENGE: slot 0 holds the chain of the signing key. -/
def execChallenge (slot : Fin 8) (q : ChallengeReq) (s : State) : Host.Outcome State Fault Refusal :=
  .next (match s.chain slot.val, s.summary q.kind with
  | some c, some sum =>
    if slot.val ≠ 0 ∨ !s.spdmReady then s.refuseSpdm
    else
      let sign := fun (own : List Byte) => touchmarkSign (spdmSigned challengeContext (s.challengeText q.kind q.nonce c own sum))
      let (own, s) := s.nonce
      ({ s with mgmt := { s.mgmt with spdmCerts := [], spdmMeas := [] } }).answer (.challengeAuth 0 own sum (sign own))
  | _, _ => s.refuseSpdm)

/-- The blocks that an index asks for: 0 their number, 0xFF all (PRESUMED, log entry 49). -/
def State.measBlocks (s : State) (idx : Nat) : List (Nat × List Byte) :=
  if idx = 0 then [(0, [9])]
  else if idx = 0xFF then (List.range' 1 9).map (fun i => (i, s.mgmt.meas.block i))
  else [(idx, s.mgmt.meas.block idx)]

/-- A GET_MEASUREMENTS request and its response up to the signature. -/
def State.measText (s : State) (idx : Nat) (signed : Bool) (nonce own : List Byte) : List Byte :=
  [0x12, 0xE0, (if signed then 1 else 0), BitVec.ofNat 8 idx] ++ (if signed then nonce ++ [0] else []) ++
    measBytes idx (s.measBlocks idx) own

/-- GET_MEASUREMENTS. A signature covers the messages up to the algorithms and those of measurements since the last signature. -/
def execGetMeasurements (idx : Nat) (signed : Bool) (nonce : List Byte) (s : State) : Host.Outcome State Fault Refusal :=
  .next (if 9 < idx ∧ idx ≠ 0xFF ∨ !s.spdmReady then s.refuseSpdm
  else
    let bs := s.measBlocks idx
    let texts := fun (own : List Byte) => s.mgmt.spdmMeas ++ s.measText idx signed nonce own
    let (own, t) := s.nonce
    let sig := if signed then some (touchmarkSign (spdmSigned measContext (s.mgmt.spdmStart ++ texts own))) else none
    ({ t with mgmt := { t.mgmt with spdmMeas := if signed then [] else texts own } }).answer (.measurements bs own sig))

end Sys2Proof.Machine
end

