-- ==== Sys2Proof/Machine/Collective.lean ====
section
/-!
DEFINITION. The commands of collectives and of agreement (R299, R300, R307, R312 to R320): their packets, deadlines, and the takeover of a
segment by its backup.
-/

namespace Sys2Proof.Machine

open Sys2Proof

/-! ### Packets -/

/-- A CONTRIB packet (R312, R315). -/
def execContribPacket (r : Rx) (s : State) : Host.Outcome State Fault Refusal := .next (s.frameOf (r.pkt.typ == 1) r)

/-- A RESULT packet (R312, R314). -/
def execResultPacket (r : Rx) (s : State) : Host.Outcome State Fault Refusal := .next (s.frameOf (r.pkt.typ == 2) r)

/-- REPORT (R300, R317). -/
def execReport (r : Rx) (s : State) : Host.Outcome State Fault Refusal := .next (s.frameOf (agreeFits r 1) r)

/-- DECISION (R300, R312). -/
def execDecision (r : Rx) (s : State) : Host.Outcome State Fault Refusal := .next (s.frameOf (agreeFits r 2) r)

/-- VOTE (R300, R334). -/
def execVote (r : Rx) (s : State) : Host.Outcome State Fault Refusal := .next (s.frameOf (agreeFits r 3) r)

/-- VERDICT (R300, R334, R335). -/
def execVerdict (r : Rx) (s : State) : Host.Outcome State Fault Refusal := .next (s.frameOf (agreeFits r 4) r)

/-- WITHDRAW (R300, R349, R380). -/
def execWithdraw (r : Rx) (s : State) : Host.Outcome State Fault Refusal := .next (s.frameOf (agreeFits r 5) r)

/-- REPORT_AGAIN (R300, R319). -/
def execReportAgain (r : Rx) (s : State) : Host.Outcome State Fault Refusal := .next (s.frameOf (agreeFits r 6) r)

/-! ### The deadline of a root (R316, R317) -/

/-- Stages and groups of a collective. -/
def CollCfg.parts (c : CollCfg) : List (Nat × Nat) :=
  if c.two then ((List.range c.groups).map (fun g => (1, g))) ++ [(2, 0)] else [(1, 0)]

/-- A root that waits for nodes, its deadline running. -/
def RootRun.waits (r : RootRun) : Bool := r.started && !r.reported && r.decided.isNone && !r.backup

/-- COLLECTIVE_DEADLINE: the deadline of this device's root of a segment passes, and the root reports what it holds. In a two-stage
collective the deadline of the first stage that has not reported is the one that passes. -/
def execCollectiveDeadline (coll : Word) (seg : Nat) (late : Bool) (s : State) : Host.Outcome State Fault Refusal :=
  .next (match s.collCfg coll with
  | none => s
  | some c =>
    let rs := s.fab.roots.filter (fun r => r.coll == coll && r.step == s.stroke.step && r.seg == seg &&
      r.lane == (if late then 1 else 0) && r.waits)
    let st := minOr 1 (rs.map (·.stage))
    ((rs.filter (fun r => r.stage == st)).foldl (fun s r =>
      let (s, as) := s.sendReport c r
      s.collGo as) s).resume)

/-! ### A backup takes a segment (R319) -/

/-- Shards of a member. -/
def State.memberMask (s : State) (c : CollCfg) (m : Nat) : Nat :=
  (List.range c.n).foldl (fun x j => if s.shardMember c j = m then x ||| 2 ^ j else x) 0

/-- This device coordinates a stage: as the root of segment 0, or as its backup that has taken it (R319). -/
def State.coordinates (s : State) (c : CollCfg) (step : DWord) (stage group lane : Nat) : Bool :=
  s.rootMember c stage group 0 == s.member || (s.root? c.coll step stage group lane 0).any (·.backup)

/-- A lane of a step is in use at a root or a coordinator of this device: the main lane always, the late lane where one is expected. -/
def State.laneUsed (s : State) (c : CollCfg) (step : DWord) (stage group lane seg : Nat) : Bool :=
  lane == 0 || s.lateMask c step stage group seg != 0 || !(s.coord c.coll step stage group lane).reports.isEmpty

/-- The report that stands for a root that is lost: every shard but those of its member, and bit N for the backup. -/
def State.lostReport (s : State) (c : CollCfg) (lost : Nat) : Nat := 2 ^ c.n + minusMask (2 ^ c.n - 1) (s.memberMask c lost)

/-- The coordinator has no report of a segment: the others decide, and the lost member's shards are absent. -/
def State.coordTakeover (s : State) (c : CollCfg) (stage group lane seg : Nat) : State :=
  let step := s.stroke.step
  let x := s.coord c.coll step stage group lane
  let lost := s.rootMember c stage group seg
  if !s.coordinates c step stage group lane ∨ !s.laneUsed c step stage group lane seg ∨ lost = s.member ∨ x.decided.isSome ∨
      (tget none x.reports seg).isSome then s
  else s.collGo [.report c.coll step stage group lane seg lost (s.lostReport c lost)]

/-- The backup takes the segment. Of segment 0 it becomes coordinator, and asks the other roots for their reports. -/
def State.backupTakeover (s : State) (c : CollCfg) (stage group lane seg : Nat) : State :=
  let step := s.stroke.step
  let e := s.rootEnt c stage group seg
  if e.backup ≠ s.member ∨ s.rootMember c stage group seg = s.member ∨ !s.laneUsed c step stage group lane seg ∨
      (s.root? c.coll step stage group lane seg).isSome then s
  else
    let s := s.setRoot { s.newRoot c.coll step stage group lane seg true with reported := true }
    let s := if lane = 0 then s.failover c stage group seg else s
    let s := if seg ≠ 0 then s
      else
        let body := pad64 (agreeBytes 6 lane 0 0 step stage [])
        let ms := (((List.range c.segs).map (s.rootMember c stage group)).filter (fun m => m != s.member && m != e.member)).eraseDups
        let s := ms.foldl (fun s m => s.sendAgree m c.coll (c.groupTree stage group) step body) s
        let own := s.fab.roots.filter (fun r => r.coll == c.coll && r.step == step && r.stage == stage && r.group == group &&
          r.lane == lane && !r.backup)
        let s := own.foldl (fun s r => s.setRoot { r with coord := some s.member }) s
        let s := s.collGo ((own.filter (fun r => r.reported && r.decided.isNone)).map (fun r =>
          .report c.coll step stage group lane r.seg s.member (r.held c.n)))
        s.collGo [.report c.coll step stage group lane 0 e.member (s.lostReport c e.member)]
    s.collGo [.check c.coll step stage group lane seg]

/-- A contributor sends the segment again, to its backup, from what it keeps (DESIGN CHOICE, log entry 62); a root of stage 1 sends what
it sent on before. One whose replica is broken sends nothing (R349). -/
def State.contribTakeover (s : State) (c : CollCfg) (stage group seg : Nat) : State :=
  let step := s.stroke.step
  let b := (s.rootEnt c stage group seg).backup
  let own := match s.collRun? c.coll step with
    | none => []
    | some r => r.nodes.filter (fun (x : CNode) => c.stageOf x.level == stage && c.groupOf stage x.shard == group)
  let formed := if c.two && stage == 2 then
      s.fab.roots.flatMap (fun r =>
        if r.coll == c.coll && r.step == step && r.stage == 1 && r.lane == 0 && r.seg == seg && r.sent then
          (r.ready c.n).elim [] (fun ns => (s.stageOneNodes c r ns).1)
        else [])
    else []
  let late := match s.collRun? c.coll step with
    | none => []
    | some r => r.late.filter (fun (x : CNode) => c.stageOf x.level == stage && c.groupOf stage x.shard == group)
  if !s.mayContribute then s
  else
    let s := late.foldl (fun s x =>
      let nd := segNode c seg x
      if b = s.member then s.collGo [.arrive c.coll step 1 seg s.member nd]
      else s.sendNode c b seg nd.field true (step - 1) nd) s
    (own.map (segNode c seg) ++ formed).foldl (fun s nd =>
    if b = s.member then s.collGo [if stage = 2 then .forward c.coll step 0 seg s.member nd else .arrive c.coll step 0 seg s.member nd]
    else s.sendNode c b seg nd.field false step nd) s

/-- BACKUP_TAKEOVER: no report of a segment's root has come by its deadline and 2 stroke periods, or its device is lost. Coordinator, backup
and contributors act, each as far as it is one of them. -/
def execBackupTakeover (coll : Word) (seg : Nat) (s : State) : Host.Outcome State Fault Refusal :=
  .next (match s.collCfg coll with
  | none => s
  | some c =>
    let open_ := match s.collRun? coll s.stroke.step with | none => true | some r => !r.done
    if c.segs ≤ seg ∨ !open_ ∨ s.job.params.replay ∨ !s.job.present then s
    else
      (c.parts.foldl (fun s p =>
        let s := ([0, 1] : List Nat).foldl (fun s lane => (s.coordTakeover c p.1 p.2 lane seg).backupTakeover c p.1 p.2 lane seg) s
        s.contribTakeover c p.1 p.2 seg) s).resume)

/-- RESULT_SEGMENT_TIMEOUT (R307, R319): a result segment has not come by DL + 4 stroke periods, or could not be formed: zeros, with
INCOMPLETE and 0x0509. -/
def execResultSegmentTimeout (coll : Word) (seg : Nat) (s : State) : Host.Outcome State Fault Refusal :=
  .next (match s.collCfg coll, s.collRun? coll s.stroke.step with
  | some c, some r =>
    if c.segs ≤ seg ∨ r.done ∨ r.trailers.contains seg ∨ (r.cores.isEmpty ∧ !c.normSink) then s
    else
      let missing := ((List.range c.segs).filter (fun k => !r.trailers.contains k)).length
      let s := s.raisePeer 0x0509 sevStep 0 coll missing
      let n := c.segLen seg * (if c.kind = 2 then c.n else 1)
      let zero := if s.takesData c s.member seg then List.replicate n (0 : Byte) else []
      (s.collGo [.result coll s.stroke.step seg zero (r.incl.getD 0) (r.lateIncl.getD 0) false true]).resume
  | _, _ => s)

end Sys2Proof.Machine
end

