-- ==== Sys2Proof/Machine/Control.lean ====
section
/-!
DEFINITION. The control instructions (R180, R181, R186 to R191).
-/

namespace Sys2Proof.Machine

open Sys2Proof

/-- NOP (R180): no effect; the word at the program counter issues as NOP where R180 refuses it. -/
def execNop (i : Iss) (s : State) : Host.Outcome State Fault Refusal :=
  .next (s.issueOp i .nop)

/-- STEND (R186): ends the stream's work for the stroke. -/
def execStend (i : Iss) (s : State) : Host.Outcome State Fault Refusal :=
  .next (s.issueOp i .stend)

/-- JOBEND (R187): ends the stream's part in the job. -/
def execJobend (i : Iss) (s : State) : Host.Outcome State Fault Refusal :=
  .next (s.issueOp i .jobend)

/-- COMMIT (R188): marks the last stroke of the step. -/
def execCommit (i : Iss) (s : State) : Host.Outcome State Fault Refusal :=
  .next (s.issueOp i .commit)

/-- SLOTPAT (R189): the slot pattern of the next stroke. -/
def execSlotpat (i : Iss) (x : FmtI) (s : State) : Host.Outcome State Fault Refusal :=
  .next (s.issueOp i (.slotpat x))

/-- LOOP (R190): the words behind it COUNT times. -/
def execLoop (i : Iss) (x : FmtL) (s : State) : Host.Outcome State Fault Refusal :=
  .next (s.issueOp i (.loop x))

/-- RDSPEC (R191): a run-dependent value. -/
def execRdspec (i : Iss) (x : FmtI) (s : State) : Host.Outcome State Fault Refusal :=
  .next (s.issueOp i (.rdspec x))

/-- FETCH_BEYOND_STORE (R181, R207): the stream halts and 0x0911 gives the word index. The object's opcode field is 0 (DEDUCED,
log entry 50). -/
def execFetchBeyondStore (v : Fin 128) (st : Stream) (s : State) : Host.Outcome State Fault Refusal :=
  .next (match s.holder v with
  | none => s
  | some p =>
    let c := s.core p
    if s.issuing p && ownsSlot c st && runs (c.stream st) && decide (16384 ≤ (c.stream st).pc.toNat) then
      let s := s.illegalOp v p st 0
      let c := s.core p
      s.setCore p (c.setStream st { c.stream st with phase := .halted false })
    else s)

end Sys2Proof.Machine
end

