-- ==== Sys2Proof/Machine/Landing.lean ====
section
/-!
DEFINITION. Landing of items on the on-die network (R197, R201, R206, R249).
-/

namespace Sys2Proof.Machine

open Sys2Proof

/-- The result of collective `coll` is in place for its core number `k` (R206, R501). -/
def State.placeColl (s : State) (coll : Word) (step : DWord) (k : Nat) : State :=
  match s.collRun? coll step with
  | none => s
  | some r => s.setCollRun { r with cores := r.cores.zipIdx.map (fun e => if e.2 = k then { e.1 with placed := true } else e.1) }

/-- The bitmaps of a collective are in place for its core number `k`: the result and the trailers follow (R314). -/
def State.afterBitmaps (s : State) (coll : Word) (step : DWord) (k : Nat) : State :=
  match s.collCfg coll, s.collRun? coll step with
  | some c, some r => match r.cores[k]? with
    | some x => s.deliverResult c r k x
    | none => s
  | _, _ => s

/-- One item lands at position `v`: none where the interlock holds its write. What is sent to a position without a core is lost. -/
def State.landItem (s : State) (v : Nat) : Item → Option State
  | .granule off bytes =>
    match s.holder v with
    | none => some s
    | some p =>
      (writeGranules (s.ctxOf v p) off bytes.length (granules off bytes.length) (s.core p)).map (fun c =>
        s.setCore p { c with cm := setBytes c.cm off bytes })
  | .counter ctr d =>
    match s.holder v with
    | none => some s
    | some p => some (s.ctrAdd p v ctr d 5)
  | .done u ctr => some (s.muUp u (some ctr))
  | .written coll step k => some (s.placeColl coll step k)
  | .mapped coll step k => some (s.afterBitmaps coll step k)

/-- Lands items in order up to the first whose write is held. Answers those still to land. -/
def landItems (v : Nat) : List Item → State → List Item × State
  | [], s => ([], s)
  | i :: is_, s =>
    match s.landItem v i with
    | none => (i :: is_, s)
    | some s => landItems v is_ s

/-- Items of one source and destination land in the order sent: no flight before this one has the same pair (R201). -/
def State.mayLand (s : State) (k : Nat) (f : Flight) : Bool :=
  !(s.flights.take k).any (fun g => g.src == f.src && g.dst == f.dst)

/-- The check of R379 that fires on the data path of a destination's core. -/
def State.landUpset (s : State) (v : Nat) (u : Option Upset) : State :=
  match u, s.holder v with
  | some (.dataPath site granule), some p => s.onDataPath p v site.toNat granule.toNat
  | _, _ => s

/-- ONDIE_TRANSFER_LANDING (R197, R201): flight `k` lands, as far as its writes are not held. `h` tells for how long its first write was. -/
def execOndieTransferLanding (k : Nat) (h : HoldObs) (s : State) : Host.Outcome State Fault Refusal :=
  .next (match s.flights[k]? with
  | none => s
  | some f =>
    if !s.mayLand k f then s
    else
      let (rest, s) := landItems f.dst f.items (s.landUpset f.dst h.upset)
      let s := if rest.length < f.items.length then s.landHeld f.dst h.cycles else s
      let fs := if rest.isEmpty then s.flights.eraseIdx k else s.flights.set k { f with items := rest }
      ({ s with flights := fs }).resume)

end Sys2Proof.Machine
end

