-- ==== Sys2Proof/Machine/Loads.lean ====
section
/-!
DEFINITION. The commands of weight loads (R359, R360, R371): chunk packets, stored chunks that the reader reads, and the end of a load.
-/

namespace Sys2Proof.Machine

open Sys2Proof

/-- A DATA packet of a load (R359). -/
def execLoadChunkPacket (r : Rx) (s : State) : Host.Outcome State Fault Refusal :=
  .next (s.frameOf (s.loadOfPkt r.pkt).isSome r)

/-- LOAD_COMPLETE (R360). -/
def execLoadComplete (id : Word) (s : State) : Host.Outcome State Fault Refusal := .next (s.finishLoad id)

/-- LOAD_STALL_TIMEOUT (R360): no new chunk for IGS_LD_TMO; the load fails with 0x0411. -/
def execLoadStallTimeout (id : Word) (s : State) : Host.Outcome State Fault Refusal :=
  .next (match s.loadOf id with
  | none => s
  | some r => if r.registered then s else s.failLoad r 0x0411 (s.parentOf r.desc) (resumePoint r.desc r.written))

/-- STORED_CHUNK_READ (R359): the reader has read its next stored chunk, from host memory or the bulk tier. With its own staging region
full it waits (R371). -/
def execStoredChunkRead (id : Word) (chunk : Nat) (data : List Byte) (s : State) : Host.Outcome State Fault Refusal :=
  .next (match s.liveLoad id with
  | none => s
  | some r => if s.stagingFull r chunk then s else s.readChunk id chunk data)

end Sys2Proof.Machine
end

