-- ==== Sys2Proof/Machine/Matrix.lean ====
section
/-!
DEFINITION. The matrix instructions (R208 to R217).
-/

namespace Sys2Proof.Machine

open Sys2Proof

/-- MLOAD (R210, R211): loads the stationary tile. -/
def execMload (i : Iss) (x : FmtMload) (s : State) : Host.Outcome State Fault Refusal :=
  .next (s.issueOp i (.mload x))

/-- MSTR (R212): streams rows through the stationary tile. -/
def execMstr (i : Iss) (x : FmtMstr) (s : State) : Host.Outcome State Fault Refusal :=
  .next (s.issueOp i (.mstr x))

/-- MSTRT (R212): the transposed stream. -/
def execMstrt (i : Iss) (x : FmtMstr) (s : State) : Host.Outcome State Fault Refusal :=
  .next (s.issueOp i (.mstrt x))

/-- MDRAIN (R213): converts a tile and writes it. -/
def execMdrain (i : Iss) (x : FmtMdrain) (s : State) : Host.Outcome State Fault Refusal :=
  .next (s.issueOp i (.mdrain x))

/-- MEW (R214): products element by element. -/
def execMew (i : Iss) (x : FmtMew) (s : State) : Host.Outcome State Fault Refusal :=
  .next (s.issueOp i (.mew x))

end Sys2Proof.Machine
end

