-- ==== Sys2Proof/Machine/Movement.lean ====
section
/-!
DEFINITION. Movement and calendar arms (R200 to R203), and the release of a held instruction (R249, R254).
-/

namespace Sys2Proof.Machine

open Sys2Proof

/-- MCOPY (R201): copies granules to any core of the device. -/
def execMcopy (i : Iss) (x : FmtM) (s : State) : Host.Outcome State Fault Refusal :=
  .next (s.issueOp i (.mcopy x))

/-- CALARM (R202): arms a calendar ticket. -/
def execCalarm (i : Iss) (x : FmtM) (s : State) : Host.Outcome State Fault Refusal :=
  .next (s.issueOp i (.calarm x))

/-- GATHER (R203): reads rows over the narrow path. -/
def execGather (i : Iss) (x : FmtM) (s : State) : Host.Outcome State Fault Refusal :=
  .next (s.issueOp i (.gather x))

/-- SCATTER (R203): writes rows over the narrow path. -/
def execScatter (i : Iss) (x : FmtM) (s : State) : Host.Outcome State Fault Refusal :=
  .next (s.issueOp i (.scatter x))

/-- A held instruction with what it has come to. -/
def Core.keep (c : Core) (seq : Nat) (g : Progress) : Core :=
  { c with held := c.held.map (fun h => if h.seq = seq then { h with prog := g } else h) }

/-- A try has brought an instruction on. -/
def Progress.movedOn (g h : Progress) : Bool := g.pos != h.pos || g.log.length != h.log.length || g.ord != h.ord

/-- A check that fires when a held instruction goes on: on what it writes or reads then (R174, R179, R378, R379). -/
def State.lateCheck (s : State) (v p : Nat) (i : Issue) (u : Option Upset) : State :=
  match u with
  | none | some .istoreParity | some (.residue _) => s
  | some u => if upsetFits s.stroke.devStroke.toNat i.op u then s.onUpset (s.pointOf v p i.st i.op) u else s

/-- INTERLOCK_RELEASE (R142, R184, R200, R249, R254): the k-th held instruction of a core is tried again. Done, it leaves those held; come
further, it goes on from there; either way the cycles it was held count. Where it is held as before, nothing changes. -/
def execInterlockRelease (v : Fin 128) (k : Nat) (h : HoldObs) (cls : StallClass) (s : State) :
    Host.Outcome State Fault Refusal :=
  .next (match s.holder v with
  | none => s
  | some p =>
    match (s.core p).held[k]? with
    | none => s
    | some i =>
      let lanes := unitOf i.op == .lanes
      match s.tryPerform v p 0 i with
      | (t, none) =>
        let c := t.core p
        ((t.setCore p { c with held := c.held.filter (fun x => x.seq != i.seq) }).lateCheck v p i h.upset).countStall p lanes cls h.cycles
      | (t, some g) =>
        if g.movedOn i.prog then ((t.setCore p ((t.core p).keep i.seq g)).lateCheck v p i h.upset).countStall p lanes cls h.cycles else s)

end Sys2Proof.Machine
end

