-- ==== Sys2Proof/Machine/Network.lean ====
section
/-!
DEFINITION. The network instructions (R204 to R206, R498).
-/

namespace Sys2Proof.Machine

open Sys2Proof

/-- NSEND (R204): sends a message on a flow. -/
def execNsend (i : Iss) (x : FmtM) (s : State) : Host.Outcome State Fault Refusal :=
  .next (s.issueOp i (.nsend x))

/-- NRECV (R205): arms a receive on a flow. -/
def execNrecv (i : Iss) (x : FmtM) (s : State) : Host.Outcome State Fault Refusal :=
  .next (s.issueOp i (.nrecv x))

/-- NCOLL (R206): contributes a node to a collective. -/
def execNcoll (i : Iss) (x : FmtM) (s : State) : Host.Outcome State Fault Refusal :=
  .next (s.issueOp i (.ncoll x))

end Sys2Proof.Machine
end

