-- ==== Sys2Proof/Machine/Pins.lean ====
section
/-!
DEFINITION. The commands of the pins and of the device's states (R155, R431 to R434, R458, R489 to R494): resets, standby, a lost sensor, a
check on filler work, the test access port.
-/

namespace Sys2Proof.Machine

open Sys2Proof

/-! ### Resets (R431, R491) -/

/-- POWER_ON_RESET: the later of the rise of PWRGOOD and the release of RESET_N; BOOT runs up to training. -/
def execPowerOnReset (b : BootObs) (s : State) : Host.Outcome State Fault Refusal := .next (s.powerOn b)

/-- RESET_ASSERT: PWRGOOD falls (`pwrgood` false), or RESET_N has been low for `lowNs`; less than 2 µs is ignored. -/
def execResetAssert (pwrgood : Bool) (lowNs : Nat) (s : State) : Host.Outcome State Fault Refusal :=
  .next (if pwrgood && decide (lowNs < 2000) then s else s.holdReset (pwrgood && s.mgmt.pwrgood))

/-- PERST. -/
def execPerst (s : State) : Host.Outcome State Fault Refusal := .next (s.pciReset 1)

/-- PCIE_HOT_RESET. -/
def execPcieHotReset (s : State) : Host.Outcome State Fault Refusal := .next (s.pciReset 2)

/-- FUNCTION_LEVEL_RESET. -/
def execFunctionLevelReset (s : State) : Host.Outcome State Fault Refusal := .next (s.pciReset 3)

/-! ### Standby, sensors, filler work -/

/-- STANDBY_ENTRY_COMPLETE (R458). A wake that has arrived stays noted, and the ports may rise at once. -/
def execStandbyEntryComplete (s : State) : Host.Outcome State Fault Refusal := .next s.standbyEntered

/-- WAKE_COMPLETE (R458). -/
def execWakeComplete (s : State) : Host.Outcome State Fault Refusal := .next s.woken

/-- SENSOR_TIMEOUT (R434): the bus and address of a sensor that has not answered for 1 s. -/
def execSensorTimeout (bus : BitVec 4) (addr : BitVec 10) (s : State) : Host.Outcome State Fault Refusal :=
  .next (if s.firmwareRuns then s.raiseM 0x0809 pgMss 0 0 (bus.toNat * 2 ^ 28 + addr.toNat) else s)

/-- FILLER_RESIDUE_MISMATCH (R79, R155): a check on planish filler work of engine `e` of core `p` fails; TILE and the waiter are 0. Of an
ACTIVE core in RUN it breaks the replica and leaves a record, as work does (R380, R384). -/
def execFillerResidueMismatch (p : Fin 144) (e : Fin 4) (o : FillerObs) (s : State) : Host.Outcome State Fault Refusal :=
  .next (
    let r := s.roleOf p.val
    if !s.clockRuns || r.role == .disabled || o.observed == o.predicted then s
    else
      let cap0 := resCap0 0 o.row.toNat o.col.toNat o.lane.toNat o.cls true o.trans o.split
      let cap1 := o.block.toNat
      (s.bump (Reg.meResCnt p.val e.val) 1).residueHit p.val r.v e.val cap0 cap1 o.observed.toNat o.predicted.toNat 0 0 s.stroke.jobStroke
        ⟨if o.cls then 2 else 1, e.val, 0, s.ordinal p.val e.val, cap0, cap1, o.observed.toNat, o.predicted.toNat⟩)

/-! ### JTAG (R494) -/

/-- The instruction that a decoded code selects; any other code is BYPASS. -/
def jtagOpOf : Nat → JtagOp
  | 1 => .idcode
  | 2 => .samplePreload
  | 3 => .extest
  | 4 => .clamp
  | 5 => .highz
  | _ => .bypass

/-- EXTEST, CLAMP and HIGHZ act only with PWRGOOD high and RESET_N low. -/
def State.jtagEff (s : State) : JtagOp :=
  match s.mgmt.jtag.op with
  | .extest => if s.mgmt.pwrgood && !s.mgmt.resetN then .extest else .bypass
  | .clamp => if s.mgmt.pwrgood && !s.mgmt.resetN then .clamp else .bypass
  | .highz => if s.mgmt.pwrgood && !s.mgmt.resetN then .highz else .bypass
  | o => o

/-- The TAP controller's next state. -/
def Tap.next : Tap → Bool → Tap
  | .reset, tms => if tms then .reset else .idle
  | .idle, tms => if tms then .selDr else .idle
  | .selDr, tms => if tms then .selIr else .capDr
  | .capDr, tms => if tms then .ex1Dr else .shDr
  | .shDr, tms => if tms then .ex1Dr else .shDr
  | .ex1Dr, tms => if tms then .updDr else .pauDr
  | .pauDr, tms => if tms then .ex2Dr else .pauDr
  | .ex2Dr, tms => if tms then .updDr else .shDr
  | .updDr, tms => if tms then .selDr else .idle
  | .selIr, tms => if tms then .reset else .capIr
  | .capIr, tms => if tms then .ex1Ir else .shIr
  | .shIr, tms => if tms then .ex1Ir else .shIr
  | .ex1Ir, tms => if tms then .updIr else .pauIr
  | .pauIr, tms => if tms then .ex2Ir else .pauIr
  | .ex2Ir, tms => if tms then .updIr else .shIr
  | .updIr, tms => if tms then .selDr else .idle

/-- Shifts one bit in at the top; the lowest goes out. -/
def shiftIn (l : List Bool) (b : Bool) : List Bool := (l ++ [b]).drop 1

/-- `n` free bits, one draw each: what a register captures that holds no state of this model, the levels of lands and the
bits of Capture-IR (log entry 7). -/
def State.freeBits : Nat → State → List Bool × State
  | 0, s => ([], s)
  | n + 1, s =>
    let (f, s) := s.draw
    let (bs, s) := State.freeBits n s
    (f.getLsbD 0 :: bs, s)

/-- IDCODE (R496): the stepping in 31:28 (1 for A1, 2 for B0), the part in 27:12 (0x5A07 for FZ7-128, 0x5A06 for FZ7-112), the
manufacturer 0x3D5 in 11:1, and 1. -/
def State.idcode (s : State) : Word :=
  wOf ((if s.fuses.stepping = 0xB0 then 2 else 1) * 0x10000000 + (if s.fuses.activeCores = 0x80 then 0x5A07 else 0x5A06) * 0x1000 +
    0x3D5 * 2 + 1)

/-- Capture in Capture-DR: the identification code is shifted out from its bit 0. -/
def State.captureDr (s : State) : List Bool × State :=
  match s.jtagEff with
  | .idcode => ((List.range 32).map (fun k => s.idcode.getLsbD k), s)
  | .samplePreload | .extest => State.freeBits Config.jtagBsrLen s
  | .bypass | .clamp | .highz => ([false], s)

/-- Capture in Capture-IR: the lowest bits are 01. -/
def State.captureIr (s : State) : List Bool × State :=
  let (bs, s) := State.freeBits (Config.jtagIrLen - 2) s
  (true :: false :: bs, s)

/-- The latches of the update states and of Test-Logic-Reset. -/
def State.jtagLatch (s : State) (t : Tap) : State :=
  let j := s.mgmt.jtag
  let j : JtagSt := match t with
    | .reset => { j with tap := t, op := .idcode }
    | .updIr => { j with tap := t, op := jtagOpOf (Config.jtagDecode j.ir) }
    | .updDr => (match s.jtagEff with
      | .samplePreload | .extest => { j with tap := t, bsr := j.dr }
      | _ => { j with tap := t })
    | .shIr => { j with tap := t, tdo := j.ir.headD false }
    | .shDr => { j with tap := t, tdo := j.dr.headD false }
    | _ => { j with tap := t }
  { s with mgmt := { s.mgmt with jtag := j } }

def State.setIr (s : State) (l : List Bool) : State := { s with mgmt := { s.mgmt with jtag := { s.mgmt.jtag with ir := l } } }
def State.setDr (s : State) (l : List Bool) : State := { s with mgmt := { s.mgmt with jtag := { s.mgmt.jtag with dr := l } } }

/-- One TCK: the work of the present state, and the state that TMS selects. -/
def State.tck (s : State) (tms tdi : Bool) : State :=
  let j := s.mgmt.jtag
  let s := match j.tap with
    | .capDr => let (l, s) := s.captureDr; s.setDr l
    | .capIr => let (l, s) := s.captureIr; s.setIr l
    | .shDr => s.setDr (shiftIn j.dr tdi)
    | .shIr => s.setIr (shiftIn j.ir tdi)
    | _ => s
  s.jtagLatch (j.tap.next tms)

/-- JTAG_TCK: a TCK edge, or TRST_N low. Without PWRGOOD the port has no power. -/
def execJtagTck (e : JtagEdge) (s : State) : Host.Outcome State Fault Refusal :=
  .next (if !s.mgmt.pwrgood then s
    else match e with
    | .trst => s.jtagLatch .reset
    | .tck tms tdi => s.tck tms tdi)

end Sys2Proof.Machine
end

