-- ==== Sys2Proof/Machine/Predicate.lean ====
section
/-!
DEFINITION. The predicate instructions (R193).
-/

namespace Sys2Proof.Machine

open Sys2Proof

/-- PAND (R193): and. -/
def execPand (i : Iss) (x : FmtP) (s : State) : Host.Outcome State Fault Refusal :=
  .next (s.issueOp i (.pand x))

/-- POR (R193): or. -/
def execPor (i : Iss) (x : FmtP) (s : State) : Host.Outcome State Fault Refusal :=
  .next (s.issueOp i (.por x))

/-- PXOR (R193): exclusive or. -/
def execPxor (i : Iss) (x : FmtP) (s : State) : Host.Outcome State Fault Refusal :=
  .next (s.issueOp i (.pxor x))

/-- PANDN (R193): and with the complement. -/
def execPandn (i : Iss) (x : FmtP) (s : State) : Host.Outcome State Fault Refusal :=
  .next (s.issueOp i (.pandn x))

/-- PFIRST (R193): the first n bits. -/
def execPfirst (i : Iss) (x : FmtP) (s : State) : Host.Outcome State Fault Refusal :=
  .next (s.issueOp i (.pfirst x))

/-- PCNT (R193): the number of set bits. -/
def execPcnt (i : Iss) (x : FmtP) (s : State) : Host.Outcome State Fault Refusal :=
  .next (s.issueOp i (.pcnt x))

end Sys2Proof.Machine
end

