-- ==== Sys2Proof/Machine/Scalar.lean ====
section
/-!
DEFINITION. The scalar instructions (R192).
-/

namespace Sys2Proof.Machine

open Sys2Proof

/-- ADD (R192): the sum modulo 2^64. -/
def execAdd (i : Iss) (x : FmtR) (s : State) : Host.Outcome State Fault Refusal :=
  .next (s.issueOp i (.add x))

/-- SUB (R192): the difference modulo 2^64. -/
def execSub (i : Iss) (x : FmtR) (s : State) : Host.Outcome State Fault Refusal :=
  .next (s.issueOp i (.sub x))

/-- MUL (R192): the low 64 bits of the product. -/
def execMul (i : Iss) (x : FmtR) (s : State) : Host.Outcome State Fault Refusal :=
  .next (s.issueOp i (.mul x))

/-- AND (R192): bitwise and. -/
def execAnd (i : Iss) (x : FmtR) (s : State) : Host.Outcome State Fault Refusal :=
  .next (s.issueOp i (.and x))

/-- OR (R192): bitwise or. -/
def execOr (i : Iss) (x : FmtR) (s : State) : Host.Outcome State Fault Refusal :=
  .next (s.issueOp i (.or x))

/-- XOR (R192): bitwise exclusive or. -/
def execXor (i : Iss) (x : FmtR) (s : State) : Host.Outcome State Fault Refusal :=
  .next (s.issueOp i (.xor x))

/-- SHL (R192): shift left by fmod(b, 64). -/
def execShl (i : Iss) (x : FmtR) (s : State) : Host.Outcome State Fault Refusal :=
  .next (s.issueOp i (.shl x))

/-- SHR (R192): logical shift right by fmod(b, 64). -/
def execShr (i : Iss) (x : FmtR) (s : State) : Host.Outcome State Fault Refusal :=
  .next (s.issueOp i (.shr x))

/-- SRA (R192): arithmetic shift right by fmod(b, 64). -/
def execSra (i : Iss) (x : FmtR) (s : State) : Host.Outcome State Fault Refusal :=
  .next (s.issueOp i (.sra x))

/-- MIN (R192): the smaller, as i64. -/
def execMin (i : Iss) (x : FmtR) (s : State) : Host.Outcome State Fault Refusal :=
  .next (s.issueOp i (.min x))

/-- MAX (R192): the larger, as i64. -/
def execMax (i : Iss) (x : FmtR) (s : State) : Host.Outcome State Fault Refusal :=
  .next (s.issueOp i (.max x))

/-- MINU (R192): the smaller, as u64. -/
def execMinu (i : Iss) (x : FmtR) (s : State) : Host.Outcome State Fault Refusal :=
  .next (s.issueOp i (.minu x))

/-- MAXU (R192): the larger, as u64. -/
def execMaxu (i : Iss) (x : FmtR) (s : State) : Host.Outcome State Fault Refusal :=
  .next (s.issueOp i (.maxu x))

/-- CMP (R192): 1 where the condition holds. -/
def execCmp (i : Iss) (x : FmtR) (s : State) : Host.Outcome State Fault Refusal :=
  .next (s.issueOp i (.cmp x))

/-- SEL (R192): one of two values by a scalar. -/
def execSel (i : Iss) (x : FmtR) (s : State) : Host.Outcome State Fault Refusal :=
  .next (s.issueOp i (.sel x))

/-- LI (R192): an immediate. -/
def execLi (i : Iss) (x : FmtI) (s : State) : Host.Outcome State Fault Refusal :=
  .next (s.issueOp i (.li x))

/-- LIH (R192): an immediate above the low 44 bits. -/
def execLih (i : Iss) (x : FmtI) (s : State) : Host.Outcome State Fault Refusal :=
  .next (s.issueOp i (.lih x))

/-- LDS (R192): 8 bytes of own memory. -/
def execLds (i : Iss) (x : FmtI) (s : State) : Host.Outcome State Fault Refusal :=
  .next (s.issueOp i (.lds x))

/-- STS (R192): 8 bytes to own memory. -/
def execSts (i : Iss) (x : FmtI) (s : State) : Host.Outcome State Fault Refusal :=
  .next (s.issueOp i (.sts x))

end Sys2Proof.Machine
end

