-- ==== Sys2Proof/Machine/Steps.lean ====
section
/-!
DEFINITION. Commands of step boundaries and layout epochs (R307, R319, R324, R334, R335, R347, R352).
-/

namespace Sys2Proof.Machine

open Sys2Proof

/-- EPOCH_DRAIN_COMPLETE (R324). -/
def execEpochDrainComplete (s : State) : Host.Outcome State Fault Refusal := .next (if s.netOpen then s else s.epochDrained)

/-- EPOCH_DRAIN_TIMEOUT (R324). -/
def execEpochDrainTimeout (s : State) : Host.Outcome State Fault Refusal := .next s.epochStuck

/-- TWIN_RESTORE_COMPLETE (R352): what is restored is here, and the digest is the twin's. -/
def execTwinRestoreComplete (digest : List Byte) (s : State) : Host.Outcome State Fault Refusal := .next (s.restoreDone digest)

/-- REPLAY_RECORD_ARRIVAL (R347): a sound record of this step or one of the two that follow is kept; what waited for it goes on. -/
def execReplayRecordArrival (record : List Byte) (s : State) : Host.Outcome State Fault Refusal :=
  .next (match recordOf record with
    | none => s
    | some r =>
      let ahead := (r.step - s.stroke.step).toNat
      if s.job.present && s.job.params.replay && decide (ahead ≤ 2) then (s.takeReplay r).resume else s)

/-- VOTE_DEADLINE (R334): the coordinator that holds a vote forms the verdict from those it has. -/
def execVoteDeadline (s : State) : Host.Outcome State Fault Refusal :=
  .next (if s.job.present && !s.job.params.replay && s.member == s.job.params.coord && !s.stp.votes.isEmpty && s.stp.verdict.isNone
    then s.issueVerdict.resume else s)

/-- VERDICT_TAKEOVER (R319, R334): the backup, its own vote sent and no verdict come, takes over as coordinator. -/
def execVerdictTakeover (s : State) : Host.Outcome State Fault Refusal :=
  .next (if s.job.present && s.member == s.job.params.backup && s.stp.votedStep == some s.stroke.step && s.stp.verdict.isNone &&
      s.stroke.hold == .verdict
    then s.issueVerdict.resume else s)

/-- VERDICT_RESEND (R307): a member whose verdict failed is sent it again. -/
def execVerdictResend (s : State) : Host.Outcome State Fault Refusal :=
  .next (match s.stp.lastVerdict with
    | none => s
    | some v => s.stp.owed.foldl (fun s m => s.sendAgree m 0 0 v.step (verdictBytes v)) s)

end Sys2Proof.Machine
end

