-- ==== Sys2Proof/Machine/Stroke.lean ====
section
/-!
DEFINITION. The commands of the stroke (R61, R71 to R74, R385, R429): cycle 2^n, the end of a stretch, the boundary, the end of an assay
job and of a drain.
-/

namespace Sys2Proof.Machine

open Sys2Proof

/-- STROKE_END_REACHED: under STRETCH a late stroke goes on, under FAULT it is given up with 0x0303 (R71, R72, R74). -/
def execStrokeEndReached (s : State) : Host.Outcome State Fault Refusal :=
  .next (if !s.clockRuns || s.stroke.hold != .no || s.lateStreams.isEmpty then s
    else if s.rbit Reg.stkStrokeCfg 8 then s.giveUp 0x0303
    else { s with stroke := { s.stroke with stretched := true } })

/-- STRETCH_MAX_EXPIRY: a stretched stroke is given up with 0x0302; STRETCH_MAX 0 sets no limit (R60, R73). -/
def execStretchMaxExpiry (s : State) : Host.Outcome State Fault Refusal :=
  .next (if s.clockRuns && s.stroke.stretched && !s.stroke.hung && s.rfield Reg.stkStrokeCfg 16 8 != 0 then s.giveUp 0x0302 else s)

/-- STROKE_BOUNDARY (R61). -/
def execStrokeBoundary (b : BoundaryObs) (s : State) : Host.Outcome State Fault Refusal :=
  .next (if s.mayFall then s.boundary b else s)

/-- ASSAY_LIMIT_REACHED (R385, R386). -/
def execAssayLimitReached (s : State) : Host.Outcome State Fault Refusal :=
  .next (if s.assayOver && s.stroke.hold == .no then s.endAssay else s)

/-- DRAIN_COMPLETE: the device leaves DRAIN at the next boundary (R429). -/
def execDrainComplete (s : State) : Host.Outcome State Fault Refusal :=
  .next (if s.mgmt.dev == .drain && s.stroke.hold == .no && !s.drainOpen then
    { s with stroke := { s.stroke with drained := true } } else s)

/-- DRAIN_LIMIT_EXPIRY: what remains is abandoned with 0x0806, and the device leaves DRAIN at the next boundary (R429). -/
def execDrainLimitExpiry (s : State) : Host.Outcome State Fault Refusal :=
  .next (if s.mgmt.dev == .drain && !s.stroke.drained then
    let n := s.openOps
    let s := s.abandonWork.raiseM 0x0806 pgMss 0 0 n
    { s with stroke := { s.stroke with drained := true } }
  else s)

end Sys2Proof.Machine
end

