-- ==== Sys2Proof/Machine/Sync.lean ====
section
/-!
DEFINITION. Sync counters, waits, signals and hints (R76 to R78, R194 to R199).
-/

namespace Sys2Proof.Machine

open Sys2Proof

/-- SCADD (R194): adds to a sync counter. -/
def execScadd (i : Iss) (x : FmtC) (s : State) : Host.Outcome State Fault Refusal :=
  .next (s.issueOp i (.scadd x))

/-- SCSUB (R194): subtracts from a sync counter. -/
def execScsub (i : Iss) (x : FmtC) (s : State) : Host.Outcome State Fault Refusal :=
  .next (s.issueOp i (.scsub x))

/-- WAIT (R195): holds the stream until a condition on a counter holds. -/
def execWait (i : Iss) (x : FmtC) (s : State) : Host.Outcome State Fault Refusal :=
  .next (s.issueOp i (.wait x))

/-- SIGNAL (R197): adds to a counter of a core of this device. -/
def execSignal (i : Iss) (x : FmtS) (s : State) : Host.Outcome State Fault Refusal :=
  .next (s.issueOp i (.signal x))

/-- HINT (R199): announces a heavy phase. -/
def execHint (i : Iss) (x : FmtH) (s : State) : Host.Outcome State Fault Refusal :=
  .next (s.issueOp i (.hint x))

/-- A lockstep mismatch on a wait that is satisfied (R174, point 6). -/
def State.waitCheck (s : State) (v p : Nat) (st : Stream) (u : Option Upset) : State :=
  match u with
  | some (.lockstep cycle items) =>
    if items.all (fun x => x.point == 6) then s.onLockstep (s.pointOf v p st .nop) cycle items else s
  | _ => s

/-- WAIT_SATISFIED (R195, R196): the test holds, a consuming wait subtracts, and the stream goes on. `h` tells how long it was held
(R474); the lockstep compares the wait (R174, point 6). -/
def execWaitSatisfied (v : Fin 128) (st : Stream) (h : HoldObs) (s : State) : Host.Outcome State Fault Refusal :=
  .next (match s.holder v with
  | none => s
  | some p =>
    let c := s.core p
    match waitOf (c.stream st) with
    | none => s
    | some w =>
      if earlierHolds c st w then s
      else match waitTest w (.fresh c) with
        | none => s
        | some r => ((s.setCore p (r.setPhase st .run).c).waitCheck v p st h.upset).bumpPair (Reg.synWaitCycLo p) h.cycles)

/-- The waiter identifier of R78. -/
def waiterWord (member v : Nat) (st : Stream) : Nat :=
  member * 2 ^ 19 + v / 8 * 2 ^ 15 + v % 8 * 2 ^ 12 + st.codeNat * 2 ^ 10

/-- WAIT_TIMEOUT (R78, R195): the stream halts, 0x0203 is raised, and the device enters DRAIN at the next boundary. -/
def execWaitTimeout (v : Fin 128) (st : Stream) (s : State) : Host.Outcome State Fault Refusal :=
  .next (match s.holder v with
  | none => s
  | some p =>
    let c := s.core p
    match waitOf (c.stream st) with
    | none => s
    | some w =>
      let x := tget 0 c.ctr w.ctr
      if waitHolds w.cond x w.operand then s
      else
        let s := s.setCore p (c.setStream st { c.stream st with phase := .halted false })
        let s := s.bumpPair (Reg.synWaitCycLo p) (w.tmo * 2 ^ s.stroke.n)
        let s := s.coreRaise p v 0x0203 w.ctr (waiterWord s.member v st) x.toNat []
        { s with stroke := { s.stroke with drainNext := true } })

end Sys2Proof.Machine
end

