-- ==== Sys2Proof/Machine/VectorLane.lean ====
section
/-!
DEFINITION. The vector instructions that work between registers (R218 to R224).
-/

namespace Sys2Proof.Machine

open Sys2Proof

/-- VADD (R219): sum. -/
def execVadd (i : Iss) (x : FmtV) (s : State) : Host.Outcome State Fault Refusal :=
  .next (s.issueOp i (.vadd x))

/-- VSUB (R219): difference. -/
def execVsub (i : Iss) (x : FmtV) (s : State) : Host.Outcome State Fault Refusal :=
  .next (s.issueOp i (.vsub x))

/-- VMUL (R219): product. -/
def execVmul (i : Iss) (x : FmtV) (s : State) : Host.Outcome State Fault Refusal :=
  .next (s.issueOp i (.vmul x))

/-- VFMA (R219): fused multiply and add. -/
def execVfma (i : Iss) (x : FmtV) (s : State) : Host.Outcome State Fault Refusal :=
  .next (s.issueOp i (.vfma x))

/-- VMIN (R219): minimum. -/
def execVmin (i : Iss) (x : FmtV) (s : State) : Host.Outcome State Fault Refusal :=
  .next (s.issueOp i (.vmin x))

/-- VMAX (R219): maximum. -/
def execVmax (i : Iss) (x : FmtV) (s : State) : Host.Outcome State Fault Refusal :=
  .next (s.issueOp i (.vmax x))

/-- VCMP (R219): comparison into a predicate. -/
def execVcmp (i : Iss) (x : FmtV) (s : State) : Host.Outcome State Fault Refusal :=
  .next (s.issueOp i (.vcmp x))

/-- VSEL (R219): selection by a predicate. -/
def execVsel (i : Iss) (x : FmtV) (s : State) : Host.Outcome State Fault Refusal :=
  .next (s.issueOp i (.vsel x))

/-- VAND (R219): bitwise and. -/
def execVand (i : Iss) (x : FmtV) (s : State) : Host.Outcome State Fault Refusal :=
  .next (s.issueOp i (.vand x))

/-- VOR (R219): bitwise or. -/
def execVor (i : Iss) (x : FmtV) (s : State) : Host.Outcome State Fault Refusal :=
  .next (s.issueOp i (.vor x))

/-- VXOR (R219): bitwise exclusive or. -/
def execVxor (i : Iss) (x : FmtV) (s : State) : Host.Outcome State Fault Refusal :=
  .next (s.issueOp i (.vxor x))

/-- VSHL (R219): shift left. -/
def execVshl (i : Iss) (x : FmtV) (s : State) : Host.Outcome State Fault Refusal :=
  .next (s.issueOp i (.vshl x))

/-- VSHR (R219): logical shift right. -/
def execVshr (i : Iss) (x : FmtV) (s : State) : Host.Outcome State Fault Refusal :=
  .next (s.issueOp i (.vshr x))

/-- VSRA (R219): arithmetic shift right. -/
def execVsra (i : Iss) (x : FmtV) (s : State) : Host.Outcome State Fault Refusal :=
  .next (s.issueOp i (.vsra x))

/-- VSGN (R219): sign operations. -/
def execVsgn (i : Iss) (x : FmtV) (s : State) : Host.Outcome State Fault Refusal :=
  .next (s.issueOp i (.vsgn x))

/-- VCVT (R220): conversion between modes. -/
def execVcvt (i : Iss) (x : FmtV) (s : State) : Host.Outcome State Fault Refusal :=
  .next (s.issueOp i (.vcvt x))

/-- VRND (R221): rounding to a narrow format. -/
def execVrnd (i : Iss) (x : FmtV) (s : State) : Host.Outcome State Fault Refusal :=
  .next (s.issueOp i (.vrnd x))

/-- VTR (R222): transcendental functions. -/
def execVtr (i : Iss) (x : FmtV) (s : State) : Host.Outcome State Fault Refusal :=
  .next (s.issueOp i (.vtr x))

/-- VRED (R223): reduction to a scalar. -/
def execVred (i : Iss) (x : FmtV) (s : State) : Host.Outcome State Fault Refusal :=
  .next (s.issueOp i (.vred x))

/-- VCPR (R224): compress. -/
def execVcpr (i : Iss) (x : FmtV) (s : State) : Host.Outcome State Fault Refusal :=
  .next (s.issueOp i (.vcpr x))

/-- VXPD (R224): expand. -/
def execVxpd (i : Iss) (x : FmtV) (s : State) : Host.Outcome State Fault Refusal :=
  .next (s.issueOp i (.vxpd x))

end Sys2Proof.Machine
end

