-- ==== Sys2Proof/Machine/VectorMem.lean ====
section
/-!
DEFINITION. Vector loads and stores, the compress buffer, FLAGS and VSTAT (R224 to R230).
-/

namespace Sys2Proof.Machine

open Sys2Proof

/-- VCPST (R224): compresses into a buffer. -/
def execVcpst (i : Iss) (x : FmtVB) (s : State) : Host.Outcome State Fault Refusal :=
  .next (s.issueOp i (.vcpst x))

/-- VXPLD (R224): expands from a buffer. -/
def execVxpld (i : Iss) (x : FmtVB) (s : State) : Host.Outcome State Fault Refusal :=
  .next (s.issueOp i (.vxpld x))

/-- VLD (R226): vector load. -/
def execVld (i : Iss) (x : FmtVM) (s : State) : Host.Outcome State Fault Refusal :=
  .next (s.issueOp i (.vld x))

/-- VST (R227): vector store. -/
def execVst (i : Iss) (x : FmtVM) (s : State) : Host.Outcome State Fault Refusal :=
  .next (s.issueOp i (.vst x))

/-- FLAGS (R229): reads and clears the numeric flags. -/
def execFlags (i : Iss) (x : FmtFlags) (s : State) : Host.Outcome State Fault Refusal :=
  .next (s.issueOp i (.flags x))

/-- VSTAT (R230): hands a value to the step statistics unit. -/
def execVstat (i : Iss) (x : FmtVstat) (s : State) : Host.Outcome State Fault Refusal :=
  .next (s.issueOp i (.vstat x))

end Sys2Proof.Machine
end

