-- ==== Sys2Proof/Machine/Dispatch.lean ====
section
/-!
DEFINITION. One arm for each command: its meaning.
-/

namespace Sys2Proof.Machine

open Sys2Proof

def exec (i : Instr) (s : State) : Host.Outcome State Fault Refusal :=
  match i with
  | .nop j => Sys2Proof.Machine.execNop j s
  | .stend j => Sys2Proof.Machine.execStend j s
  | .jobend j => Sys2Proof.Machine.execJobend j s
  | .commit j => Sys2Proof.Machine.execCommit j s
  | .slotpat j x => Sys2Proof.Machine.execSlotpat j x s
  | .loop j x => Sys2Proof.Machine.execLoop j x s
  | .rdspec j x => Sys2Proof.Machine.execRdspec j x s
  | .add j x => Sys2Proof.Machine.execAdd j x s
  | .sub j x => Sys2Proof.Machine.execSub j x s
  | .mul j x => Sys2Proof.Machine.execMul j x s
  | .and j x => Sys2Proof.Machine.execAnd j x s
  | .or j x => Sys2Proof.Machine.execOr j x s
  | .xor j x => Sys2Proof.Machine.execXor j x s
  | .shl j x => Sys2Proof.Machine.execShl j x s
  | .shr j x => Sys2Proof.Machine.execShr j x s
  | .sra j x => Sys2Proof.Machine.execSra j x s
  | .min j x => Sys2Proof.Machine.execMin j x s
  | .max j x => Sys2Proof.Machine.execMax j x s
  | .minu j x => Sys2Proof.Machine.execMinu j x s
  | .maxu j x => Sys2Proof.Machine.execMaxu j x s
  | .cmp j x => Sys2Proof.Machine.execCmp j x s
  | .sel j x => Sys2Proof.Machine.execSel j x s
  | .li j x => Sys2Proof.Machine.execLi j x s
  | .lih j x => Sys2Proof.Machine.execLih j x s
  | .lds j x => Sys2Proof.Machine.execLds j x s
  | .sts j x => Sys2Proof.Machine.execSts j x s
  | .pand j x => Sys2Proof.Machine.execPand j x s
  | .por j x => Sys2Proof.Machine.execPor j x s
  | .pxor j x => Sys2Proof.Machine.execPxor j x s
  | .pandn j x => Sys2Proof.Machine.execPandn j x s
  | .pfirst j x => Sys2Proof.Machine.execPfirst j x s
  | .pcnt j x => Sys2Proof.Machine.execPcnt j x s
  | .scadd j x => Sys2Proof.Machine.execScadd j x s
  | .scsub j x => Sys2Proof.Machine.execScsub j x s
  | .wait j x => Sys2Proof.Machine.execWait j x s
  | .waitSatisfied v st h => Sys2Proof.Machine.execWaitSatisfied v st h s
  | .waitTimeout v st => Sys2Proof.Machine.execWaitTimeout v st s
  | .signal j x => Sys2Proof.Machine.execSignal j x s
  | .hint j x => Sys2Proof.Machine.execHint j x s
  | .mcopy j x => Sys2Proof.Machine.execMcopy j x s
  | .ondieTransferLanding k h => Sys2Proof.Machine.execOndieTransferLanding k h s
  | .calarm j x => Sys2Proof.Machine.execCalarm j x s
  | .gather j x => Sys2Proof.Machine.execGather j x s
  | .scatter j x => Sys2Proof.Machine.execScatter j x s
  | .nsend j x => Sys2Proof.Machine.execNsend j x s
  | .nrecv j x => Sys2Proof.Machine.execNrecv j x s
  | .ncoll j x => Sys2Proof.Machine.execNcoll j x s
  | .mload j x => Sys2Proof.Machine.execMload j x s
  | .mstr j x => Sys2Proof.Machine.execMstr j x s
  | .mstrt j x => Sys2Proof.Machine.execMstrt j x s
  | .mdrain j x => Sys2Proof.Machine.execMdrain j x s
  | .mew j x => Sys2Proof.Machine.execMew j x s
  | .vadd j x => Sys2Proof.Machine.execVadd j x s
  | .vsub j x => Sys2Proof.Machine.execVsub j x s
  | .vmul j x => Sys2Proof.Machine.execVmul j x s
  | .vfma j x => Sys2Proof.Machine.execVfma j x s
  | .vmin j x => Sys2Proof.Machine.execVmin j x s
  | .vmax j x => Sys2Proof.Machine.execVmax j x s
  | .vcmp j x => Sys2Proof.Machine.execVcmp j x s
  | .vsel j x => Sys2Proof.Machine.execVsel j x s
  | .vand j x => Sys2Proof.Machine.execVand j x s
  | .vor j x => Sys2Proof.Machine.execVor j x s
  | .vxor j x => Sys2Proof.Machine.execVxor j x s
  | .vshl j x => Sys2Proof.Machine.execVshl j x s
  | .vshr j x => Sys2Proof.Machine.execVshr j x s
  | .vsra j x => Sys2Proof.Machine.execVsra j x s
  | .vsgn j x => Sys2Proof.Machine.execVsgn j x s
  | .vcvt j x => Sys2Proof.Machine.execVcvt j x s
  | .vrnd j x => Sys2Proof.Machine.execVrnd j x s
  | .vtr j x => Sys2Proof.Machine.execVtr j x s
  | .vred j x => Sys2Proof.Machine.execVred j x s
  | .vcpr j x => Sys2Proof.Machine.execVcpr j x s
  | .vxpd j x => Sys2Proof.Machine.execVxpd j x s
  | .vcpst j x => Sys2Proof.Machine.execVcpst j x s
  | .vxpld j x => Sys2Proof.Machine.execVxpld j x s
  | .vld j x => Sys2Proof.Machine.execVld j x s
  | .vst j x => Sys2Proof.Machine.execVst j x s
  | .flags j x => Sys2Proof.Machine.execFlags j x s
  | .vstat j x => Sys2Proof.Machine.execVstat j x s
  | .fetchBeyondStore v st => Sys2Proof.Machine.execFetchBeyondStore v st s
  | .interlockRelease v k h cls => Sys2Proof.Machine.execInterlockRelease v k h cls s
  | .strokeEndReached => Sys2Proof.Machine.execStrokeEndReached s
  | .stretchMaxExpiry => Sys2Proof.Machine.execStretchMaxExpiry s
  | .strokeBoundary b => Sys2Proof.Machine.execStrokeBoundary b s
  | .jobStart e => Sys2Proof.Machine.execJobStart e s
  | .abort e => Sys2Proof.Machine.execAbort e s
  | .setCap e => Sys2Proof.Machine.execSetCap e s
  | .setSetting e => Sys2Proof.Machine.execSetSetting e s
  | .epoch e => Sys2Proof.Machine.execEpoch e s
  | .loadWeights e => Sys2Proof.Machine.execLoadWeights e s
  | .stage e => Sys2Proof.Machine.execStage e s
  | .unseal e => Sys2Proof.Machine.execUnseal e s
  | .retrain e => Sys2Proof.Machine.execRetrain e s
  | .burnishRun e => Sys2Proof.Machine.execBurnishRun e s
  | .standby e => Sys2Proof.Machine.execStandby e s
  | .fwUpdate e => Sys2Proof.Machine.execFwUpdate e s
  | .svnAdvance e => Sys2Proof.Machine.execSvnAdvance e s
  | .wallNote e => Sys2Proof.Machine.execWallNote e s
  | .commandFetchArrival e => Sys2Proof.Machine.execCommandFetchArrival e s
  | .stageComplete tag data => Sys2Proof.Machine.execStageComplete tag data s
  | .burnishTestComplete p runs => Sys2Proof.Machine.execBurnishTestComplete p runs s
  | .burnishDue p => Sys2Proof.Machine.execBurnishDue p s
  | .deferMaxExpiry p => Sys2Proof.Machine.execDeferMaxExpiry p s
  | .pauseSliceEnd p => Sys2Proof.Machine.execPauseSliceEnd p s
  | .rotationCopyComplete f => Sys2Proof.Machine.execRotationCopyComplete f s
  | .packImageInstall image => Sys2Proof.Machine.execPackImageInstall image s
  | .assayLimitReached => Sys2Proof.Machine.execAssayLimitReached s
  | .drainComplete => Sys2Proof.Machine.execDrainComplete s
  | .drainLimitExpiry => Sys2Proof.Machine.execDrainLimitExpiry s
  | .epochDrainComplete => Sys2Proof.Machine.execEpochDrainComplete s
  | .epochDrainTimeout => Sys2Proof.Machine.execEpochDrainTimeout s
  | .twinRestoreComplete digest => Sys2Proof.Machine.execTwinRestoreComplete digest s
  | .igsumDataPacket r => Sys2Proof.Machine.execIgsumDataPacket r s
  | .contribPacket r => Sys2Proof.Machine.execContribPacket r s
  | .resultPacket r => Sys2Proof.Machine.execResultPacket r s
  | .ack r => Sys2Proof.Machine.execAck r s
  | .nack r => Sys2Proof.Machine.execNack r s
  | .report r => Sys2Proof.Machine.execReport r s
  | .decision r => Sys2Proof.Machine.execDecision r s
  | .vote r => Sys2Proof.Machine.execVote r s
  | .verdict r => Sys2Proof.Machine.execVerdict r s
  | .withdraw r => Sys2Proof.Machine.execWithdraw r s
  | .reportAgain r => Sys2Proof.Machine.execReportAgain r s
  | .hello r => Sys2Proof.Machine.execHello r s
  | .heartbeat r => Sys2Proof.Machine.execHeartbeat r s
  | .pace r => Sys2Proof.Machine.execPace r s
  | .blame r => Sys2Proof.Machine.execBlame r s
  | .loadChunkPacket r => Sys2Proof.Machine.execLoadChunkPacket r s
  | .loadComplete id => Sys2Proof.Machine.execLoadComplete id s
  | .loadStallTimeout id => Sys2Proof.Machine.execLoadStallTimeout id s
  | .linkRetryRequest q frame => Sys2Proof.Machine.execLinkRetryRequest q frame s
  | .linkReplayTimeout q frame => Sys2Proof.Machine.execLinkReplayTimeout q frame s
  | .resendTimeout fl seq => Sys2Proof.Machine.execResendTimeout fl seq s
  | .ackTimer fl => Sys2Proof.Machine.execAckTimer fl s
  | .heartbeatTimer => Sys2Proof.Machine.execHeartbeatTimer s
  | .peerSilentTimeout m ms => Sys2Proof.Machine.execPeerSilentTimeout m ms s
  | .collectiveDeadline coll seg late => Sys2Proof.Machine.execCollectiveDeadline coll seg late s
  | .backupTakeover coll seg => Sys2Proof.Machine.execBackupTakeover coll seg s
  | .resultSegmentTimeout coll seg => Sys2Proof.Machine.execResultSegmentTimeout coll seg s
  | .voteDeadline => Sys2Proof.Machine.execVoteDeadline s
  | .verdictTakeover => Sys2Proof.Machine.execVerdictTakeover s
  | .verdictResend => Sys2Proof.Machine.execVerdictResend s
  | .blameTallyTimer suspect => Sys2Proof.Machine.execBlameTallyTimer suspect s
  | .paceResend => Sys2Proof.Machine.execPaceResend s
  | .paceHoldExpiry sender => Sys2Proof.Machine.execPaceHoldExpiry sender s
  | .arpRequest q a => Sys2Proof.Machine.execArpRequest q a s
  | .pfcPauseFrame q tc pause => Sys2Proof.Machine.execPfcPauseFrame q tc pause s
  | .laneFailure lane => Sys2Proof.Machine.execLaneFailure lane s
  | .laneFecCheck lane uncorr corr => Sys2Proof.Machine.execLaneFecCheck lane uncorr corr s
  | .laneRetrainDone q => Sys2Proof.Machine.execLaneRetrainDone q s
  | .portLinkUp q ok llr => Sys2Proof.Machine.execPortLinkUp q ok llr s
  | .calendarDataSlot ch x => Sys2Proof.Machine.execCalendarDataSlot ch x s
  | .calendarReadDelivery k h => Sys2Proof.Machine.execCalendarReadDelivery k h s
  | .refreshReserveSlot p f k err => Sys2Proof.Machine.execRefreshReserveSlot p f k err s
  | .narrowSlot p f v t x => Sys2Proof.Machine.execNarrowSlot p f v t x s
  | .migrationComplete l => Sys2Proof.Machine.execMigrationComplete l s
  | .pseudoChannelLoss p => Sys2Proof.Machine.execPseudoChannelLoss p s
  | .bulkChannelFailure ch => Sys2Proof.Machine.execBulkChannelFailure ch s
  | .hbmTemperatureRead k temp => Sys2Proof.Machine.execHbmTemperatureRead k temp s
  | .powerSample a => Sys2Proof.Machine.execPowerSample a s
  | .pmbusPoll mw ns status => Sys2Proof.Machine.execPmbusPoll mw ns status s
  | .avsbusTelemetryTimeout => Sys2Proof.Machine.execAvsbusTelemetryTimeout s
  | .droopDetect f => Sys2Proof.Machine.execDroopDetect f s
  | .vrAlertN asserted amps => Sys2Proof.Machine.execVrAlertN asserted amps s
  | .stretchRelease => Sys2Proof.Machine.execStretchRelease s
  | .slackCritical f => Sys2Proof.Machine.execSlackCritical f s
  | .annealWindow code => Sys2Proof.Machine.execAnnealWindow code s
  | .annealHoldExpiry => Sys2Proof.Machine.execAnnealHoldExpiry s
  | .junctionSensorRead tj f sensor => Sys2Proof.Machine.execJunctionSensorRead tj f sensor s
  | .thermtripTimeout => Sys2Proof.Machine.execThermtripTimeout s
  | .pgWarnN => Sys2Proof.Machine.execPgWarnN s
  | .powerOnReset b => Sys2Proof.Machine.execPowerOnReset b s
  | .resetAssert pwrgood lowNs => Sys2Proof.Machine.execResetAssert pwrgood lowNs s
  | .perst => Sys2Proof.Machine.execPerst s
  | .pcieHotReset => Sys2Proof.Machine.execPcieHotReset s
  | .functionLevelReset => Sys2Proof.Machine.execFunctionLevelReset s
  | .sensorTimeout bus addr => Sys2Proof.Machine.execSensorTimeout bus addr s
  | .wakeComplete => Sys2Proof.Machine.execWakeComplete s
  | .mctpWakeCommand => Sys2Proof.Machine.execMctpWakeCommand s
  | .mctpPacket via m => Sys2Proof.Machine.execMctpPacket via m s
  | .getVersion => Sys2Proof.Machine.execGetVersion s
  | .getCapabilities => Sys2Proof.Machine.execGetCapabilities s
  | .negotiateAlgorithms offer caps => Sys2Proof.Machine.execNegotiateAlgorithms offer caps s
  | .getDigests => Sys2Proof.Machine.execGetDigests s
  | .getCertificate slot off len => Sys2Proof.Machine.execGetCertificate slot off len s
  | .challenge slot c => Sys2Proof.Machine.execChallenge slot c s
  | .getMeasurements idx signed nonce => Sys2Proof.Machine.execGetMeasurements idx signed nonce s
  | .bar2Write off data => Sys2Proof.Machine.execBar2Write off data s
  | .bar2Read off len => Sys2Proof.Machine.execBar2Read off len s
  | .evtClear p page bits => Sys2Proof.Machine.execEvtClear p page bits s
  | .cntClr p page => Sys2Proof.Machine.execCntClr p page s
  | .evtForce p page bits => Sys2Proof.Machine.execEvtForce p page bits s
  | .lockSet p page => Sys2Proof.Machine.execLockSet p page s
  | .lockClear p page => Sys2Proof.Machine.execLockClear p page s
  | .pciWake p => Sys2Proof.Machine.execPciWake p s
  | .pciRecoveryGo p => Sys2Proof.Machine.execPciRecoveryGo p s
  | .asyClr p => Sys2Proof.Machine.execAsyClr p s
  | .hbmPcClr p k bits => Sys2Proof.Machine.execHbmPcClr p k bits s
  | .mssWallHiWrite p v => Sys2Proof.Machine.execMssWallHiWrite p v s
  | .pwrCapWrite p v => Sys2Proof.Machine.execPwrCapWrite p v s
  | .stkLedgerCiWrite p v => Sys2Proof.Machine.execStkLedgerCiWrite p v s
  | .pciCplCiWrite p v => Sys2Proof.Machine.execPciCplCiWrite p v s
  | .pciRingCfgWrite p v => Sys2Proof.Machine.execPciRingCfgWrite p v s
  | .logCfgWrite p v => Sys2Proof.Machine.execLogCfgWrite p v s
  | .logCiWrite p v => Sys2Proof.Machine.execLogCiWrite p v s
  | .registerLoRead p off => Sys2Proof.Machine.execRegisterLoRead p off s
  | .registerWrite p off v enables => Sys2Proof.Machine.execRegisterWrite p off v enables s
  | .memoryTrainingComplete bad found => Sys2Proof.Machine.execMemoryTrainingComplete bad found s
  | .firmwareWriteComplete => Sys2Proof.Machine.execFirmwareWriteComplete s
  | .standbyEntryComplete => Sys2Proof.Machine.execStandbyEntryComplete s
  | .sendRateRise fl => Sys2Proof.Machine.execSendRateRise fl s
  | .nackBackoffExpiry fl seq => Sys2Proof.Machine.execNackBackoffExpiry fl seq s
  | .fillerResidueMismatch p e o => Sys2Proof.Machine.execFillerResidueMismatch p e o s
  | .jtagTck e => Sys2Proof.Machine.execJtagTck e s
  | .replayRecordArrival record => Sys2Proof.Machine.execReplayRecordArrival record s
  | .storedChunkRead id chunk data => Sys2Proof.Machine.execStoredChunkRead id chunk data s

end Sys2Proof.Machine
end

