-- ==== Sys2Proof/Machine/Tick.lean ====
section
/-!
DEFINITION. The passing of time between commands (R437).
-/

namespace Sys2Proof.Machine

open Sys2Proof

/-- MSS_ELAPSED rises by 10 ns, in every state that power-on reset has let go (R437, R491). -/
def State.tick (s : State) : State :=
  if s.mgmt.pwrgood && s.mgmt.resetN then { s with mgmt := { s.mgmt with elapsed := s.mgmt.elapsed + 10 } } else s

end Sys2Proof.Machine
end

