-- ==== Sys2Proof/Safety.lean ====
section
/-!
DEFINITION. The terms that statements use: when an instruction is issued and does its work at once, what its core is like behind it,
and what the rest of the device keeps.
-/

namespace Sys2Proof.Machine

open Sys2Proof

/-- The instruction that a stream issues is not turned away and not held: the position is held by core `p`, the stream may issue
(R68, R181), no check fires, the word is one that R180 takes, no write to its registers is pending (R184), and no queue, no row of its engine
and no room outside the core holds it (R142, R184, R200, R204, R205, R347); no cycle of a stall is told. Whether an access of it is held
stands apart (R249). -/
def State.canIssue (s : State) (i : Iss) (op : IsaOp) (p : Nat) : Bool :=
  i.upset.isNone && s.holder i.v == some p && s.ready p i.st &&
  (if op = .nop then s.wordLegal p i.st else legal op) &&
  !(s.core p).held.any (fun h => h.st == i.st && clashes (regUse op) (regUse h.op)) && !queueFull (s.core p) op &&
  i.regWait == 0 && i.queueWait == 0 && i.bankWait == 0 &&
  !blocked (s.core p) (s.issueOf p i.st op) && (rowLimit (s.core p) (s.issueOf p i.st op)).isNone &&
  mayFinish (s.core p) (s.issueOf p i.st op) && !s.devHold i.v p (s.issueOf p i.st op)

/-- The stream of an issue, before it. -/
def State.streamOf (s : State) (i : Iss) (p : Nat) : StreamSt := (s.core p).stream i.st

/-- A core with one more issue counted. -/
def Core.took (c : Core) : Core := { c with seq := c.seq + 1 }

/-- A core behind the issue of an instruction that leaves it as `c`: the issue is counted, and the stream goes to its next word
(R181, R190). -/
def Core.goOn (c : Core) (st : Stream) : Core := c.took.setStream st (c.stream st).advance

/-- Only core `p` differs: every other core and every other part of the device is as it was, but for the ordinals that the issue counts
(R383) and what an assay job closes where it passes a recorded point (R385). -/
def OnlyCore (s t : State) (p : Nat) : Prop :=
  (∀ q, q ≠ p → t.core q = s.core q) ∧
  t = { s with cores := t.cores, stroke := { s.stroke with ordinals := t.stroke.ordinals }, asy := t.asy, free := t.free } ∧
  (s.assaying = false → t.asy = s.asy ∧ t.free = s.free)

/-- No granule of an access lies in a HANDOFF region of the core (R247, R252): the access meets no interlock and no type check. -/
def Plain (x : Ctx) (off len : Nat) : Prop := ∀ g ∈ granules off len, regionOf x g = none

/-- The command that issues an operation. -/
def cmdOf (i : Iss) : IsaOp → Instr
  | .nop => .nop i
  | .stend => .stend i
  | .jobend => .jobend i
  | .commit => .commit i
  | .slotpat x => .slotpat i x
  | .loop x => .loop i x
  | .rdspec x => .rdspec i x
  | .add x => .add i x
  | .sub x => .sub i x
  | .mul x => .mul i x
  | .and x => .and i x
  | .or x => .or i x
  | .xor x => .xor i x
  | .shl x => .shl i x
  | .shr x => .shr i x
  | .sra x => .sra i x
  | .min x => .min i x
  | .max x => .max i x
  | .minu x => .minu i x
  | .maxu x => .maxu i x
  | .cmp x => .cmp i x
  | .sel x => .sel i x
  | .li x => .li i x
  | .lih x => .lih i x
  | .lds x => .lds i x
  | .sts x => .sts i x
  | .pand x => .pand i x
  | .por x => .por i x
  | .pxor x => .pxor i x
  | .pandn x => .pandn i x
  | .pfirst x => .pfirst i x
  | .pcnt x => .pcnt i x
  | .scadd x => .scadd i x
  | .scsub x => .scsub i x
  | .wait x => .wait i x
  | .signal x => .signal i x
  | .hint x => .hint i x
  | .mcopy x => .mcopy i x
  | .calarm x => .calarm i x
  | .gather x => .gather i x
  | .scatter x => .scatter i x
  | .nsend x => .nsend i x
  | .nrecv x => .nrecv i x
  | .ncoll x => .ncoll i x
  | .mload x => .mload i x
  | .mstr x => .mstr i x
  | .mstrt x => .mstrt i x
  | .mdrain x => .mdrain i x
  | .mew x => .mew i x
  | .vadd x => .vadd i x
  | .vsub x => .vsub i x
  | .vmul x => .vmul i x
  | .vfma x => .vfma i x
  | .vmin x => .vmin i x
  | .vmax x => .vmax i x
  | .vcmp x => .vcmp i x
  | .vsel x => .vsel i x
  | .vand x => .vand i x
  | .vor x => .vor i x
  | .vxor x => .vxor i x
  | .vshl x => .vshl i x
  | .vshr x => .vshr i x
  | .vsra x => .vsra i x
  | .vsgn x => .vsgn i x
  | .vcvt x => .vcvt i x
  | .vrnd x => .vrnd i x
  | .vtr x => .vtr i x
  | .vred x => .vred i x
  | .vcpr x => .vcpr i x
  | .vxpd x => .vxpd i x
  | .vcpst x => .vcpst i x
  | .vxpld x => .vxpld i x
  | .vld x => .vld i x
  | .vst x => .vst i x
  | .flags x => .flags i x
  | .vstat x => .vstat i x

/-- The EVT bit of a page at a BAR0 offset is set (R465). -/
def State.evtSet (s : State) (page k : Nat) : Bool := s.rbit (page + oEvt) k

/-! ### Frames -/

/-- `t` is `s` with registers, logs, notices sent, the step's event marks and once-per-stroke marks changed, and nothing else: what raising
events can do (R465, R466, R333). -/
def Logged (s t : State) : Prop :=
  ∃ regs ring host dropped log out hm se told,
    t = { s with
      regs := regs, stroke := { s.stroke with told := told }, stp := { s.stp with hmEvent := hm, stepEvent := se },
      mgmt := { s.mgmt with ring := ring, hostLog := host, dropped := dropped, out := out, nor := { s.mgmt.nor with log := log } } }

/-- Every register word reads as before, but for those of a set of BAR0 offsets. -/
def RegsKept (s t : State) (but : Nat → Prop) : Prop := ∀ o, ¬ but o → t.rget o = s.rget o

/-- The words that an event of a page can write: those of the page, and the two of the host log. -/
def eventRegs (page o : Nat) : Prop := o / 0x1000 = page / 0x1000 ∨ o = Reg.logPi ∨ o = Reg.logDrop

/-- Only core `p` and the registers of a set differ. -/
def CoreAndRegs (s t : State) (p : Nat) (but : Nat → Prop) : Prop :=
  RegsKept s t but ∧ OnlyCore { s with regs := t.regs } t p

/-- Only core `p`, the registers of a set and what events write differ. -/
def CoreAndLog (s t : State) (p : Nat) (but : Nat → Prop) : Prop :=
  RegsKept s t but ∧ ∃ u, Logged s u ∧ OnlyCore u t p

/-! ### What the instructions compute, from the tables of the manual -/

/-- b of format R (R192). -/
def rOperand (x : StreamSt) (f : FmtR) : DWord := sget x.sreg f.sb.toNat + f.imm.signExtend 64

/-- The conditions of CMP (R192), on the numbers that the words stand for. -/
def condHolds (sc : Nat) (a b : DWord) : Bool :=
  match sc with
  | 0 => decide (a = b)
  | 1 => decide (a ≠ b)
  | 2 => decide (a.toInt < b.toInt)
  | 3 => decide (b.toInt ≤ a.toInt)
  | 4 => decide (a.toNat < b.toNat)
  | _ => decide (b.toNat ≤ a.toNat)

/-- The stream behind a scalar instruction that works between registers (R192). -/
def scalarEffect (x : StreamSt) : IsaOp → Option StreamSt
  | .add f => r f (sget x.sreg f.sa.toNat + rOperand x f)
  | .sub f => r f (sget x.sreg f.sa.toNat - rOperand x f)
  | .mul f => r f (sget x.sreg f.sa.toNat * rOperand x f)
  | .and f => r f (sget x.sreg f.sa.toNat &&& rOperand x f)
  | .or f => r f (sget x.sreg f.sa.toNat ||| rOperand x f)
  | .xor f => r f (sget x.sreg f.sa.toNat ^^^ rOperand x f)
  | .shl f => r f (sget x.sreg f.sa.toNat <<< ((rOperand x f).toNat % 64))
  | .shr f => r f (BitVec.ofNat 64 ((sget x.sreg f.sa.toNat).toNat / 2 ^ ((rOperand x f).toNat % 64)))
  | .sra f => r f (BitVec.ofInt 64 ((sget x.sreg f.sa.toNat).toInt / 2 ^ ((rOperand x f).toNat % 64)))
  | .min f => r f (if (rOperand x f).toInt < (sget x.sreg f.sa.toNat).toInt then rOperand x f else sget x.sreg f.sa.toNat)
  | .max f => r f (if (sget x.sreg f.sa.toNat).toInt < (rOperand x f).toInt then rOperand x f else sget x.sreg f.sa.toNat)
  | .minu f => r f (if (rOperand x f).toNat < (sget x.sreg f.sa.toNat).toNat then rOperand x f else sget x.sreg f.sa.toNat)
  | .maxu f => r f (if (sget x.sreg f.sa.toNat).toNat < (rOperand x f).toNat then rOperand x f else sget x.sreg f.sa.toNat)
  | .cmp f => r f (if condHolds f.sc.toNat (sget x.sreg f.sa.toNat) (rOperand x f) then 1 else 0)
  | .sel f => r f (if sget x.sreg f.sc.toNat ≠ 0 then sget x.sreg f.sa.toNat else rOperand x f)
  | .li f => some (x.setS f.sd.toNat (BitVec.ofInt 64 f.imm.toInt))
  | .lih f => some (x.setS f.sd.toNat
      (BitVec.ofNat 64 (f.imm.toNat % 2 ^ 20 * 2 ^ 44 + (sget x.sreg f.sa.toNat).toNat % 2 ^ 44)))
  | _ => none
where r (f : FmtR) (v : DWord) : Option StreamSt := some (x.setS f.sd.toNat v)

/-- The stream behind a predicate instruction (R193). -/
def predicateEffect (x : StreamSt) : IsaOp → Option StreamSt
  | .pand f => some (x.setP f.pd.toNat (pget x.preg f.pa.toNat &&& pget x.preg f.pb.toNat))
  | .por f => some (x.setP f.pd.toNat (pget x.preg f.pa.toNat ||| pget x.preg f.pb.toNat))
  | .pxor f => some (x.setP f.pd.toNat (pget x.preg f.pa.toNat ^^^ pget x.preg f.pb.toNat))
  | .pandn f => some (x.setP f.pd.toNat (pget x.preg f.pa.toNat &&& ~~~(pget x.preg f.pb.toNat)))
  | .pfirst f => some (x.setP f.pd.toNat
      (BitVec.ofNat 1024 (2 ^ (max 0 (min 1024 (sget x.sreg f.sa.toNat + f.imm.signExtend 64).toInt)).toNat - 1)))
  | .pcnt f => some (x.setS f.sd.toNat
      (BitVec.ofNat 64 ((List.range 1024).filter (fun k => (pget x.preg f.pa.toNat).getLsbD k)).length))
  | _ => none

/-- The core behind a control instruction (R180, R186 to R190). A fifth nested LOOP is left out. -/
def controlEffect (c : Core) (st : Stream) : IsaOp → Option Core
  | .nop => some c
  | .stend => some (c.setStream st { c.stream st with phase := .ended })
  | .jobend => some (c.setStream st { c.stream st with phase := .halted true })
  | .commit => some { c with commits := c.commits + 1 }
  | .slotpat f => some { c with nextSlots := some (f.imm.extractLsb' 0 16) }
  | .loop f =>
    let x := c.stream st
    if x.loops.length < 4 then
      some (c.setStream st ({ x with
        loops := ⟨x.pc.toNat + 1, x.pc.toNat + f.body.toNat, f.count.toNat, 0, f.sd.toNat⟩ :: x.loops }.setS f.sd.toNat 0))
    else none
  | _ => none

/-- A stroke-end is told to the stroke (R72, R186); the other control instructions concern their core alone. -/
def State.endSeen (s : State) (i : Iss) : IsaOp → State
  | .stend => { s with stroke := { s.stroke with lastEnd := some (i.v.val, i.st) } }
  | _ => s

/-- The value that RDSPEC selects (R191) on core `p`, which holds position `v`. -/
def specValue (s : State) (p v sel arg : Nat) : DWord :=
  match sel with
  | 0 => s.stroke.jobStroke
  | 1 => s.stroke.step
  | 2 => BitVec.ofNat 64 (v % 8)
  | 3 => BitVec.ofNat 64 (v / 8)
  | 4 => BitVec.ofNat 64 (s.rpair Reg.numSeedLo)
  | 5 => BitVec.ofNat 64 (s.rpair (Reg.coreShardLo p arg))
  | 6 => if s.stp.committed then 1 else 0
  | _ => s.lossScale.zeroExtend 64

/-- A counter behind an addition and a subtraction (R76). -/
def addSat (v d : Word) : Word := BitVec.ofNat 32 (min 0xFFFFFFFF (v.toNat + d.toNat))
def subSat (v d : Word) : Word := BitVec.ofNat 32 (v.toNat - d.toNat)

/-- The operand of SCADD, SCSUB, WAIT and SIGNAL (R182). -/
def syncOperand (x : StreamSt) (immf : Bool) (val : BitVec 24) : Word :=
  if immf then BitVec.ofNat 32 val.toNat else BitVec.ofNat 32 (sget x.sreg (val.toNat % 64)).toNat

/-- The core behind a wait that goes on (R195): a consuming one has subtracted. -/
def passWait (c : Core) (ctr cond : Nat) (k : Word) : Core :=
  if cond = 2 then { c with ctr := tset 0 c.ctr ctr (tget 0 c.ctr ctr - k) } else c

/-- The test of R195 on a counter's value. -/
def waitMet (cond : Nat) (v k : Word) : Prop := if cond = 1 then v = k else k.toNat ≤ v.toNat

/-- The scalar and the predicate of the issuing stream that a field names. -/
def State.scalarOf (s : State) (i : Iss) (p : Nat) (n : BitVec 6) : DWord := sget (s.streamOf i p).sreg n.toNat
def State.predOf (s : State) (i : Iss) (p : Nat) (n : BitVec 3) : BitVec 1024 := pget (s.streamOf i p).preg n.toNat

/-- A core whose counter `k` has been updated once, where enabled (R200), below the counter's end. -/
def countOnce (c : Core) (en : Bool) (k : BitVec 12) : Core :=
  if en then { c with ctr := tset 0 c.ctr k.toNat (tget 0 c.ctr k.toNat + 1),
                      added := tset 0 c.added k.toNat (tget 0 c.added k.toNat + 1) }
  else c
def countable (c : Core) (en : Bool) (k : BitVec 12) : Prop := en = true → tget 0 c.ctr k.toNat ≠ 0xFFFFFFFF

/-- The two words of a 64-bit counter at an offset. -/
def pairAt (lo o : Nat) : Prop := o = lo ∨ o = lo + 4

/-- A 64-bit counter has risen by `n`, up to its end (R254). -/
def PairRose (s t : State) (lo n : Nat) : Prop := t.rpair lo = min (2 ^ 64 - 1) (s.rpair lo + n)

/-- Flags that an instruction raises join the stream's word, or stand beside it while an earlier FLAGS of the stream waits (R229). -/
def withFlags (c : Core) (st : Stream) (x : StreamSt) (fl : Flg) : StreamSt :=
  if fl = 0 then x
  else if flagsWaits c st c.seq then { x with lateFlags := x.lateFlags ++ [(c.seq, fl)] }
  else { x with flags := x.flags ||| fl }

/-- What a vector instruction leaves outside its core: the flags joined to NUM_FLAG_SUM (R94), its lane cycles counted (R179). -/
def VectorFrame (s t : State) (p : Nat) (fl : Flg) (cycles : Nat) : Prop :=
  CoreAndRegs s t p (fun o => o = Reg.numFlagSum ∨ pairAt (Reg.veBusyCycLo p) o) ∧
  t.rget Reg.numFlagSum = s.rget Reg.numFlagSum ||| fl.zeroExtend 32 ∧ PairRose s t (Reg.veBusyCycLo p) cycles

/-- A vector instruction, element by element: the mode, the first register and the number of the elements it writes, its lane cycles,
its predicate and ZERO bit, and the value and flags of each active element. -/
structure LaneJob where
  mode : Nat
  reg : Nat
  n : Nat
  cycles : Nat
  pred : BitVec 1024
  clear : Bool
  val : Nat → Word × Flg

/-- The bits of a value that an element of a mode holds (R159). -/
def elemOf (mode : Nat) (v : Word) : Word := if mode = 1 then v &&& 0xFFFF else v

/-- The flags of the active elements, joined. -/
def LaneJob.flags (j : LaneJob) : Flg :=
  ((List.range j.n).filter (fun k => j.pred.getLsbD k)).foldr (fun k a => (j.val k).2 ||| a) 0

/-- The elements of a stream's vector registers behind a job: active ones as given, others kept or cleared (R164), no other word. -/
def LanesWritten (x y : StreamSt) (j : LaneJob) : Prop :=
  (∀ k < j.n, vElem y j.mode j.reg k =
    if j.pred.getLsbD k then elemOf j.mode (j.val k).1 else if j.clear then 0 else vElem x j.mode j.reg k) ∧
  (∀ w, w < 64 * j.reg ∨ 64 * j.reg + j.n / (if j.mode = 1 then 2 else 1) ≤ w → y.vword w = x.vword w)

/-- A vector instruction is done: its elements, its flags, its cycles, and nothing else. -/
def LanesDone (s t : State) (i : Iss) (p : Nat) (j : LaneJob) : Prop :=
  ∃ r, LanesWritten (s.streamOf i p) { s.streamOf i p with vreg := r } j ∧
    t.core p = ((s.core p).setStream i.st (withFlags (s.core p) i.st { s.streamOf i p with vreg := r } j.flags)).goOn i.st ∧
    VectorFrame s t p j.flags j.cycles

/-- The vector instructions that compute each element from the elements of the same place, and VXPD (R166, R219 to R222). -/
def laneJob (s : State) (i : Iss) (p : Nat) (op : IsaOp) : Option LaneJob :=
  let x := s.streamOf i p
  let q := s.issueOf p i.st op
  let job (f : FmtV) (m : Nat) (cycles : Nat) (val : Nat → Word × Flg) : Option LaneJob :=
    some ⟨m, f.vd.toNat, vCount f.g f.mode.toNat, cycles, s.predOf i p f.pr, f.zero, val⟩
  let a (f : FmtV) (k : Nat) : Word := vElem x f.mode.toNat f.va.toNat k
  let c (f : FmtV) (k : Nat) : Word := vElem x f.mode.toNat f.vc.toNat k
  let lane (f : FmtV) (g : Nat → Word → Word → Word → Word × Flg) : Option LaneJob :=
    job f f.mode.toNat (gOf f.g) (fun k => g f.mode.toNat (a f k) (bElem q f x k) (c f k))
  match op with
  | .vadd f => lane f laneAdd
  | .vsub f => lane f laneSub
  | .vmul f => lane f laneMul
  | .vfma f => lane f laneFma
  | .vmin f => lane f laneMin
  | .vmax f => lane f laneMax
  | .vand f => lane f (fun _ a b _ => (a &&& b, 0))
  | .vor f => lane f (fun _ a b _ => (a ||| b, 0))
  | .vxor f => lane f (fun _ a b _ => (a ^^^ b, 0))
  | .vshl f => lane f (fun _ a b _ => (a <<< (b.toNat % 32), 0))
  | .vshr f => lane f (fun _ a b _ => (a >>> (b.toNat % 32), 0))
  | .vsra f => lane f (fun _ a b _ => (a.sshiftRight (b.toNat % 32), 0))
  | .vsgn f => lane f (fun m a b _ => laneSgn f.opx.toNat m a b)
  | .vsel f => job f f.mode.toNat (gOf f.g) (fun k =>
      (if (s.predOf i p (f.opx.extractLsb' 0 3)).getLsbD k then a f k else bElem q f x k, 0))
  | .vxpd f => job f f.mode.toNat (gOf f.g) (fun k =>
      (a f ((List.range k).filter (fun h => (s.predOf i p f.pr).getLsbD h)).length, 0))
  | .vcvt f => job f (f.opx.toNat % 4) (max (gOf f.g) (vcvtRegs f)) (fun k =>
      vcvtElem f.mode.toNat (f.opx.toNat % 4) (modeOf2 (f.opx.toNat / 4 % 4)) (f.opx.toNat / 16 % 2 == 1)
        (seedWord (s.ctxOf i.v p) q (f.opx.extractLsb' 5 6) (f.opx.extractLsb' 11 6) k) (a f k))
  | .vrnd f => job f 0 (gOf f.g) (fun k =>
      vrndElem ((Fmt.ofCode (f.opx.extractLsb' 0 4)).getD .fp32) (a f k) (modeOf2 (f.opx.toNat / 16 % 4))
        (f.opx.toNat / 64 % 2 == 1) (seedWord (s.ctxOf i.v p) q (f.opx.extractLsb' 7 6) (f.opx.extractLsb' 13 6) k))
  | .vtr f => job f 0 (trCycles (trFnOf f.opx.toNat) * (if f.mode = 1 then 2 * gOf f.g else gOf f.g)) (fun k =>
      trEval (trFnOf f.opx.toNat) (if f.mode = 1 then a f k <<< 16 else a f k))
  | _ => none

/-- The scalars of a compress buffer behind `c` elements (R167): position and lost count. -/
def bufferScalars (s : State) (i : Iss) (p : Nat) (f : FmtVB) (c : Nat) (x : StreamSt) : StreamSt :=
  let n := (s.scalarOf i p f.sn).toNat
  let cap := (s.scalarOf i p f.scap).toNat
  (x.setS f.sn.toNat (BitVec.ofNat 64 (min (n + c) cap))).setS f.sov.toNat
    (s.scalarOf i p f.sov + BitVec.ofNat 64 (c - min c (cap - n)))

/-- Elements of a register group whose predicate bit is set, in ascending order. -/
def activeOf (x : StreamSt) (pr : BitVec 1024) (m r n : Nat) : List Word :=
  ((List.range n).filter (fun k => pr.getLsbD k)).map (fun k => vElem x m r k)

/-! ### Instructions that reach memory, engines and the network -/

/-- The core-memory reference `a` of the instruction's own core is good for `len` bytes and meets no HANDOFF region (R183, R252). -/
def State.plainRef (s : State) (i : Iss) (p : Nat) (a : DWord) (len align : Nat) : Prop :=
  cmOk (s.ctxOf i.v p) a len true align = true ∧ Plain (s.ctxOf i.v p) (refOff a) len

/-- Bytes of the core's memory at a reference. -/
def State.bytesOf (s : State) (p : Nat) (a : DWord) (len : Nat) : List Byte := bytesAt (s.core p).cm (refOff a) len

/-- `m` holds `bs` at `off`. -/
def Holds (m : List Host.Cell) (off : Nat) (bs : List Byte) : Prop := bytesAt m off bs.length = bs

/-- `m` and `m'` agree on every byte but those of a set. -/
def BytesKept (m m' : List Host.Cell) (but : Nat → Prop) : Prop := ∀ k, ¬ but k → byteAt m' k = byteAt m k

/-- Offsets of `len` bytes at `off`. -/
def within (off len k : Nat) : Prop := off ≤ k ∧ k < off + len

/-- The format that a field of an instruction names. -/
def formatOf (b : BitVec 4) : Fmt := (Fmt.ofCode b).getD .fp32

/-- Row `j` of an operand (R209): its reference and the bytes of `n` elements. -/
def rowRef (a : DWord) (pitch j : Nat) : DWord := a + BitVec.ofNat 64 (j * pitch)

/-- Every row of a matrix operand is good and plain, with its scales where it is MX (R209, R210). -/
def State.rowsOk (s : State) (i : Iss) (p : Nat) (f : Fmt) (mx : Bool) (a : DWord) (pitch : Nat) (sc : DWord) (n rows : Nat) : Prop :=
  ∀ j < rows, s.plainRef i p (rowRef a pitch j) (packedBytes f n) (alignOf f) ∧
    (mx = true → s.plainRef i p (rowRef sc ((n + 31) / 32) j) ((n + 31) / 32) 1)

/-- Element `k` of row `j` of an operand as it lies in core memory (R209, R85). -/
def State.rowEl (s : State) (p : Nat) (f : Fmt) (mx : Bool) (a : DWord) (pitch : Nat) (sc : DWord) (n j k : Nat) : El :=
  ⟨packedElem f (s.bytesOf p (rowRef a pitch j) (packedBytes f n)) k,
   if mx then some (byteAt (s.core p).cm (refOff (rowRef sc ((n + 31) / 32) j) + k / 32)) else none⟩

/-- Row `j` of an operand. -/
def State.rowEls (s : State) (p : Nat) (f : Fmt) (mx : Bool) (a : DWord) (pitch : Nat) (sc : DWord) (n j : Nat) : List El :=
  (List.range n).map (s.rowEl p f mx a pitch sc n j)

/-- The pitch of an operand (R208). -/
def State.pitchAt (s : State) (i : Iss) (p : Nat) (sb : BitVec 6) : Nat := (s.scalarOf i p sb).toNat % 2 ^ 24

/-- Column `c` and row `o` of a stationary tile. -/
def Engine.column (e : Engine) (n c : Nat) : List El := (List.range n).map (fun kk => e.el kk c)
def Engine.crossRow (e : Engine) (n o : Nat) : List El := (List.range n).map (fun c => e.el o c)

/-- The words of a VLD (R226). -/
def vldJob (s : State) (i : Iss) (p : Nat) (f : FmtVM) : LaneJob :=
  let m := f.mode.toNat
  let n := vCount f.g m
  ⟨m, f.vr.toNat, n, gOf f.g, s.predOf i p f.pr, f.zero, fun k =>
    vldElem m (formatOf f.fmt) (packedElem (formatOf f.fmt) (s.bytesOf p (s.scalarOf i p f.sa) (packedBytes (formatOf f.fmt) n)) k)
      (if f.mx then some (byteAt (s.core p).cm (refOff (s.scalarOf i p f.ssc) + k / 32)) else none)⟩

/-- The scales, elements and flags of a VST (R227): an MX store encodes each block of 32, any other rounds each active element. -/
def vstBlocks (s : State) (i : Iss) (p : Nat) (f : FmtVM) : List Byte × List Word × Flg :=
  mxBlocks (s.ctxOf i.v p) (s.issueOf p i.st (.vst f)) f (formatOf f.fmt)
    ((List.range (vCount f.g f.mode.toNat)).map (fun k => decodeFloat (modeFmt f.mode.toNat) (vElem (s.streamOf i p) f.mode.toNat f.vr.toNat k)))
    (vCount f.g f.mode.toNat / 32) 0
def vstValue (s : State) (i : Iss) (p : Nat) (f : FmtVM) (k : Nat) : Word × Flg :=
  vstElem f.mode.toNat (formatOf f.fmt) (modeOf2 f.rmode.toNat) f.sat
    (seedWord (s.ctxOf i.v p) (s.issueOf p i.st (.vst f)) f.sti f.six k) (vElem (s.streamOf i p) f.mode.toNat f.vr.toNat k)
def vstJob (s : State) (i : Iss) (p : Nat) (f : FmtVM) : LaneJob :=
  if f.mx then
    ⟨f.mode.toNat, f.vr.toNat, vCount f.g f.mode.toNat, gOf f.g, BitVec.allOnes 1024, false,
      fun k => ((vstBlocks s i p f).2.1.getD k 0, (vstBlocks s i p f).2.2)⟩
  else ⟨f.mode.toNat, f.vr.toNat, vCount f.g f.mode.toNat, gOf f.g, s.predOf i p f.pr, false, vstValue s i p f⟩

/-- A flight joins those on their way (R201), if it carries anything. -/
def State.launched (s : State) (i : Iss) (dst opc : Nat) (items : List Item) : State :=
  if items = [] then s
  else { s with flights := s.flights ++ [⟨i.v, dst, travelTime s.ldtSel i.v dst, i.st, opc, items⟩] }

/-- A narrow-path request joins its core's (R203). -/
def Core.asked (c : Core) (r : NarrowReq) : Core := { c with narrow := c.narrow ++ [r] }

/-- The index list of a narrow-path request (R203). -/
def State.indexList (s : State) (i : Iss) (p : Nat) (x : FmtM) : List Word :=
  (List.range (narrowRows x)).map (fun k =>
    BitVec.ofNat 32 (leNat (bytesAt (s.core p).cm (refOff (s.scalarOf i p x.sa) + 4 * k) 4)))

/-! ### Commands of the host, the strokes and the fabric -/

/-- An entry of opcode `op` is taken now: the device fetches and takes the opcode in its state, no boundary is held, the entry is well formed
and, where strokes count, not late (R65, R66, R443, R444, R446). -/
def State.ringTakes (s : State) (op : Nat) (e : RingEntry) : Prop :=
  (s.mgmt.dev = .ready ∨ s.mgmt.dev = .run ∨ s.mgmt.dev = .drain ∨ s.mgmt.dev = .quarantine) ∧ s.stroke.hold = .no ∧
  entOp e = op ∧ entFault e = none ∧ s.accepts e = true ∧
  (s.strokesCount = true → entAt e = 0 ∨ s.stroke.jobStroke.toNat ≤ entAt e)

/-- What an event of code `code` leaves, of a state that its raiser left as `s`: EVT bit `k` of the page is set, logs and marks may change,
registers only of the page (R465). -/
def Raised (s t : State) (page k : Nat) : Prop := Logged s t ∧ RegsKept s t (eventRegs page) ∧ t.evtSet page k = true

/-- What an event without an EVT bit leaves: logs and marks may change, registers only of its page, and the management ring holds its
record (R439, R477). -/
def Noted (s t : State) (page code : Nat) : Prop :=
  Logged s t ∧ RegsKept s t (eventRegs page) ∧ ∃ r, r.code = code ∧ t.mgmt.ring = pushMax 8192 s.mgmt.ring r

/-- A frame whose packet the device takes (R301): on a port that is up, its FCS and its headers hold, of version 1, on a valid context, with its own
CRC, of the current epoch and, but for HELLO, with the epoch's hallmark from a peer not refused; no boundary waits for it. -/
def State.delivers (s : State) (r : Rx) : Prop :=
  (s.port r.port).up = true ∧ ((s.port r.port).keepalive = true → pktClass r.pkt.typ (s.ctx r.pkt.flow).tc = 0) ∧ r.fcsOk = true ∧ s.headersOk r = true ∧
  r.pkt.ver = 1 ∧ r.pkt.len = r.pkt.payload.length ∧ r.pkt.flow < 4096 ∧ (s.ctx r.pkt.flow).valid = true ∧
  r.pkt.crc = pktCrc r.pkt ∧ r.pkt.epoch = s.epoch.cur ∧
  (r.pkt.typ ≠ 6 → r.pkt.hmf = hmfOf s.fab.hallmark ∧ (s.flow r.pkt.flow).refused = false) ∧ s.stroke.hold = .no

/-- The flow of an accepted packet: its peer has been heard, and CE is noted for the next ACK (R306, R308, R398). -/
def State.heardFlow (s : State) (r : Rx) : FlowSt :=
  { s.flow r.pkt.flow with heard := true, lastHeard := s.stroke.jobStroke, ce := (s.flow r.pkt.flow).ce || s.carriesCe r }

/-- The flow behind a packet in sequence that is a whole message (R306, R309). -/
def State.inOrder (s : State) (r : Rx) : FlowSt :=
  { s.heardFlow r with
    rxNext := r.pkt.seq + 1
    rxGot := []
    rxq := []
    sinceAck := (s.flow r.pkt.flow).sinceAck + 1
    ep := r.pkt.epoch
    gapTold := (s.flow r.pkt.flow).gapTold.filter (fun g => !seqBefore (wOf g) (r.pkt.seq + 1)) }

/-- The packet is the next of its flow, a whole message, and no ACK falls due with it. -/
def State.nextWhole (s : State) (r : Rx) : Prop :=
  let x := s.flow r.pkt.flow
  r.pkt.seq = x.rxNext ∧ x.rxGot = [] ∧ x.rxq = [] ∧ x.sinceAck < 15 ∧ r.pkt.flags.getLsbD 2 = true ∧ r.pkt.payload ≠ []

/-- `w` is `s` with the packet's flow as `y`, its sender no longer silent, CE counted, and nothing else changed. -/
def Arrived (s w : State) (r : Rx) (y : FlowSt) : Prop :=
  RegsKept s w (fun o => o = Reg.igsCeMarked) ∧
  w = { s with regs := w.regs, fab := { s.fab with flows := w.fab.flows, silent := s.fab.silent.filter (· != r.pkt.src) } } ∧
  ∀ g, w.flow g = if g = r.pkt.flow then y else s.flow g

/-- The message of a packet that is a whole one. -/
def messageOf (p : Pkt) : Msg :=
  ⟨p.flow, p.typ, p.src, p.epoch, p.flags.toNat, p.flags.getLsbD 0, p.coll, p.tree, 0, p.step, p.payload⟩

/-- Bytes `o` to `o + n - 1` of a payload as a number. -/
def payNum (p : Pkt) (o n : Nat) : Nat := leNat ((p.payload.drop o).take n)

/-- The command of an arriving packet of a type but AGREE (R299). -/
def packetCmd (r : Rx) : Instr :=
  match r.pkt.typ with
  | 1 => .contribPacket r
  | 2 => .resultPacket r
  | 3 => .ack r
  | 4 => .nack r
  | 6 => .hello r
  | 7 => .heartbeat r
  | 8 => .pace r
  | 9 => .blame r
  | _ => .igsumDataPacket r

/-- An offset of channel `l` lies in the channel, which is backed and whose stack is in service (R261, R283, R286). -/
def State.reaches (s : State) (l off : Nat) : Prop :=
  (s.chan l).backed = true ∧ (s.stk ((s.chan l).phys / 32)).out = false ∧ off < pcBytes

/-- The codeword at offset `off` of channel `l` stands as HBM address `a` reads it: its pseudo-channel responds, and it has been written under
that address and in the class the address has now, or neither written nor lost (R275, R276, R279, R282, R286). -/
def State.sound (s : State) (l off a : Nat) : Prop :=
  s.reaches l off ∧ (s.pc (s.chan l).phys).lost = false ∧
  (tget CwMark.asIs (s.chan l).mark (off / 64) = .code (a / 64) (s.classOf a).1 ∨
    (s.chan l).lost = none ∧ tget CwMark.asIs (s.chan l).mark (off / 64) = .asIs)

/-- A page takes writes at offset `off` on a path (R433, R463, R464, R472): it exists, answers the path, its core is neither fused off
nor, beyond the common words, power-gated, and no HOSTLOCK shuts the host out. -/
def State.writable (s : State) (path : Path) (off : Nat) : Prop :=
  off < 0x2000000 ∧ off % 4 = 0 ∧ ∃ pg, s.target path off = some pg

/-- A word of a page's own whose write changes the word alone (R463): none of those that set something in motion. -/
def plainWord (pg : Page) (off : Nat) : Prop :=
  0x100 ≤ off % 0x1000 ∧ ¬ (pg.blk = .fab ∧ off % 0x1000 = 0x100) ∧ ¬ (pg.blk = .hbm ∧ off % 0x1000 = 0x180) ∧
  off ∉ [Reg.pciWake, Reg.pciRecovery, Reg.pciRingCfg, Reg.pciCplCi, Reg.mssWallHi, Reg.logCfg, Reg.logCi, Reg.pwrCap,
    Reg.stkLedgerCi, Reg.asyClr, Reg.nocLdtSel]

end Sys2Proof.Machine
end

