-- ==== Sys2Proof/Certificates/Slice0/Obligations.lean ====
section
/-!
DEFINITION. The statements about the model.
-/

open Sys2Proof Sys2Proof.Machine

/-! ### Instructions of the control cores -/

/-- R192, but for the two memory accesses: a scalar instruction that may issue writes the value of the table to SD, and nothing else
changes. A write to s0 is ignored (R158). R193: the predicate instructions. A write to p0 is ignored. -/
def Obligations.ScalarResults : Prop :=
  (∀ (s : State) (i : Iss) (op : IsaOp) (p : Nat) (y : StreamSt), s.canIssue i op p = true →
     scalarEffect (s.streamOf i p) op = some y →
     ∃ t, exec (cmdOf i op) s = .next t ∧ t.core p = ((s.core p).setStream i.st y).goOn i.st ∧ OnlyCore s t p) ∧
  (∀ (s : State) (i : Iss) (op : IsaOp) (p : Nat) (y : StreamSt), s.canIssue i op p = true →
     predicateEffect (s.streamOf i p) op = some y →
     ∃ t, exec (cmdOf i op) s = .next t ∧ t.core p = ((s.core p).setStream i.st y).goOn i.st ∧ OnlyCore s t p)

/-- R180, R186 to R190: NOP, STEND, JOBEND, COMMIT, SLOTPAT, and LOOP below four nested loops. R190: behind the last word of the innermost
loop's body the stream goes back to the body's first word with the next index in SD while iterations remain, and to the word behind the body
after the last. Stated of NOP as that last word. -/
def Obligations.ControlResults : Prop :=
  (∀ (s : State) (i : Iss) (op : IsaOp) (p : Nat) (c : Core), s.canIssue i op p = true →
     controlEffect (s.core p) i.st op = some c →
     ∃ t, exec (cmdOf i op) s = .next t ∧ t.core p = c.goOn i.st ∧ OnlyCore (s.endSeen i op) t p) ∧
  (∀ (s : State) (i : Iss) (p : Nat) (fr : LoopFrame) (frs : List LoopFrame), s.canIssue i .nop p = true →
     (s.streamOf i p).loops = fr :: frs → (s.streamOf i p).pc.toNat = fr.last →
     ∃ t, exec (.nop i) s = .next t ∧ OnlyCore s t p ∧
       (fr.iter + 1 < fr.count →
         t.streamOf i p = { (s.streamOf i p) with
           pc := BitVec.ofNat 32 fr.first, loops := { fr with iter := fr.iter + 1 } :: frs }.setS fr.sd
             (BitVec.ofNat 64 (fr.iter + 1))) ∧
       (fr.count ≤ fr.iter + 1 → (∀ f ∈ frs, f.last ≠ fr.last) →
         t.streamOf i p = { (s.streamOf i p) with pc := BitVec.ofNat 32 (fr.last + 1), loops := frs }))

/-- R191: RDSPEC writes to SD the run-dependent value that its select names, and changes nothing else. -/
def Obligations.SpecValues : Prop :=
  ∀ (s : State) (i : Iss) (x : FmtI) (p : Nat), s.canIssue i (.rdspec x) p = true →
    ∃ t, exec (.rdspec i x) s = .next t ∧ OnlyCore s t p ∧
      t.core p = ((s.core p).setStream i.st ((s.streamOf i p).setS x.sd.toNat
        (specValue s p i.v (x.imm.toNat % 2 ^ 8) (x.imm.toNat / 2 ^ 8 % 2 ^ 4)))).goOn i.st

/-- R192, R183: LDS from own memory outside HANDOFF regions. R192, R183: STS to own memory outside HANDOFF regions: eight bytes, and no
other byte. R183, R207: LDS and STS with a reference that fails cm_ok: LDS writes 0, STS stores nothing, and 0x0910 is raised. -/
def Obligations.ScalarMemory : Prop :=
  (∀ (s : State) (i : Iss) (x : FmtI) (p : Nat), s.canIssue i (.lds x) p = true →
     let a := sget (s.streamOf i p).sreg x.sa.toNat + BitVec.ofInt 64 x.imm.toInt
     cmOk (s.ctxOf i.v p) a 8 true 8 = true → Plain (s.ctxOf i.v p) (refOff a) 8 →
     ∃ t, exec (.lds i x) s = .next t ∧ OnlyCore s t p ∧
       t.core p = ((s.core p).setStream i.st ((s.streamOf i p).setS x.sd.toNat
         (BitVec.ofNat 64 (leNat (bytesAt (s.core p).cm (refOff a) 8))))).goOn i.st) ∧
  (∀ (s : State) (i : Iss) (x : FmtI) (p : Nat), s.canIssue i (.sts x) p = true →
     let a := sget (s.streamOf i p).sreg x.sa.toNat + BitVec.ofInt 64 x.imm.toInt
     cmOk (s.ctxOf i.v p) a 8 true 8 = true → Plain (s.ctxOf i.v p) (refOff a) 8 →
     ∃ t m, exec (.sts i x) s = .next t ∧ OnlyCore s t p ∧
       t.core p = { s.core p with cm := m }.goOn i.st ∧
       bytesAt m (refOff a) 8 = leBytes 8 (sget (s.streamOf i p).sreg x.sd.toNat).toNat ∧
       (∀ k, k < refOff a ∨ refOff a + 8 ≤ k → byteAt m k = byteAt (s.core p).cm k)) ∧
  (∀ (s : State) (i : Iss) (x : FmtI) (p : Nat), p < 144 →
     let a := sget (s.streamOf i p).sreg x.sa.toNat + BitVec.ofInt 64 x.imm.toInt
     cmOk (s.ctxOf i.v p) a 8 true 8 = false →
     (s.canIssue i (.lds x) p = true → ∃ t, exec (.lds i x) s = .next t ∧
       t.core p = ((s.core p).setStream i.st ((s.streamOf i p).setS x.sd.toNat 0)).goOn i.st ∧ t.evtSet (pgMu p) 0 = true ∧
       CoreAndLog s t p (fun o => eventRegs (pgMu p) o ∨ o = Reg.coreCvAddr p)) ∧
     (s.canIssue i (.sts x) p = true → ∃ t, exec (.sts i x) s = .next t ∧
       t.core p = (s.core p).goOn i.st ∧ t.evtSet (pgMu p) 0 = true ∧
       CoreAndLog s t p (fun o => eventRegs (pgMu p) o ∨ o = Reg.coreCvAddr p)))

/-- R76, R77, R194: SCADD and SCSUB within a counter's range change the counter only. R76, R77: an addition above the range leaves all ones
and raises 0x0201, a subtraction below it leaves 0 and raises 0x0202. -/
def Obligations.CounterUpdates : Prop :=
  (∀ (s : State) (i : Iss) (x : FmtC) (p : Nat),
     let k := x.ctr.toNat
     let v := tget 0 (s.core p).ctr k
     let d := syncOperand (s.streamOf i p) x.immf x.val
     (s.canIssue i (.scadd x) p = true → v.toNat + d.toNat ≤ 0xFFFFFFFF → ∃ t, exec (.scadd i x) s = .next t ∧ OnlyCore s t p ∧
       t.core p = { s.core p with ctr := tset 0 (s.core p).ctr k (addSat v d),
                                  added := tset 0 (s.core p).added k (tget 0 (s.core p).added k + d.toNat) }.goOn i.st) ∧
     (s.canIssue i (.scsub x) p = true → d.toNat ≤ v.toNat → ∃ t, exec (.scsub i x) s = .next t ∧ OnlyCore s t p ∧
       t.core p = { s.core p with ctr := tset 0 (s.core p).ctr k (subSat v d) }.goOn i.st)) ∧
  (∀ (s : State) (i : Iss) (x : FmtC) (p : Nat), p < 144 →
     let k := x.ctr.toNat
     let v := tget 0 (s.core p).ctr k
     let d := syncOperand (s.streamOf i p) x.immf x.val
     (s.canIssue i (.scadd x) p = true → 0xFFFFFFFF < v.toNat + d.toNat → ∃ t, exec (.scadd i x) s = .next t ∧
       tget 0 (t.core p).ctr k = 0xFFFFFFFF ∧ (∀ j, j ≠ k → tget 0 (t.core p).ctr j = tget 0 (s.core p).ctr j) ∧
       t.evtSet (pgSyn p) 0 = true ∧ CoreAndLog s t p (fun o => eventRegs (pgSyn p) o ∨ o = Reg.coreCvSync p)) ∧
     (s.canIssue i (.scsub x) p = true → v.toNat < d.toNat → ∃ t, exec (.scsub i x) s = .next t ∧
       tget 0 (t.core p).ctr k = 0 ∧ (∀ j, j ≠ k → tget 0 (t.core p).ctr j = tget 0 (s.core p).ctr j) ∧
       t.evtSet (pgSyn p) 1 = true ∧ CoreAndLog s t p (fun o => eventRegs (pgSyn p) o ∨ o = Reg.coreCvSync p)))

/-- R195, R196: WAIT goes on at once where its condition holds (a consuming one subtracts), and holds the stream where it does not, or where
an earlier stream's consuming wait on that counter is to be tested first. R195, R196: a
waiting stream whose condition has come goes on, and a consuming wait subtracts; the order is F, B, U. R474 counts the cycles. -/
def Obligations.WaitResults : Prop :=
  (∀ (s : State) (i : Iss) (x : FmtC) (p : Nat), s.canIssue i (.wait x) p = true →
     let k := syncOperand (s.streamOf i p) x.immf x.val
     let v := tget 0 (s.core p).ctr x.ctr.toNat
     let turn := x.cond.toNat = 2 → ∀ q ∈ before i.st, ∀ y, ((s.core p).stream q).phase = .waiting y → y.ctr = x.ctr.toNat →
       y.cond = 2 → v.toNat < y.operand.toNat
     ∃ t, exec (.wait i x) s = .next t ∧ OnlyCore s t p ∧
       (waitMet x.cond.toNat v k → turn → t.core p = (passWait (s.core p) x.ctr.toNat x.cond.toNat k).goOn i.st) ∧
       (¬ waitMet x.cond.toNat v k ∨ ¬ turn → t.core p = ((s.core p).setStream i.st { s.streamOf i p with
         phase := .waiting ⟨x.ctr.toNat, x.cond.toNat, k, x.tmo.toNat⟩ }).goOn i.st)) ∧
  (∀ (s : State) (v : Fin 128) (st : Stream) (cycles p : Nat) (w : WaitRec), s.holder v = some p →
     ((s.core p).stream st).phase = .waiting w → waitMet w.cond (tget 0 (s.core p).ctr w.ctr) w.operand →
     (w.cond = 2 → ∀ q ∈ before st, ∀ y, ((s.core p).stream q).phase = .waiting y → y.ctr = w.ctr → y.cond = 2 →
       ¬ waitMet 2 (tget 0 (s.core p).ctr w.ctr) y.operand) →
     ∃ t, exec (.waitSatisfied v st ⟨cycles, none⟩) s = .next t ∧
       t.core p = (passWait (s.core p) w.ctr w.cond w.operand).setStream st { (s.core p).stream st with phase := .run } ∧
       CoreAndRegs s t p (pairAt (Reg.synWaitCycLo p)) ∧ PairRose s t (Reg.synWaitCycLo p) cycles)

/-- R196: consuming waits of one counter are tested in the order F, B, U, each on what those before it have left. One that the counter
does not satisfy goes on waiting, and one that it satisfies subtracts its operand, which never passes 0. -/
def Obligations.ConsumingWaits : Prop :=
  ∀ (s : State) (v : Fin 128) (st : Stream) (cycles p : Nat) (w : WaitRec), s.holder v = some p →
    ((s.core p).stream st).phase = .waiting w → w.cond = 2 →
    let n := tget 0 (s.core p).ctr w.ctr
    let ahead := ∃ q ∈ before st, ∃ y, ((s.core p).stream q).phase = .waiting y ∧ y.ctr = w.ctr ∧ y.cond = 2 ∧ y.operand.toNat ≤ n.toNat
    (n.toNat < w.operand.toNat → exec (.waitSatisfied v st ⟨cycles, none⟩) s = .next s) ∧
    (ahead → exec (.waitSatisfied v st ⟨cycles, none⟩) s = .next s) ∧
    (w.operand.toNat ≤ n.toNat → ¬ ahead → ∃ t, exec (.waitSatisfied v st ⟨cycles, none⟩) s = .next t ∧
      (tget 0 (t.core p).ctr w.ctr).toNat = n.toNat - w.operand.toNat ∧
      (∀ k, k ≠ w.ctr → tget 0 (t.core p).ctr k = tget 0 (s.core p).ctr k) ∧ ((t.core p).stream st).phase = .run ∧
      (∀ q, q ≠ st → (t.core p).stream q = (s.core p).stream q) ∧ CoreAndRegs s t p (pairAt (Reg.synWaitCycLo p)))

/-- R78, R195, R207, R181: a wait that times out halts its stream, raises 0x0203 and asks for DRAIN; a stream that fetches beyond its
store halts with 0x0911. -/
def Obligations.StreamHalts : Prop :=
  ∀ (s : State) (v : Fin 128) (st : Stream) (p : Nat), s.holder v = some p → p < 144 →
    (∀ w, ((s.core p).stream st).phase = .waiting w → ¬ waitMet w.cond (tget 0 (s.core p).ctr w.ctr) w.operand →
      ∃ t, exec (.waitTimeout v st) s = .next t ∧
        t.core p = (s.core p).setStream st { (s.core p).stream st with phase := .halted false } ∧ t.evtSet (pgSyn p) 2 = true ∧
        CoreAndLog { s with stroke := { s.stroke with drainNext := true } } t p (eventRegs (pgSyn p))) ∧
    (s.issuing p = true → ownsSlot (s.core p) st = true → ((s.core p).stream st).phase = .run →
      16384 ≤ ((s.core p).stream st).pc.toNat →
      ∃ t, exec (.fetchBeyondStore v st) s = .next t ∧
        t.core p = (s.core p).setStream st { (s.core p).stream st with phase := .halted false } ∧ t.evtSet (pgCc p) 2 = true ∧
        CoreAndLog s t p (eventRegs (pgCc p)))

/-- R247 to R249: LDS and STS in a HANDOFF region. A store to a granule that is not valid writes, and with the granule's last byte makes it
valid with the region's write generation and its readers; a load of a valid granule of the stream's own generation reads, and takes one from
its reads left; the last granule of the region advances the generation. Otherwise the instruction is held. R249, R254: a held store whose
granule has been read to the end does its work when it is released, leaves the held instructions, and the cycles it was held count in its
class and in the step's count. R184, R254: an issue of any instruction that was held in its slot does what it does without, and counts the
cycles by class. -/
def Obligations.HandoffAccess : Prop :=
  (∀ (s : State) (i : Iss) (x : FmtI) (p : Nat) (e : Region),
     let a := sget (s.streamOf i p).sreg x.sa.toNat + BitVec.ofInt 64 x.imm.toInt
     let g := refOff a / 64
     let q := tget gran0 (s.core p).gran g
     let w := tget rgn0 (s.core p).rgn e.idx
     cmOk (s.ctxOf i.v p) a 8 true 8 = true → regionOf (s.ctxOf i.v p) g = some e →
     (s.canIssue i (.sts x) p = true →
       (q.v = false → ∃ t m, exec (.sts i x) s = .next t ∧ OnlyCore s t p ∧
         Holds m (refOff a) (leBytes 8 (sget (s.streamOf i p).sreg x.sd.toNat).toNat) ∧
         BytesKept (s.core p).cm m (within (refOff a) 8) ∧
         t.core p = { s.core p with
           cm := m
           gran := if refOff a % 64 = 56 then tset gran0 (s.core p).gran g ⟨true, w.wg, e.readers⟩ else (s.core p).gran
           rgn := if refOff a % 64 = 56 ∧ g = e.last then tset rgn0 (s.core p).rgn e.idx { w with wg := w.wg + 1 }
             else (s.core p).rgn }.goOn i.st) ∧
       (q.v = true → ∃ t, exec (.sts i x) s = .next t ∧ OnlyCore s t p ∧
         t.core p = { s.core p with held := (s.core p).held ++ [s.issueOf p i.st (.sts x)] }.goOn i.st)) ∧
     (s.canIssue i (.lds x) p = true →
       (q.v = true → q.gen = w.rp i.st → ∃ t, exec (.lds i x) s = .next t ∧ OnlyCore s t p ∧
         t.core p = ({ s.core p with
           gran := tset gran0 (s.core p).gran g ⟨q.left - 1 != 0, q.gen, q.left - 1⟩
           rgn := if g = e.last then tset rgn0 (s.core p).rgn e.idx (w.bumpRp i.st) else (s.core p).rgn }.setStream i.st
             ((s.streamOf i p).setS x.sd.toNat (BitVec.ofNat 64 (leNat (bytesAt (s.core p).cm (refOff a) 8))))).goOn i.st) ∧
       (q.v = false → ∃ t, exec (.lds i x) s = .next t ∧ OnlyCore s t p ∧
         t.core p = { s.core p with held := (s.core p).held ++ [s.issueOf p i.st (.lds x)] }.goOn i.st))) ∧
  (∀ (s : State) (v : Fin 128) (k cycles p : Nat) (cls : StallClass) (h : Issue) (x : FmtI) (e : Region),
     let a := sget h.sreg x.sa.toNat + BitVec.ofInt 64 x.imm.toInt
     let g := refOff a / 64
     let w := tget rgn0 (s.core p).rgn e.idx
     let low : Nat := match cls with
       | .read => Reg.coreCvReadLo p | .write => Reg.coreCvWriteLo p | .bank => Reg.coreCvBankLo p
       | .reg => Reg.coreCvRegLo p | .queue => Reg.coreCvQueueLo p
     s.holder v = some p → (s.core p).held[k]? = some h → h.op = .sts x → h.prog = prog0 →
     (∀ j ∈ (s.core p).held, j.seq = h.seq ∨ h.seq < j.seq) → cmOk (s.ctxOf v p) a 8 true 8 = true →
     regionOf (s.ctxOf v p) g = some e → (tget gran0 (s.core p).gran g).v = false → refOff a % 64 = 56 → g ≠ e.last →
     ∃ t m, exec (.interlockRelease v k ⟨cycles, none⟩ cls) s = .next t ∧
       Holds m (refOff a) (leBytes 8 (sget h.sreg x.sd.toNat).toNat) ∧ BytesKept (s.core p).cm m (within (refOff a) 8) ∧
       t.core p = { s.core p with
         cm := m, held := (s.core p).held.filter (fun j => j.seq != h.seq),
         gran := tset gran0 (s.core p).gran g ⟨true, w.wg, e.readers⟩ } ∧
       CoreAndRegs s t p (fun o => pairAt low o ∨ o = Reg.coreCvStep p) ∧ PairRose s t low cycles) ∧
  (∀ (s : State) (i : Iss) (op : IsaOp) (p : Nat),
     let j : Iss := { i with regWait := 0, queueWait := 0, bankWait := 0 }
     s.canIssue j op p = true →
     ∃ u t, exec (cmdOf j op) s = .next u ∧ exec (cmdOf i op) s = .next t ∧ t = { u with regs := t.regs } ∧
       RegsKept u t (fun o => pairAt (Reg.coreCvRegLo p) o ∨ pairAt (Reg.coreCvQueueLo p) o ∨ pairAt (Reg.coreCvBankLo p) o ∨
         o = Reg.coreCvStep p ∨ pairAt (Reg.veQfullCycLo p) o ∨ pairAt (Reg.veBusyCycLo p) o) ∧
       PairRose u t (Reg.coreCvRegLo p) i.regWait ∧ PairRose u t (Reg.coreCvQueueLo p) i.queueWait ∧
       PairRose u t (Reg.coreCvBankLo p) i.bankWait)

/-- R197, R199, R229, R230: SIGNAL to a core of the grid sends a counter update, outside the grid it raises 0x0910; HINT keeps the
highest class of the stroke and its smallest lead; VSTAT gives the loss of the lowest position and adds to the non-finite count; FLAGS
reads the numeric flags and clears those of its mask. -/
def Obligations.SignalHintStatFlags : Prop :=
  ∀ (s : State) (i : Iss) (p : Nat),
    (∀ x, s.canIssue i (.signal x) p = true → x.vx.toNat < s.job.grid.1 ∧ x.vy.toNat < s.job.grid.2 →
      ∃ t, exec (.signal i x) s = .next t ∧ t.core p = (s.core p).goOn i.st ∧
        OnlyCore (s.launched i (x.vy.toNat * 8 + x.vx.toNat) (opcodeOf (.signal x))
          [.counter x.ctr.toNat (syncOperand (s.streamOf i p) x.immf x.val)]) t p) ∧
    (∀ x, s.canIssue i (.signal x) p = true → s.job.grid.1 ≤ x.vx.toNat ∨ s.job.grid.2 ≤ x.vy.toNat → p < 144 →
      ∃ t, exec (.signal i x) s = .next t ∧ t.core p = (s.core p).goOn i.st ∧ t.evtSet (pgMu p) 0 = true ∧
        CoreAndLog s t p (fun o => eventRegs (pgMu p) o ∨ o = Reg.coreCvAddr p)) ∧
    (∀ x, s.canIssue i (.hint x) p = true → ∃ t c l, exec (.hint i x) s = .next t ∧ t.core p = (s.core p).goOn i.st ∧
        OnlyCore { s with pwr := { s.pwr with hintIn := some (c, l) } } t p ∧
        (s.pwr.hintIn = none → c = x.cls.toNat ∧ l = x.lead.toNat) ∧
        (∀ c' l', s.pwr.hintIn = some (c', l') → c = max c' x.cls.toNat ∧
          l = if c' < x.cls.toNat then x.lead.toNat else if c' = x.cls.toNat then min l' x.lead.toNat else l')) ∧
    (∀ x, s.canIssue i (.vstat x) p = true → ∃ t, exec (.vstat i x) s = .next t ∧ t.core p = (s.core p).goOn i.st ∧
        (x.sel.toNat = 0 → OnlyCore { s with stp := { s.stp with
          loss := match s.stp.loss with
            | some (u, l) => some (if i.v.val ≤ u then (i.v.val, (s.scalarOf i p x.sa).truncate 32) else (u, l))
            | none => some (i.v.val, (s.scalarOf i p x.sa).truncate 32) } } t p) ∧
        (x.sel.toNat ≠ 0 → OnlyCore { s with stp := { s.stp with
          nfCount := addSat s.stp.nfCount ((s.scalarOf i p x.sa).truncate 32) } } t p)) ∧
    (∀ x, s.canIssue i (.flags x) p = true → (s.streamOf i p).lateFlags = [] →
      ∃ t, exec (.flags i x) s = .next t ∧ OnlyCore s t p ∧
        t.core p = ((s.core p).setStream i.st { (s.streamOf i p).setS x.sd.toNat ((s.streamOf i p).flags.zeroExtend 64) with
          flags := (s.streamOf i p).flags &&& ~~~x.mask }).goOn i.st)

/-- R200, R201: MCOPY reads its granules and sends them to the destination core, followed by the update of CTR_D, which at the issuing core is
an update of its movement unit; CTR_R rises. A copy within the core whose destination begins inside its source writes each granule before it
reads the next, so that the first granules repeat. -/
def Obligations.CopySends : Prop :=
  ∀ (s : State) (i : Iss) (x : FmtM) (p : Nat), s.canIssue i (.mcopy x) p = true →
    let src := s.scalarOf i p x.sa
    let dst := s.scalarOf i p x.sb
    let g := x.len.toNat
    let pos := if refSelf dst then i.v.val else refVy dst * 8 + refVx dst
    let inside := pos = i.v.val ∧ refOff src < refOff dst ∧ refOff dst < refOff src + 64 * g
    let update := if x.enD then [if pos = i.v.val then Item.done pos x.ctrD.toNat else .counter x.ctrD.toNat 1] else []
    s.plainRef i p src (64 * g) 64 → cmOk (s.ctxOf i.v p) dst (64 * g) false 64 = true → countable (s.core p) x.enR x.ctrR →
    (¬ inside → ∃ t, exec (.mcopy i x) s = .next t ∧ t.core p = (countOnce (s.core p) x.enR x.ctrR).goOn i.st ∧
      PairRose s t (Reg.muBusyCycLo p) g ∧
      CoreAndRegs (s.launched i pos (opcodeOf (.mcopy x))
        ((List.range g).map (fun k => Item.granule (refOff dst + 64 * k) (bytesAt (s.core p).cm (refOff src + 64 * k) 64)) ++
          update)) t p (pairAt (Reg.muBusyCycLo p))) ∧
    (inside → Plain (s.ctxOf i.v p) (refOff dst) (64 * g) → ∃ t, exec (.mcopy i x) s = .next t ∧
      t.core p = { countOnce (s.core p) x.enR x.ctrR with cm := (List.range g).foldl (fun m k =>
        setBytes m (refOff dst + 64 * k) (bytesAt m (refOff src + 64 * k) 64)) (s.core p).cm }.goOn i.st ∧
      PairRose s t (Reg.muBusyCycLo p) g ∧
      CoreAndRegs (s.launched i pos (opcodeOf (.mcopy x)) update) t p (pairAt (Reg.muBusyCycLo p)))

/-- R202: CALARM arms a free ticket that no data waits for. -/
def Obligations.TicketArmed : Prop :=
  ∀ (s : State) (i : Iss) (x : FmtM) (p : Nat) (d : TicketDef), s.canIssue i (.calarm x) p = true →
    let n := x.len.toNat % 1024
    tget none (s.core p).tickets n = none → s.ticketDef i.v n = some d → s.movedAll i.v n < d.len →
    (∀ e ∈ (s.core p).landing, e.1 ≠ n) → cmOk (s.ctxOf i.v p) (s.scalarOf i p x.sa) (64 * d.granules) true 64 = true →
    let k : Ticket := ⟨s.scalarOf i p x.sa, true, if x.enD then some x.ctrD.toNat else none, i.st⟩
    ∃ t, exec (.calarm i x) s = .next t ∧ OnlyCore s t p ∧
      t.core p = { s.core p with tickets := tset none (s.core p).tickets n (some k) }.goOn i.st

/-- R203: GATHER and SCATTER read their index list, SCATTER its rows too, and join the narrow path's requests; CTR_R rises. -/
def Obligations.NarrowRequests : Prop :=
  ∀ (s : State) (i : Iss) (x : FmtM) (p : Nat),
    let rows := narrowRows x
    let size := rows * s.rowBytes i.v (narrowTable x)
    let row := s.scalarOf i p x.sb
    s.plainRef i p (s.scalarOf i p x.sa) (4 * rows) 4 → countable (s.core p) x.enR x.ctrR →
    (s.canIssue i (.gather x) p = true → cmOk (s.ctxOf i.v p) row size true 32 = true →
      ∃ t, exec (.gather i x) s = .next t ∧ CoreAndRegs s t p (pairAt (Reg.muBusyCycLo p)) ∧
        t.core p = ((countOnce (s.core p) x.enR x.ctrR).asked ⟨false, narrowTable x, s.indexList i p x, [], row, true, [],
          if x.enD then some x.ctrD.toNat else none, i.st⟩).goOn i.st) ∧
    (s.canIssue i (.scatter x) p = true → s.plainRef i p row size 32 →
      ∃ t, exec (.scatter i x) s = .next t ∧ CoreAndRegs s t p (pairAt (Reg.muBusyCycLo p)) ∧
        t.core p = ((countOnce (s.core p) x.enR x.ctrR).asked ⟨true, narrowTable x, s.indexList i p x, s.bytesOf p row size, row,
          true, [], if x.enD then some x.ctrD.toNat else none, i.st⟩).goOn i.st)

/-- R204, R205, R310, R498: NSEND hands its granules to its flow as a DATA message; NRECV arms a receive on a flow without waiting
messages. -/
def Obligations.SendAndReceive : Prop :=
  ∀ (s : State) (i : Iss) (x : FmtM) (p : Nat),
    let d := s.bytesOf p (s.scalarOf i p x.sb) 64
    s.plainRef i p (s.scalarOf i p x.sb) 64 64 →
    (s.canIssue i (.nsend x) p = true → s.plainRef i p (s.scalarOf i p x.sa) (64 * x.len.toNat) 64 → sendOk d = true →
      countable (s.core p) x.enR x.ctrR →
      let u := s.sendMsg (leNat (d.take 2)) 0 0 (i.v / 32) (BitVec.ofNat 32 (leNat ((d.drop 4).take 4))) 0 s.stroke.step false 0
        (s.bytesOf p (s.scalarOf i p x.sa) (64 * x.len.toNat))
      ∃ t, exec (.nsend i x) s = .next t ∧ t.core p = (countOnce (s.core p) x.enR x.ctrR).goOn i.st ∧
        CoreAndRegs u t p (pairAt (Reg.muBusyCycLo p)) ∧ PairRose u t (Reg.muBusyCycLo p) x.len.toNat) ∧
    (s.canIssue i (.nrecv x) p = true → cmOk (s.ctxOf i.v p) (s.scalarOf i p x.sa) (64 * x.len.toNat) true 64 = true →
      recvOk d = true → (s.flow (leNat (d.take 2))).waiting = [] → s.scalarOf i p x.sa ≠ BitVec.allOnes 64 →
      ∃ t, exec (.nrecv i x) s = .next t ∧ t.core p = (s.core p).goOn i.st ∧
        OnlyCore (s.setFlow (leNat (d.take 2)) { s.flow (leNat (d.take 2)) with
          arms := (s.flow (leNat (d.take 2))).arms ++ [⟨i.v, i.st, s.scalarOf i p x.sa, true, x.len.toNat,
            BitVec.ofNat 64 (leNat ((d.drop 8).take 8)), if x.enD then some x.ctrD.toNat else none⟩] }) t p)

/-- R206, R312, R498: NCOLL of a one-stage collective whose roots are elsewhere, as the first of its core's device: the run begins with
the core's part, the node is kept until it is released, and each segment of it goes to its root. -/
def Obligations.Contribution : Prop :=
  ∀ (s : State) (i : Iss) (x : FmtM) (p : Nat) (c : CollCfg), s.canIssue i (.ncoll x) p = true →
    let d := s.bytesOf p (s.scalarOf i p x.sb) 64
    let data := s.bytesOf p (s.scalarOf i p x.sa) (64 * x.len.toNat)
    let step := s.stroke.step
    let nd : CNode := ⟨leNat ((d.drop 4).take 4), leNat ((d.drop 8).take 1), s.member,
      !c.int && nonFinite (data.length / 4) data, data, false, i.v / 32⟩
    s.plainRef i p (s.scalarOf i p x.sb) 64 64 → s.plainRef i p (s.scalarOf i p x.sa) (64 * x.len.toNat) 64 →
    countable (s.core p) x.enR x.ctrR → collDscOk d = true → s.collCfg (BitVec.ofNat 32 (leNat (d.take 4))) = some c →
    c.lenG = x.len.toNat → c.stages = 1 → c.normEn = false → s.job.assay = false → s.stp.broken = none → nd.shard < c.n →
    s.rbit Reg.numMode 8 = true ∨ c.kind = 2 ∨ c.kind = 3 →
    (∀ seg < c.segs, s.rootMember c 1 0 seg ≠ s.member) → (∀ r ∈ s.fab.roots, r.coll = c.coll → r.step ≠ step) →
    s.collRun? c.coll step = none → s.collRun? c.coll (step - 1) = none →
    let u := (List.range c.segs).foldl (fun u seg => u.sendNode c (s.rootMember c 1 0 seg) seg (i.v / 32) false step
      (segNode c seg nd)) (s.setCollRun { s.collRunOrNew c.coll step with
        cores := [collCore i.v i.st d (if x.enD then some x.ctrD.toNat else none)]
        nodes := [nd] })
    ∃ t, exec (.ncoll i x) s = .next t ∧ t.core p = (countOnce (s.core p) x.enR x.ctrR).goOn i.st ∧
      CoreAndRegs u t p (pairAt (Reg.muBusyCycLo p))

/-- R209, R210, R131, R157: MLOAD fills the stationary tile of its engine from core memory, and its wave takes 64 cycles, which count as
planished too. -/
def Obligations.StationaryLoad : Prop :=
  ∀ (s : State) (i : Iss) (x : FmtMload) (p : Nat), s.canIssue i (.mload x) p = true →
    let f := formatOf x.fmt
    let k := x.k1.toNat + 1
    let n := x.n1.toNat + 1
    let el := s.rowEl p f x.mx (s.scalarOf i p x.sa) (s.pitchAt i p x.sb) (s.scalarOf i p x.sc) k
    s.rowsOk i p f x.mx (s.scalarOf i p x.sa) (s.pitchAt i p x.sb) (s.scalarOf i p x.sc) k n →
    ∃ (t : State) (y : Engine), exec (.mload i x) s = .next t ∧
      CoreAndRegs s t p (fun o => pairAt (Reg.meWaveCycLo p x.eng.toNat) o ∨ pairAt (Reg.mePlanCycLo p x.eng.toNat) o) ∧
      PairRose s t (Reg.meWaveCycLo p x.eng.toNat) 64 ∧ PairRose s t (Reg.mePlanCycLo p x.eng.toNat) 64 ∧
      t.core p = ((s.core p).setEngine x.eng.toNat y).goOn i.st ∧
      y.tag = some f ∧ y.mx = x.mx ∧ y.pieces = x.pieces.toNat ∧ y.k = k ∧ y.n = n ∧
      y.tiles = ((s.core p).engine x.eng.toNat).tiles ∧ y.tileFmt = ((s.core p).engine x.eng.toNat).tileFmt ∧
      ∀ c < n, ∀ kk < k, y.el kk c = el c kk

/-- R134, R137, R140, R211, R212: MSTR and MSTRT put into each accumulator element they name the dot product of a streamed row with a
column, or with a row, of the stationary tile, on top of what it held unless they begin; no other element changes. -/
def Obligations.StreamedProducts : Prop :=
  ∀ (s : State) (i : Iss) (x : FmtMstr) (p : Nat) (op : IsaOp), s.canIssue i op p = true → op = .mstr x ∨ op = .mstrt x →
    let e := (s.core p).engine x.eng.toNat
    let fa := formatOf x.fmtA
    let fs := formatOf x.fmtS
    let n := min (x.n1.toNat + 1) e.n
    let len := if op = .mstr x then e.k else x.n1.toNat + 1
    let t0 := x.tile.toNat
    let row (j : Nat) : List El := s.rowEls p fa x.mxA (s.scalarOf i p x.sa) (s.pitchAt i p x.sb) (s.scalarOf i p x.sc) len j
    let old (k : Nat) : Option Word := if x.begin then none else some (tget 0 e.tiles k)
    let dot (k : Nat) (terms : List (El × El)) : Word := (dotElem s.sumOrder fa fs x.pieces.toNat (old k) terms).1
    e.tag = some fs → e.mx = x.mxS → e.pieces = x.pieces.toNat → e.k ≤ ktOf (widerFmt fa fs) → e.k ≤ 256 → e.n ≤ 64 →
    (x.begin = false → ∀ t, tget .none e.tileFmt t = impliedFmt fa) →
    s.rowsOk i p fa x.mxA (s.scalarOf i p x.sa) (s.pitchAt i p x.sb) (s.scalarOf i p x.sc) len (x.m1.toNat + 1) →
    ∃ (t : State) (y : Engine) (fl : Flg), exec (cmdOf i op) s = .next t ∧
      CoreAndLog s t p (fun o => eventRegs (pgMe p x.eng.toNat) o ∨ o = Reg.numFlagSum) ∧
      t.core p = (((s.core p).setEngine x.eng.toNat { e with tiles := y.tiles, tileFmt := y.tileFmt }).setStream i.st
        (withFlags (s.core p) i.st (s.streamOf i p) fl)).goOn i.st ∧
      (op = .mstr x → (∀ j ≤ x.m1.toNat, ∀ c < n, tget 0 y.tiles (tileKey (t0 + j / 256) (j % 256) c) =
          dot (tileKey (t0 + j / 256) (j % 256) c) ((row j).zip (e.column e.k c))) ∧
        (∀ k, (∀ j ≤ x.m1.toNat, ∀ c < n, k ≠ tileKey (t0 + j / 256) (j % 256) c) → tget 0 y.tiles k = tget 0 e.tiles k)) ∧
      (op = .mstrt x → (∀ j ≤ x.m1.toNat, ∀ o < e.k, tget 0 y.tiles (tileKey (t0 + o / 64) j (o % 64)) =
          dot (tileKey (t0 + o / 64) j (o % 64)) (((row j).take n).zip (e.crossRow n o))) ∧
        (∀ k, (∀ j ≤ x.m1.toNat, ∀ o < e.k, k ≠ tileKey (t0 + o / 64) j (o % 64)) → tget 0 y.tiles k = tget 0 e.tiles k))

/-- R141, R213: MDRAIN converts the rows of a tile and writes them, row by row, to core memory, with their scales where it makes MX
data; no other byte changes. -/
def Obligations.DrainedRows : Prop :=
  ∀ (s : State) (i : Iss) (x : FmtMdrain) (p : Nat), s.canIssue i (.mdrain x) p = true →
    let f := formatOf x.fmt
    let e := (s.core p).engine x.eng.toNat
    let a := s.scalarOf i p x.sa
    let pitch := (s.scalarOf i p x.sc).toNat / 2 ^ 32
    let sz := f.width / 8
    let row (j : Nat) := drainRow f x.mx (modeOf2 x.rmode.toNat) x.sat x.rule
      (fun k => seedBits (BitVec.ofNat 64 (s.rpair Reg.numSeedLo)) s.stroke.step ((s.scalarOf i p x.sc).truncate 32)
        ((s.scalarOf i p x.sb).toNat % 2 ^ 48 + j * pitch + k))
      ((List.range (x.n1.toNat + 1)).map (fun k => tget 0 e.tiles (tileKey x.tile.toNat j k)))
    let dst (j : Nat) : DWord := a + BitVec.ofNat 64 (j * pitch * sz)
    let scl (j : Nat) : DWord := s.scalarOf i p x.sd + BitVec.ofNat 64 (j * ((pitch + 31) / 32))
    tileAdmits (tget .none e.tileFmt x.tile.toNat) f = true →
    (∀ j ≤ x.r1.toNat, s.plainRef i p (dst j) (row j).2.1.length (if j = 0 then 64 else sz)) →
    (x.mx = true → ∀ j ≤ x.r1.toNat, s.plainRef i p (scl j) (row j).1.length 1) →
    ∃ t, exec (.mdrain i x) s = .next t ∧ CoreAndRegs s t p (fun o => o = Reg.numFlagSum) ∧
      t.core p = ({ s.core p with cm := (List.range (x.r1.toNat + 1)).foldl (fun m j =>
          setBytes (setBytes m (refOff (dst j)) (row j).2.1) (refOff (scl j)) (row j).1) (s.core p).cm }.setStream i.st
        (withFlags (s.core p) i.st (s.streamOf i p)
          ((List.range (x.r1.toNat + 1)).foldl (fun fl j => fl ||| (row j).2.2) 0))).goOn i.st

/-- R144, R214: MEW writes the products of two vectors, element by element, as FP32. -/
def Obligations.ElementProducts : Prop :=
  ∀ (s : State) (i : Iss) (x : FmtMew) (p : Nat), s.canIssue i (.mew x) p = true →
    let fa := (Fmt.ofCode x.fmtA).getD .bf16
    let fb := (Fmt.ofCode x.fmtB).getD .bf16
    let len := x.l1.toNat + 1
    let a := s.scalarOf i p x.sa
    let b := s.scalarOf i p x.sb
    let d := s.scalarOf i p x.sc
    let prod (k : Nat) := ewProduct fa fb (packedElem fa (s.bytesOf p a (packedBytes fa len)) k)
      (packedElem fb (s.bytesOf p b (packedBytes fb len)) k)
    s.plainRef i p a (packedBytes fa len) (alignOf fa) → s.plainRef i p b (packedBytes fb len) (alignOf fb) →
    s.plainRef i p d (4 * len) 64 →
    (∀ k, within (refOff d) (4 * len) k → ¬ within (refOff a) (packedBytes fa len) k ∧ ¬ within (refOff b) (packedBytes fb len) k) →
    ∃ t m, exec (.mew i x) s = .next t ∧
      CoreAndRegs s t p (fun o => o = Reg.numFlagSum ∨ pairAt (Reg.meWorkCycLo p x.eng.toNat) o) ∧
      Holds m (refOff d) ((List.range len).flatMap (fun k => leBytes 4 (prod k).1.toNat)) ∧
      BytesKept (s.core p).cm m (within (refOff d) (4 * len)) ∧
      t.core p = ({ s.core p with cm := m }.setStream i.st (withFlags (s.core p) i.st (s.streamOf i p)
        ((List.range len).foldl (fun fl k => fl ||| (prod k).2) 0))).goOn i.st

/-- R164, R166, R219 to R222: the vector instructions that give each element from the elements of its place, and VXPD. -/
def Obligations.VectorLanes : Prop :=
  ∀ (s : State) (i : Iss) (op : IsaOp) (p : Nat) (j : LaneJob), s.canIssue i op p = true → laneJob s i p op = some j →
    ∃ t, exec (cmdOf i op) s = .next t ∧ LanesDone s t i p j

/-- R166, R219, R223: VCMP writes the bits of a predicate, VRED a scalar, VCPR the active elements to the front of a group and their
number to a scalar. -/
def Obligations.VectorResults : Prop :=
  ∀ (s : State) (i : Iss) (f : FmtV) (p : Nat),
    let x := s.streamOf i p
    let m := f.mode.toNat
    let n := vCount f.g m
    let pr := s.predOf i p f.pr
    (s.canIssue i (.vcmp f) p = true → ∃ t w, exec (.vcmp i f) s = .next t ∧ VectorFrame s t p 0 (gOf f.g) ∧
      t.core p = ((s.core p).setStream i.st (x.setP (f.vd.toNat % 8) w)).goOn i.st ∧
      ∀ k < 1024, w.getLsbD k = if n ≤ k then (pget x.preg (f.vd.toNat % 8)).getLsbD k
        else if pr.getLsbD k then vcmpHolds f.opx.toNat m (vElem x m f.va.toNat k) (bElem (s.issueOf p i.st (.vcmp f)) f x k)
        else !f.zero && (pget x.preg (f.vd.toNat % 8)).getLsbD k) ∧
    (s.canIssue i (.vred f) p = true →
      let leaf (k : Nat) : Option Word := if pr.getLsbD k then
        some (if m = 1 then vElem x m f.va.toNat k <<< 16 else vElem x m f.va.toNat k) else none
      let r := redEval f.opx.toNat m ((List.range n).map leaf)
      ∃ t, exec (.vred i f) s = .next t ∧ VectorFrame s t p r.2 (gOf f.g) ∧
        t.core p = ((s.core p).setStream i.st (withFlags (s.core p) i.st (x.setS f.ss.toNat r.1) r.2)).goOn i.st) ∧
    (s.canIssue i (.vcpr f) p = true →
      let act := activeOf x pr m f.va.toNat n
      ∃ t r, exec (.vcpr i f) s = .next t ∧ VectorFrame s t p 0 (gOf f.g) ∧
        t.core p = ((s.core p).setStream i.st ({ x with vreg := r }.setS f.ss.toNat (BitVec.ofNat 64 act.length))).goOn i.st ∧
        (∀ k < n, vElem { x with vreg := r } m f.vd.toNat k = act.getD k 0) ∧
        ∀ w, w < 64 * f.vd.toNat ∨ 64 * (f.vd.toNat + gOf f.g) ≤ w → ({ x with vreg := r } : StreamSt).vword w = x.vword w)

/-- R225, R226: VLD from own memory outside HANDOFF regions. R225, R227: VST to own memory outside HANDOFF regions: the active elements as
packed elements, of an MX store all of them and the scales; inactive elements and all other bytes keep their values. -/
def Obligations.VectorMemory : Prop :=
  (∀ (s : State) (i : Iss) (f : FmtVM) (p : Nat), s.canIssue i (.vld f) p = true →
     let n := vCount f.g f.mode.toNat
     s.plainRef i p (s.scalarOf i p f.sa) (packedBytes (formatOf f.fmt) n) (alignOf (formatOf f.fmt)) →
     (f.mx = true → s.plainRef i p (s.scalarOf i p f.ssc) (n / 32) 1) →
     ∃ t, exec (.vld i f) s = .next t ∧ LanesDone s t i p (vldJob s i p f)) ∧
  (∀ (s : State) (i : Iss) (f : FmtVM) (p : Nat), s.canIssue i (.vst f) p = true →
     let n := vCount f.g f.mode.toNat
     let fmt := formatOf f.fmt
     let len := packedBytes fmt n
     let off := refOff (s.scalarOf i p f.sa)
     let scl := refOff (s.scalarOf i p f.ssc)
     let j := vstJob s i p f
     s.plainRef i p (s.scalarOf i p f.sa) len (alignOf fmt) →
     (f.mx = true → s.plainRef i p (s.scalarOf i p f.ssc) (n / 32) 1 ∧ (off + len ≤ scl ∨ scl + n / 32 ≤ off)) →
     ∃ t m, exec (.vst i f) s = .next t ∧ VectorFrame s t p j.flags j.cycles ∧
       t.core p = ({ s.core p with cm := m }.setStream i.st (withFlags (s.core p) i.st (s.streamOf i p) j.flags)).goOn i.st ∧
       (∀ k < n, packedElem fmt (bytesAt m off len) k =
         if j.pred.getLsbD k then BitVec.ofNat 32 ((j.val k).1.toNat % 2 ^ fmt.width)
         else packedElem fmt (bytesAt (s.core p).cm off len) k) ∧
       (f.mx = true → Holds m scl (vstBlocks s i p f).1) ∧
       BytesKept (s.core p).cm m (fun k => within off len k ∨ (f.mx = true ∧ within scl (n / 32) k)))

/-- R167, R224: VCPST appends the active elements to a buffer up to its capacity and counts those lost; VXPLD takes elements from it
into the active places. -/
def Obligations.CompressBuffer : Prop :=
  ∀ (s : State) (i : Iss) (f : FmtVB) (p : Nat),
    let x := s.streamOf i p
    let m := f.mode.toNat
    let sz := if m = 1 then 2 else 4
    let cap := (s.scalarOf i p f.scap).toNat
    let pos := (s.scalarOf i p f.sn).toNat
    let off := refOff (s.scalarOf i p f.sa) + sz * pos
    let pr := s.predOf i p f.pr
    let act := activeOf x pr m f.vr.toNat (vCount f.g m)
    let kk := min act.length (cap - pos)
    let rank (k : Nat) : Nat := ((List.range k).filter (fun h => pr.getLsbD h)).length
    cmOk (s.ctxOf i.v p) (s.scalarOf i p f.sa) (sz * cap) true 64 = true → Plain (s.ctxOf i.v p) off (sz * kk) →
    (s.canIssue i (.vcpst f) p = true → ∃ t cm, exec (.vcpst i f) s = .next t ∧ VectorFrame s t p 0 (gOf f.g) ∧
      t.core p = ({ s.core p with cm := cm }.setStream i.st (bufferScalars s i p f act.length x)).goOn i.st ∧
      Holds cm off ((act.take kk).flatMap (fun w => leBytes sz w.toNat)) ∧
      BytesKept (s.core p).cm cm (within off (sz * kk))) ∧
    (s.canIssue i (.vxpld f) p = true → ∃ t r, exec (.vxpld i f) s = .next t ∧ VectorFrame s t p 0 (gOf f.g) ∧
      t.core p = ((s.core p).setStream i.st (bufferScalars s i p f act.length { x with vreg := r })).goOn i.st ∧
      (∀ k < vCount f.g m, vElem { x with vreg := r } m f.vr.toNat k =
        if pr.getLsbD k ∧ rank k < kk then BitVec.ofNat 32 (leNat (bytesAt (s.core p).cm (off + sz * rank k) sz))
        else vElem x m f.vr.toNat k) ∧
      ∀ w, w < 64 * f.vr.toNat ∨ 64 * (f.vr.toNat + gOf f.g) ≤ w → ({ x with vreg := r } : StreamSt).vword w = x.vword w)

/-- R197, R201, R249, R254: a flight lands in order, a granule with its bytes, a counter update with its addition; one whose write is not
held leaves the network, and the cycles for which it was held count. -/
def Obligations.FlightLands : Prop :=
  ∀ (s : State) (k p : Nat) (f : Flight), s.flights[k]? = some f → s.mayLand k f = true → s.holder f.dst = some p →
    s.stroke.hold = .no →
    (∀ off bs held, f.items = [.granule off bs] → Plain (s.ctxOf f.dst p) off bs.length → ∃ t cm,
      exec (.ondieTransferLanding k ⟨held, none⟩) s = .next t ∧
      t = { s.setCore p { s.core p with cm := cm } with flights := s.flights.eraseIdx k, regs := t.regs } ∧
      Holds cm off bs ∧ BytesKept (s.core p).cm cm (within off bs.length) ∧ PairRose s t (Reg.coreCvWriteLo p) held ∧
      RegsKept s t (fun o => pairAt (Reg.coreCvWriteLo p) o ∨ o = Reg.coreCvStep p)) ∧
    (∀ ctr d, f.items = [.counter ctr d] → (tget 0 (s.core p).ctr ctr).toNat + d.toNat ≤ 0xFFFFFFFF →
      exec (.ondieTransferLanding k ⟨0, none⟩) s = .next { s.setCore p { s.core p with
        ctr := tset 0 (s.core p).ctr ctr (addSat (tget 0 (s.core p).ctr ctr) d),
        added := tset 0 (s.core p).added ctr (tget 0 (s.core p).added ctr + d.toNat) } with flights := s.flights.eraseIdx k }) ∧
    (∀ off bs g e rest held, f.items = .granule off bs :: rest → granules off bs.length = [g] →
      regionOf (s.ctxOf f.dst p) g = some e → (tget gran0 (s.core p).gran g).v = true →
      exec (.ondieTransferLanding k ⟨held, none⟩) s = .next { s with flights := s.flights.set k f })

/-! ### Strokes, steps and epochs -/

/-- R71 to R74: at cycle 2^n a late stroke is stretched under STRETCH and given up with 0x0303 under FAULT; a stretched stroke that passes
STRETCH_MAX is given up with 0x0302. A stroke given up ends in DRAIN. R57, R61: every boundary raises the device stroke number by 1,
whatever it applies. -/
def Obligations.StrokesEnd : Prop :=
  (∀ (s : State), s.clockRuns = true → s.lateStreams ≠ [] →
     (s.stroke.hold = .no → s.rbit Reg.stkStrokeCfg 8 = false →
       exec .strokeEndReached s = .next { s with stroke := { s.stroke with stretched := true } }) ∧
     (s.stroke.hold = .no → s.rbit Reg.stkStrokeCfg 8 = true → ∃ t, exec .strokeEndReached s = .next t ∧
       Raised { s with stroke := { s.stroke with hung := true, drainNext := true } } t (pgStk 1) 2) ∧
     (s.stroke.stretched = true → s.stroke.hung = false → s.rfield Reg.stkStrokeCfg 16 8 ≠ 0 → ∃ t, exec .stretchMaxExpiry s = .next t ∧
       Raised { s with stroke := { s.stroke with hung := true, drainNext := true } } t (pgStk 1) 1)) ∧
  (∀ (s : State) (b : BoundaryObs), s.mayFall = true →
     ∃ t, exec (.strokeBoundary b) s = .next t ∧ t.stroke.devStroke = s.stroke.devStroke + 1)

/-- R82, R385, R386, R429: an assay job that has run its strokes in RUN completes and drains; a drain that is done, or whose limit has
passed, ends at the next boundary, and the limit abandons with 0x0806 what remains. -/
def Obligations.DrainsEnd : Prop :=
  ∀ (s : State),
    (s.assayOver = true → s.stroke.hold = .no → s.mgmt.dev = .run → exec .assayLimitReached s = .next ({ s with
      job := { s.job with complete := true, cmd := none }
      stroke := { s.stroke with drainNext := true } }.endOp s.job.cmd stOk 0)) ∧
    (s.mgmt.dev = .drain → s.stroke.hold = .no → s.drainOpen = false →
      exec .drainComplete s = .next { s with stroke := { s.stroke with drained := true } }) ∧
    (s.mgmt.dev = .drain → s.stroke.drained = false → ∃ t, exec .drainLimitExpiry s = .next t ∧
      Raised { s with
        stroke := { s.stroke with drained := true }
        flights := s.flights.filter (fun f => f.opc != 0x81 && f.opc != 0x82)
        stp := { s.stp with pendingRec := none }
        fab := { s.fab with colls := [], roots := [], coords := [],
                            flows := s.fab.flows.map (fun e => (e.1, { e.2 with retained := [], arms := [], rxq := [] })) } } t pgMss 3)

/-- R324, R448, R449: at a boundary held for an epoch, the end of the old epoch's drain begins the epoch if its image is sound; the drain's
limit raises 0x0506 and the request is gone. R352, R353: in the first stroke of a restore epoch a member whose digest is its twin's takes
part in the job again, with that digest as the one of the last committed step. One whose digest is not its first twin's raises 0x0316 and
goes on with the fallback twin's data; one whose digest is neither twin's raises it again and is left out. A member that restores nothing
is not concerned. -/
def Obligations.EpochChanges : Prop :=
  (∀ (s : State) (b : BoundaryObs) (q : EpochReq), s.stroke.hold = .epoch → s.stroke.obs = some b → s.epoch.req = some q →
     (s.netOpen = false → (({ s with stroke := { s.stroke with hold := .no } } : State).epochImage q.refs).1 = true →
       ∃ t, exec .epochDrainComplete s = .next t ∧ t.epoch.cur = q.epoch ∧ t.epoch.req = none) ∧
     (∃ t, exec .epochDrainTimeout s = .next t ∧ t.epoch.cur = s.epoch.cur ∧ t.epoch.req = none ∧ t.stroke.hold = .no)) ∧
  (∀ (s : State) (b : BoundaryObs) (digest : List Byte), s.stroke.hold = .restore → s.stroke.obs = some b →
     (s.epoch.restoring = none → exec (.twinRestoreComplete digest) s = .next s) ∧
     (∀ k t1 t2, s.epoch.restoring = some (k, t1, t2) → (s.putRestored k).stateDigest = digest →
       ∃ t, exec (.twinRestoreComplete digest) s = .next t ∧ t.epoch.restoring = none ∧ t.job.params.restore = false ∧
         t.stp.lastDigest = digest ∧ t.stp.lastStep = s.stroke.step - 1) ∧
     (∀ t1 t2, s.epoch.restoring = some (0, t1, t2) → (s.putRestored 0).stateDigest ≠ digest →
       ∃ t, exec (.twinRestoreComplete digest) s = .next t ∧
         Raised { s.putRestored 0 with epoch := { (s.putRestored 0).epoch with restoring := some (1, t1, t2) } } t (pgStk 3) 3) ∧
     (∀ t1 t2, s.epoch.restoring = some (1, t1, t2) → (s.putRestored 1).stateDigest ≠ digest →
       ∃ t, exec (.twinRestoreComplete digest) s = .next t ∧ t.evtSet (pgStk 3) 3 = true ∧ t.epoch.restoring = none ∧
         t.epoch.leftOut = true))

/-- R334: the job verdict that the coordinator forms from the votes it holds: for its step, each of the five bits of the local verdicts set
where a vote has it, SKIP exactly where it has a reason. R319: a backup that has voted and hears no verdict issues one and goes on by it.
R332, R335, R337, R345: a verdict closes the step: the next one opens, STK_VERDICT, the loss scale and the last statistics are written, the
record waits for the ledger, and a step that commits is counted. -/
def Obligations.StepsClose : Prop :=
  (∀ (s : State), s.job.present = true → s.stp.verdict = none →
     (s.job.params.replay = false → s.member = s.job.params.coord → s.stp.votes ≠ [] → s.stroke.hold = .no →
       ∃ t v, exec .voteDeadline s = .next t ∧ t.stp.verdict = some v ∧ t.stp.lastVerdict = some v ∧ v.step = s.stroke.step ∧
         (v.skip = true ↔ v.reasons ≠ 0) ∧ (∀ x ∈ s.stp.votes, ∀ k < 5, x.verdict.testBit k = true → v.reasons.testBit k = true) ∧
         (∀ k < 5, k ≠ 2 → v.reasons.testBit k = true → ∃ x ∈ s.stp.votes, x.verdict.testBit k = true)) ∧
     (s.member = s.job.params.backup → s.stp.votedStep = some s.stroke.step → s.stroke.hold = .verdict → s.job.params.replay = false →
       ∃ v, s.issueVerdict.stp.verdict = some v ∧ exec .verdictTakeover s = .next (s.issueVerdict.stepCloses v))) ∧
  (∀ (s : State) (v : JobVerdict), s.job.params.replay = false →
     let out := v.excluded.contains s.replica
     let commit := !v.skip && !out && s.stp.broken.isNone && !s.job.assay
     let t := s.closeStep v
     t.stroke.step = s.stroke.step + 1 ∧ t.stp.committed = commit ∧
     t.stp.commits = (if commit then s.stp.commits + 1 else s.stp.commits) ∧
     t.rget Reg.stkVerdict = BitVec.ofNat 32 (s.stp.localV + (if out then 64 else 0) + 2 ^ 16 * v.reasons + (if v.skip then 2 ^ 21 else 0)) ∧
     (∃ r, t.stp.pendingRec = some r ∧ r.step = s.stroke.step ∧ r.skip = v.skip ∧ r.jobV = v.reasons ∧ r.epoch = s.epoch.cur) ∧
     (v.drain = true ∨ out = true → s.job.assay = false → t.stroke.drainNext = true))

/-- R307: a verdict is sent again, as it was, to each member that has not had it. R347: a sound record of the replay ring for this step
or one of the next two is kept. -/
def Obligations.ResentAndReplayed : Prop :=
  ∀ (s : State),
    (∀ v, s.stp.lastVerdict = some v → exec .verdictResend s =
      .next (s.stp.owed.foldl (fun u m => u.sendAgree m 0 0 v.step (verdictBytes v)) s)) ∧
    (∀ bs r, recordOf bs = some r → s.job.present = true → s.job.params.replay = true → (r.step - s.stroke.step).toNat ≤ 2 →
      s.stroke.hold = .no → ∃ t, exec (.replayRecordArrival bs) s = .next t ∧ r ∈ t.stp.replayRecs ∧
        ∀ x ∈ t.stp.replayRecs, x = r ∨ (x ∈ s.stp.replayRecs ∧ x.step ≠ r.step))

/-! ### The command ring -/

/-- R66, R444, R410, R438, R451, R458: the commands that take effect with their completion. A cap outside its range is rejected, with the
offset of its field. UNSEAL overwrites the sealed bytes with zeros and ends every seal (R367). RETRAIN begins the training of a stack out
of service (R286). BURNISH_RUN takes its core to UNDER_TEST. -/
def Obligations.RingCommands : Prop :=
  ∀ (s : State) (e : RingEntry),
    let ok (u : State) : State := u.reply (entRef e) 0 stOk 0
    (s.ringTakes 0x03 e → 1100 ≤ blk e.raw 16 2 → blk e.raw 16 2 ≤ 2800 →
      exec (.setCap e) s = .next (ok (s.rsetField Reg.pwrCap 0 12 (blk e.raw 16 2)))) ∧
    (s.ringTakes 0x03 e → blk e.raw 16 2 < 1100 ∨ 2800 < blk e.raw 16 2 →
      exec (.setCap e) s = .next (s.reply (entRef e) 0 stRejected 16)) ∧
    (s.ringTakes 0x04 e → ∀ r pg, settable.find? (fun x => x.2.1 == blk e.raw 24 4 && x.2.2 == blk e.raw 28 4) = some (r, pg) →
      exec (.setSetting e) s = .next (ok { s with epoch := { s.epoch with settings := s.epoch.settings ++
        [⟨s.stroke.devStroke, BitVec.ofNat 64 (blk e.raw 16 8), r, BitVec.ofNat 32 (blk e.raw 24 4), BitVec.ofNat 32 (blk e.raw 28 4),
          BitVec.ofNat 32 (blk e.raw 32 4)⟩] } })) ∧
    (s.ringTakes 0x05 e → BitVec.ofNat 32 (blk e.refs.block 0 4) = s.epoch.cur + 1 → s.epoch.req = none → blk e.refs.block 4 1 < 2 →
      numModeOk (BitVec.ofNat 32 (blk e.refs.settings 0 4)) = true →
      exec (.epoch e) s = .next (ok { s with epoch := { s.epoch with
        req := some ⟨s.epoch.cur + 1, (blk e.refs.block 4 1).testBit 0, e.refs⟩ } })) ∧
    (s.ringTakes 0x08 e →
      let u := s.load.seals.foldl (fun u x => u.poke x.bulk x.first (List.replicate x.len 0)) s
      exec (.unseal e) s = .next (ok { u with load := { u.load with seals := [] } })) ∧
    (s.ringTakes 0x09 e → blk e.raw 16 1 ≤ 11 → (s.stk (blk e.raw 16 1)).out = true → (s.stk (blk e.raw 16 1)).temp.toNat < 95 →
      exec (.retrain e) s = .next (ok (s.setStk (blk e.raw 16 1) { s.stk (blk e.raw 16 1) with retraining := true }))) ∧
    (s.ringTakes 0x0A e →
      let p := blk e.raw 16 1
      let j := blk e.raw 17 1
      let u := ok s
      p < 144 → j < s.brn.packs.packs.length → (s.roleOf p).role = .spare ∨ (s.roleOf p).role = .fenced →
      exec (.burnishRun e) s = .next { u with
        roles := tset role0 s.roles p { s.roleOf p with role := .underTest }
        brn := { s.brn with
          tests := s.brn.tests ++ [⟨p, .full, some j, some (entRef e), false, s.brn.packs.packs, none⟩]
          due := s.brn.due.filter (· != p)
          deferred := s.brn.deferred.filter (· != p)
          overdue := s.brn.overdue.filter (· != p) } }) ∧
    (s.ringTakes 0x0B e → exec (.standby e) s = .next (ok { s with ring := { s.ring with
      standbyWait := !s.ring.stages.isEmpty, standbyEntry := s.ring.standbyEntry || s.ring.stages.isEmpty } })) ∧
    (s.ringTakes 0x0C e → s.fwFault (e.refs.data.take (blk e.raw 24 4)) = none → exec (.fwUpdate e) s = .next (ok { s with
      ring := { s.ring with fwWrite := s.ring.fwWrite ++ [(e.refs.data.take (blk e.raw 24 4), some (entRef e))] }
      mgmt := { s.mgmt with spiWpN := true } })) ∧
    (s.ringTakes 0x0D e → ∃ t, exec (.svnAdvance e) s = .next t ∧
      Raised (ok { s with fuses := { s.fuses with minSvn := min 64 (max s.fuses.minSvn s.mgmt.fwSvn) } }) t pgMss 0) ∧
    (s.ringTakes 0x0E e → ∃ t, exec (.wallNote e) s = .next t ∧
      Raised ((ok { s with mgmt := { s.mgmt with wall := s.mgmt.wall ++ [(BitVec.ofNat 64 (blk e.raw 16 8), s.mgmt.elapsed)] } }).setPair
        Reg.mssWallLo (blk e.raw 16 8)) t pgMss 5)

/-- R443, R446, R503: a malformed entry is rejected and raises 0x0805, one that the device's state does not take is rejected. R445, R446: a
completion is written behind those before it where the ring has room, with its index and notice; else it is held. -/
def Obligations.RingCompletions : Prop :=
  (∀ (s : State) (e : RingEntry) (c : Instr), s.stroke.hold = .no →
     (s.mgmt.dev = .ready ∨ s.mgmt.dev = .run ∨ s.mgmt.dev = .drain ∨ s.mgmt.dev = .quarantine) →
     (c, entOp e) ∈ [(Instr.jobStart e, 1), (.setCap e, 3), (.setSetting e, 4), (.epoch e, 5), (.loadWeights e, 6), (.stage e, 7),
       (.unseal e, 8), (.retrain e, 9), (.burnishRun e, 10), (.standby e, 11), (.fwUpdate e, 12), (.svnAdvance e, 13), (.wallNote e, 14)] →
     (∀ o, entFault e = some o → ∃ t, exec c s = .next t ∧
       Raised (s.reply (entRef e) 0 stRejected (BitVec.ofNat 64 o)) t pgMss 1) ∧
     (entFault e = none → s.accepts e = false → exec c s = .next (s.reply (entRef e) 0 stRejected 0))) ∧
  (∀ (s : State) (c : CmdRef) (phase status : Nat) (result : DWord),
     let x : Cpl := ⟨c.tag, c.opcode, phase, status, s.stroke.jobStroke, s.stroke.devStroke, result⟩
     let t := s.reply c phase status result
     ((s.ring.held = [] ∧ s.cplRoom = true → t.ring.written = s.ring.written ++ [x] ∧ t.ring.held = [] ∧
       t.rget Reg.pciCplPi = BitVec.ofNat 32 (((s.rget Reg.pciCplPi).toNat + 1) % s.cplSize) ∧
       t.mgmt.out = s.mgmt.out ++ [.msix (s.rfield Reg.pciCplCfg 4 3)]) ∧
      (s.ring.held ≠ [] ∨ s.cplRoom = false → t = { s with ring := { s.ring with held := s.ring.held ++ [x] } })) ∧
     t.cores = s.cores ∧ t.mem = s.mem ∧ t.fab = s.fab ∧ RegsKept s t (fun o => o = Reg.pciCplPi))

/-- R447: a job whose block and image pass the checks starts: the device runs, the job's strokes begin at 0 and its steps at the first one,
and every core placed starts its streams at the image's entries. R82 to R84: ABORT of the job in RUN ends it and takes the device to DRAIN,
with a completion of the abort and one of the job. -/
def Obligations.JobsStartAndAbort : Prop :=
  (∀ (s : State) (e : RingEntry), s.ringTakes 0x01 e → s.jobFault e.refs = none → s.mgmt.dev = .ready → blockAssay e.refs = false →
     ∃ t, exec (.jobStart e) s = .next t ∧ t.mgmt.dev = .run ∧ t.job.present = true ∧ t.job.complete = false ∧
       t.job.cmd = some (entRef e) ∧ t.stroke.jobStroke = 0 ∧ t.stroke.step = BitVec.ofNat 64 (blk e.refs.block 0 8) ∧
       t.stroke.devStroke = s.stroke.devStroke ∧ t.epoch.cur = 0 ∧ t.flights = [] ∧
       ∀ v p, (v, p) ∈ s.placements → t.roleOf p = ⟨.active, v, false⟩ ∧ (t.core p).ctr = [] ∧ (t.core p).held = [] ∧
         ∀ st, ((t.core p).stream st).phase = .run ∧ ((t.core p).stream st).flags = 0 ∧
           ((t.core p).stream st).sreg = ((s.core p).stream st).sreg ∧
           ((t.core p).stream st).pc = BitVec.ofNat 32 (match st with
             | .f => (entriesOf e.refs.image v).1 | .b => (entriesOf e.refs.image v).2.1 | .u => (entriesOf e.refs.image v).2.2)) ∧
  (∀ (s : State) (e : RingEntry) (c : CmdRef), s.ringTakes 0x02 e → s.mgmt.dev = .run → s.job.present = true → s.job.cmd = some c →
     c.tag = BitVec.ofNat 32 (blk e.raw 16 4) → s.brn.replPending = false →
     let u := s.reply (entRef e) 0 stAborted 0
     let o : EndedOp := ⟨c, stAborted, 0, true, true⟩
     let w := ({ u with
       job := { s.job with aborted := true, cmd := none }
       ring := { u.ring with ended := s.ring.ended ++ [o] } } : State).reply c 1 stAborted 0
     exec (.abort e) s = .next { w with
       mgmt := { w.mgmt with dev := .drain }
       stroke := { s.stroke with drainNext := false, drained := false, hung := false, stretched := false }
       brn := { s.brn with paused := [] } })

/-- R84: an abort of an operation that has been aborted before, or of one that the device does not know, completes with REJECTED and has no
other effect. -/
def Obligations.RepeatedAborts : Prop :=
  ∀ (s : State) (e : RingEntry), s.ringTakes 0x02 e →
    let tag : Word := BitVec.ofNat 32 (blk e.raw 16 4)
    (∀ c, s.job.cmd = some c → c.tag ≠ tag) → (∀ r ∈ s.load.loads, ∀ c, r.cmd = some c → c.tag ≠ tag) →
    (∀ x ∈ s.ring.stages, x.cmd.tag ≠ tag) → (∀ t ∈ s.brn.tests, ∀ c, t.cmd = some c → c.tag ≠ tag) →
    (∀ o ∈ s.ring.ended, o.cmd.tag = tag → o.aborted = true) →
    exec (.abort e) s = .next (s.reply (entRef e) 0 stRejected 16)

/-- R64 to R66: an entry asked for joins those that wait when it arrives, with its lateness, and the consumer index advances. R444: STAGE begins a transfer,
whose completion moves its bytes and ends it. R451: a written image replaces the firmware in the SPI NOR. -/
def Obligations.FetchStageFirmware : Prop :=
  ∀ (s : State) (e : RingEntry),
    (s.mayFetch = true → exec (.commandFetchArrival e) s = .next ({ s with ring := { s.ring with
        entries := s.ring.entries ++ [(e, s.strokesCount && entAt e != 0 && decide (entAt e ≤ s.stroke.jobStroke.toNat))]
        asked := s.ring.asked - 1 } }.rset Reg.pciRingCi
          (BitVec.ofNat 32 (((s.rget Reg.pciRingCi).toNat + 1) % s.ringSize)))) ∧
    (s.ringTakes 0x07 e → blk e.raw 16 1 ≤ 1 →
      let w := BitVec.ofNat 32 (blk e.raw 20 4)
      let a := selAddr w (blk e.raw 24 8)
      let n := blk e.raw 40 8
      s.extent (selTarget w) ≠ 0 → (selTarget w = 2 ∨ selTarget w = 3 → s.windowCore (selCore w) = true) →
      a + n ≤ s.extent (selTarget w) → (blk e.raw 16 1 = 1 → s.sealedSpan (selTarget w) a n = false) →
      let x : StageOp := ⟨entRef e, blk e.raw 16 1 == 0, w, a, BitVec.ofNat 64 (blk e.raw 32 8), n⟩
      exec (.stage e) s = .next (({ s with ring := { s.ring with stages := s.ring.stages ++ [x] } } : State).reply
        (entRef e) 0 stOk 0)) ∧
    (∀ x rest data, s.ring.stages = x :: rest → x.toDevice = false → exec (.stageComplete x.cmd.tag data) s = .next
      ({ (s.winNote (selTarget x.target) x.dev x.len).send
          (.hostWrite x.host (s.winRead (selTarget x.target) (selCore x.target) x.dev x.len)) with
        ring := { s.ring with stages := rest, ended := s.ring.ended ++ [⟨x.cmd, stOk, 0, false, false⟩] } })) ∧
    (∀ x rest data, s.ring.stages = x :: rest → x.toDevice = true → exec (.stageComplete x.cmd.tag data) s = .next
      ({ s.winWrite (selTarget x.target) (selCore x.target) x.dev (data.take x.len) with
        ring := { s.ring with stages := rest, ended := s.ring.ended ++ [⟨x.cmd, stOk, 0, false, false⟩] } })) ∧
    (∀ image cmd rest, s.ring.fwWrite = (image, cmd) :: rest → ∃ t, exec .firmwareWriteComplete s = .next t ∧
      Raised ({ s with
        ring := { s.ring with fwWrite := rest }
        mgmt := { s.mgmt with spiWpN := !rest.isEmpty, nor := { s.mgmt.nor with firmware := image, torn := false } } }.endOp cmd stOk 0)
        t pgMss 0)

/-! ### Burnish -/

/-- R390 to R394: the schedule's commands. A due core joins those that wait; a deferred test past its limit is overdue, with 0x0623; a PAUSE
slice ends; a copied rotation waits for its boundary; a pack image is installed when it is signed and newer, else 0x0624 is raised. -/
def Obligations.BurnishSchedule : Prop :=
  ∀ (s : State) (p : Fin 144),
    ((s.roleOf p).role = .active ∨ (s.roleOf p).role = .spare → p.val ∉ s.brn.due → (∀ t ∈ s.brn.tests, t.core ≠ p.val) →
      exec (.burnishDue p) s = .next { s with brn := { s.brn with due := s.brn.due ++ [p.val] } }) ∧
    (p.val ∈ s.brn.deferred → p.val ∉ s.brn.overdue → ∃ t, exec (.deferMaxExpiry p) s = .next t ∧
      Noted { s with brn := { s.brn with overdue := s.brn.overdue ++ [p.val] } } t pgBrn 0x0623) ∧
    (exec (.pauseSliceEnd p) s = .next { s with brn := { s.brn with paused := s.brn.paused.filter (· != p.val) } }) ∧
    (∀ f : Fin 4, ∃ rs, exec (.rotationCopyComplete f) s = .next { s with brn := { s.brn with rotations := rs } } ∧
      rs.length = s.brn.rotations.length ∧ ∀ k : Nat, rs[k]? = (s.brn.rotations[k]?).map (fun (r : Rotation) =>
        if r.field = f.val then { r with copied := true } else r)) ∧
    (∀ image, s.mgmt.dev = .ready ∨ s.mgmt.dev = .run ∨ s.mgmt.dev = .drain ∨ s.mgmt.dev = .quarantine →
      let new := parsePacks image
      let old := (s.brn.nextPacks.map (·.version)).getD s.brn.packs.version
      let ok := rsaVerify (signedBody image) (signatureOf image) = true ∧ old < new.version ∧ 1 ≤ new.packs.length ∧
        new.packs.length ≤ 32 ∧ 1408 ≤ image.length
      (ok → exec (.packImageInstall image) s = .next { s with brn := { s.brn with nextPacks := some new } }) ∧
      (¬ ok → ∃ t, exec (.packImageInstall image) s = .next t ∧ Noted s t pgBrn 0x0624))

/-- R390, R392, R393: a test in which each of its packs passes is counted and gives its core back as SPARE, or as FENCED while it
is fenced; with a pack that fails it is counted, 0x0621 is raised, and the core will be FENCED. -/
def Obligations.BurnishTests : Prop :=
  ∀ (s : State) (p : Fin 144) (runs : List PackRun) (x : TestRun), s.testOf p = some x → s.mgmt.dev ≠ .boot →
    let pass (j : Nat) : Prop := ∃ r ∈ runs, r.pack = j ∧ packPass x.set r = true
    ((∀ j ∈ x.packs, pass j) → ∃ t, exec (.burnishTestComplete p runs) s = .next t ∧
      t.rget Reg.brnPassCnt = (s.bump Reg.brnPassCnt 1).rget Reg.brnPassCnt ∧ t.rget Reg.brnFailCnt = s.rget Reg.brnFailCnt ∧
      ∀ y ∈ t.brn.tests, y.core = p.val → y.outcome = some .spare ∨ y.outcome = some .fenced) ∧
    ((∃ j ∈ x.packs, ¬ pass j) → ∃ t, exec (.burnishTestComplete p runs) s = .next t ∧
      t.rget Reg.brnFailCnt = (s.bump Reg.brnFailCnt 1).rget Reg.brnFailCnt ∧ t.rget Reg.brnPassCnt = s.rget Reg.brnPassCnt ∧
      t.evtSet pgBrn 0 = true ∧ ∀ y ∈ t.brn.tests, y.core = p.val → y.outcome = some .fenced)

/-! ### Packets -/

/-- R299, R306, R308, R315, R321, R327, R414, R401: the packets that stand outside the sequence of a flow. -/
def Obligations.PlainPackets : Prop :=
  ∀ (s : State) (r : Rx), s.delivers r →
    let f := r.pkt.flow
    let x := s.flow f
    let y := s.heardFlow r
    (r.pkt.typ = 3 →
      let keep := x.retained.filter (fun z => decide (0 < (z.pkt.seq - r.pkt.seq).toNat ∧ (z.pkt.seq - r.pkt.seq).toNat < 2 ^ 31))
      ∃ w t, Arrived s w r y ∧ exec (.ack r) s = .next t ∧
        t = { w with fab := { w.fab with flows := t.fab.flows }, stp := { w.stp with owed := t.stp.owed } } ∧
        (∀ g, g ≠ f → t.flow g = s.flow g) ∧
        (r.pkt.flags.getLsbD 4 = false → t.flow f = { y with retained := keep }) ∧
        (r.pkt.flags.getLsbD 4 = true → (∀ c, x.cutAt = some c → 10000 ≤ (s.mgmt.elapsed - c).toNat) →
          t.flow f = { y with retained := keep, rate := some (s.rateOf f * 7 / 8), cutAt := some s.mgmt.elapsed })) ∧
    (r.pkt.typ = 4 → ∀ z, x.retained.find? (fun z => z.pkt.seq == BitVec.ofNat 32 (payNum r.pkt 0 4)) = some z →
      ∃ w, Arrived s w r y ∧
        (payNum r.pkt 4 4 ≤ 1 → z.resends < 3 → exec (.nack r) s = .next (w.resend f z true)) ∧
        (payNum r.pkt 4 4 = 4 → exec (.nack r) s = .next (w.setFlow f { y with
          retained := x.retained.map (fun q => if q.pkt.seq = z.pkt.seq then { q with backoff := true } else q) })) ∧
        (payNum r.pkt 4 4 = 2 ∨ payNum r.pkt 4 4 = 3 → z.pkt.typ ≠ 1 → exec (.nack r) s = .next (w.setFlow f { y with
          retained := x.retained.filter (fun q => q.pkt.seq != z.pkt.seq) }))) ∧
    (r.pkt.typ = 6 → r.pkt.payload.take 32 = s.fab.hallmark → ∃ w, Arrived s w r y ∧ exec (.hello r) s = .next w) ∧
    (r.pkt.typ = 6 → r.pkt.payload.take 32 ≠ s.fab.hallmark → ∃ t, exec (.hello r) s = .next t ∧ t.evtSet (pgIgs 0) 0 = true ∧
      ∀ g ∈ s.validFlows, (s.ctx g).peer = r.pkt.src → (t.flow g).refused = true) ∧
    (r.pkt.typ = 7 → ∃ w, Arrived s w r y ∧ exec (.heartbeat r) s = .next w) ∧
    (r.pkt.typ = 8 → ∃ w, Arrived s w r y ∧ exec (.pace r) s = .next { w with pwr := { w.pwr with
      paces := tset none w.pwr.paces (payNum r.pkt 0 2 % 8192) (if payNum r.pkt 2 1 = 0 then none
        else some ⟨payNum r.pkt 2 1, payNum r.pkt 3 1, payNum r.pkt 4 2, BitVec.ofNat 64 (payNum r.pkt 8 8)⟩) } }) ∧
    (r.pkt.typ = 9 → s.job.present = true → s.member = s.job.params.coord ∨ s.member = s.job.params.backup →
      ∃ w, Arrived s w r y ∧ exec (.blame r) s = .next (w.blameRecord (payNum r.pkt 0 2 % 8192) (payNum r.pkt 2 2 % 8192)
        (payNum r.pkt 5 1) (BitVec.ofNat 64 (payNum r.pkt 8 8))))

/-- R299, R300, R309, R312, R314, R317, R319, R334, R349: a packet in sequence that is a whole message goes to what its type and kind name:
DATA to the queue of its flow, CONTRIB to its root, RESULT to the collective's receiver, AGREE by kind to the coordinator, the roots, or the
step. R312, R314: the whole of a result of at most 256 shards is one segment's data, then its trailer with the included set, NF and
INCOMPLETE; with LATE set, the late trailer stands before it. -/
def Obligations.SequencedPackets : Prop :=
  (∀ (s : State) (r : Rx), s.delivers r → s.nextWhole r → ∃ w, Arrived s w r (s.inOrder r) ∧
     let p := r.pkt
     let m := messageOf p
     (p.typ = 0 → s.loadOfPkt p = none → s.bufUsed + p.payload.length ≤ flowBuffer → p.ofs = 0 → (s.flow p.flow).arms = [] →
       exec (.igsumDataPacket r) s = .next (w.setFlow p.flow { s.inOrder r with
         waiting := (s.flow p.flow).waiting ++ [(p.coll, p.src, p.payload)] })) ∧
     (∀ c, s.collCfg p.coll = some c →
       (p.typ = 1 → p.flags.getLsbD 1 = false → 0 < c.segG → c.segG ∣ p.ofs →
         exec (.contribPacket r) s = .next (w.collGo [.arrive p.coll (s.stepOf p.step) 0 (p.ofs / c.segG) p.src
           ⟨p.tree.toNat % 2 ^ 20, p.tree.toNat / 2 ^ 20 % 2 ^ 5, p.src, p.flags.getLsbD 0, p.payload, false, 0⟩]).resume) ∧
       (p.typ = 2 → p.ofs = 0 → exec (.resultPacket r) s = .next (w.takeResult m).resume) ∧
       (p.typ = 5 → p.ofs = 0 → payNum p 0 1 = 1 → exec (.report r) s = .next (w.collGo [.report p.coll
         (BitVec.ofNat 64 (payNum p 8 8)) (payNum p 16 1) (c.groupFrom (payNum p 16 1) p.tree) (payNum p 1 1) (payNum p 2 2)
         p.src (payNum p 32 ((c.n + 7) / 8))]).resume) ∧
       (p.typ = 5 → p.ofs = 0 → payNum p 0 1 = 2 → p.tree.toNat / 2 ^ 20 % 2 ^ 5 ≠ 31 → exec (.decision r) s = .next (w.collGo [.decide p.coll
         (BitVec.ofNat 64 (payNum p 8 8)) (payNum p 16 1) (c.groupFrom (payNum p 16 1) p.tree) (payNum p 1 1)
         (payNum p 32 ((c.n + 7) / 8))]).resume) ∧
       (p.typ = 5 → p.ofs = 0 → payNum p 0 1 = 6 → exec (.reportAgain r) s = .next (w.takeReportAgain m).resume)) ∧
     (p.typ = 5 → p.ofs = 0 → payNum p 0 1 = 3 → s.job.present = true → BitVec.ofNat 64 (payNum p 8 8) = s.stroke.step →
       exec (.vote r) s = .next (w.addVote ⟨p.src, payNum p 36 4, s.stroke.step, payNum p 32 2, payNum p 34 1 % 2 == 1,
         BitVec.ofNat 64 (payNum p 40 8), BitVec.ofNat 64 (payNum p 48 8)⟩)) ∧
     (p.typ = 5 → p.ofs = 0 → payNum p 0 1 = 4 → s.job.present = true → BitVec.ofNat 64 (payNum p 8 8) = s.stroke.step →
       exec (.verdict r) s = .next { w with stp := { w.stp with verdict := some (verdictOf m) } }) ∧
     (p.typ = 5 → p.ofs = 0 → payNum p 0 1 = 5 → payNum p 32 4 ≠ s.replica →
       exec (.withdraw r) s = .next ((w.markWithdrawn (payNum p 32 4)).recheck).resume)) ∧
  (∀ (s : State) (m : Msg) (c : CollCfg), s.collCfg m.coll = some c → c.n ≤ 256 →
     let seg := m.tree.toNat % 2 ^ 20
     let n := if s.takesData c s.member seg = true then c.segLen seg * (if c.kind = 2 then c.n else 1) else 0
     let trailer := m.bytes.drop (m.bytes.length - 64)
     let before := m.bytes.drop (m.bytes.length - 128)
     let flags := leNat ((trailer.drop 12).take 1)
     s.takeResult m = s.collGo [.result m.coll (s.stepOf m.step) seg (m.bytes.take n) (leNat ((trailer.drop 32).take 32))
       (if flags / 2 % 2 = 1 then leNat ((before.drop 32).take 32) else 0) (flags % 2 == 1) (flags / 4 % 2 == 1)])

/-- R301, R302, R321, R326: what each failed check of an arriving packet does. A frame with a bad FCS asks for a link retry where LLR runs; a
packet of another version, type or length is dropped and counted; one without a valid context is dropped; one with a bad CRC is refused
with reason 1; one of the epoch before, with nothing draining, with reason 3. -/
def Obligations.RefusedPackets : Prop :=
  ∀ (s : State) (r : Rx), r.pkt.typ ≠ 0 → r.pkt.typ ≠ 5 → (s.port r.port).up = true → (s.port r.port).keepalive = false →
    s.stroke.hold = .no → r.pkt.flow < 4096 →
    (r.fcsOk = false → exec (packetCmd r) s = .next (if (s.port r.port).llr then s.send (.linkRetry r.port r.frame) else s)) ∧
    (r.fcsOk = true → s.headersOk r = false ∨ r.pkt.ver ≠ 1 ∨ 9 < r.pkt.typ ∨ r.pkt.len ≠ r.pkt.payload.length →
      exec (packetCmd r) s = .next (s.bump Reg.igsHmRefused 1)) ∧
    (r.fcsOk = true → s.headersOk r = true → r.pkt.ver = 1 → r.pkt.typ ≤ 9 → r.pkt.len = r.pkt.payload.length → s.carriesCe r = false →
      ((s.ctx r.pkt.flow).valid = false → exec (packetCmd r) s = .next s) ∧
      ((s.ctx r.pkt.flow).valid = true → r.pkt.crc ≠ pktCrc r.pkt →
        exec (packetCmd r) s = .next (s.sendNack r.pkt.flow r.pkt.epoch r.pkt.seq 1)) ∧
      ((s.ctx r.pkt.flow).valid = true → r.pkt.crc = pktCrc r.pkt → r.pkt.epoch + 1 = s.epoch.cur → s.draining r.pkt = false →
        exec (packetCmd r) s = .next ((s.bump Reg.igsEpochRefused 1).sendNack r.pkt.flow r.pkt.epoch r.pkt.seq 3)))

/-! ### Transport and ports -/

/-- R305, R306, R307: a retained packet whose time has passed goes again with its RETRY flag, counted; one that waited for a backoff goes
again uncounted; a packet that would need a fourth resend fails its message with 0x0504. R305: a frame sent on a port with link retry goes
again, with its number, seven times; the eighth time it is dropped and counted. -/
def Obligations.Resends : Prop :=
  (∀ (s : State) (fl : Fin 4096) (seq : Word) (z : Retained), s.retainedAt fl seq = some z →
     let p : Pkt := { z.pkt with flags := z.pkt.flags ||| 8 }
     let p' : Pkt := { p with crc := pktCrc p }
     let again (t : State) (n : Nat) : Prop :=
       (t.flow fl).retained = (s.flow fl).retained.map (fun q => if q.pkt.seq = z.pkt.seq then
         { z with resends := n, port := (s.portFor fl z.pkt.typ seq.toNat).getD 64, backoff := false } else q) ∧
       (∀ g, g ≠ fl.val → t.flow g = s.flow g) ∧ PairRose s t Reg.igsResendLo 1 ∧
       t.fab.sent = s.fab.sent ++ (match s.portFor fl z.pkt.typ seq.toNat with
         | none => []
         | some q => [⟨q, (s.port q).txCount, s.headers fl q p', p'⟩])
     (z.resends < 3 → s.stroke.hold = .no → ∃ t, exec (.resendTimeout fl seq) s = .next t ∧ again t (z.resends + 1)) ∧
     (z.backoff = true → ∃ t, exec (.nackBackoffExpiry fl seq) s = .next t ∧ again t z.resends) ∧
     (3 ≤ z.resends → z.pkt.typ = 0 → s.job.present = false → s.stroke.hold = .no → ∃ t, exec (.resendTimeout fl seq) s = .next t ∧
       t.evtSet (pgIgs 0) 2 = true ∧ t.rget Reg.igsResendFail = (s.bump Reg.igsResendFail 1).rget Reg.igsResendFail ∧
       (t.flow fl).retained = (s.flow fl).retained.filter (fun q =>
         !((s.flow fl).message z.pkt).any (fun m => m.pkt.seq == q.pkt.seq)))) ∧
  (∀ (s : State) (q : Fin 64) (n : Nat) (f : SentFrame) (c : Instr), c = .linkRetryRequest q n ∨ c = .linkReplayTimeout q n →
     s.buffered q n = some f → (s.port q).up = true → (s.port q).llr = true →
     let k := tget 0 (s.port q).tries n
     let u := s.setPort q { s.port q with tries := tset 0 (s.port q).tries n (k + 1) }
     (k < 7 → ∃ t, exec c s = .next t ∧ PairRose s t (Reg.fabRetryLo q) 1 ∧
       t = { u with regs := t.regs, fab := { u.fab with sent := s.fab.sent ++ [f] } }) ∧
     (k = 7 → exec c s = .next (u.bump (Reg.fabRetryDrop q) 1)))

/-- R306, R308, R327, R398, R413, R414: the timers of flows and peers. -/
def Obligations.FabricTimers : Prop :=
  ∀ (s : State),
    (∀ fl : Fin 4096, 0 < (s.flow fl).sinceAck → exec (.ackTimer fl) s = .next (s.sendAck fl)) ∧
    (∀ (fl : Fin 4096) g, (s.flow fl).rate = some g → exec (.sendRateRise fl) s = .next (s.setFlow fl { s.flow fl with
      rate := if s.fullRate fl ≤ g + 4096 then none else some (g + 4096) })) ∧
    (exec .heartbeatTimer s = .next ((s.validFlows.filter (fun f => (s.ctx f).hb)).foldl (fun u f => u.sendPlain f 7 4 0 []) s)) ∧
    (∀ (m : Fin 8192) ms, 8 ≤ ms → m.val ∈ s.peers → m.val ∉ s.fab.silent → ∃ u,
      Raised { s with fab := { s.fab with silent := s.fab.silent ++ [m.val] } } u (pgIgs 0) 2 ∧
      exec (.peerSilentTimeout m ms) s = .next (u.blameOnce m 1 ms)) ∧
    (∀ (m : Fin 8192) x, s.blame.find? (fun x => x.member == m.val) = some x → ∃ t,
      exec (.blameTallyTimer m) s = .next t ∧ Raised s t (pgAsy 1) 0) ∧
    (s.rbit Reg.pwrCtl 5 = true → 0 < s.paceValue → ∃ t, exec .paceResend s = .next t ∧ t.pwr.paceSent = s.paceValue ∧
      t = { s with fab := t.fab, pwr := { s.pwr with paceSent := s.paceValue } }) ∧
    (∀ m : Fin 8192, ∃ t, exec (.paceHoldExpiry m) s = .next t ∧ tget none t.pwr.paces m.val = none ∧
      (∀ k, k ≠ m.val → tget none t.pwr.paces k = tget none s.pwr.paces k) ∧ t = { s with pwr := { s.pwr with paces := t.pwr.paces } })

/-- R292 to R296, R308: lanes and ports. A lane that fails takes its port down with 0x0501 and, the spare lane of its field free, begins a
retrain on it, whose end brings the port up with 0x0502; a link-up brings up an enabled port; requests for the device's own address are
answered; a pause frame holds and frees a class. -/
def Obligations.LanesAndPorts : Prop :=
  ∀ (s : State) (q : Fin 64),
    (∀ (lane : Fin 132), lane.val < 128 → lane.val / 2 = q.val → (s.port q).spare = none → (s.port q).up = true →
      tget false s.fab.spareUsed (q.val / 16) = false →
      ∃ t, exec (.laneFailure lane) s = .next t ∧ t.evtSet (pgFab q) 0 = true ∧ t.mgmt.degraded = true ∧
        (t.port q).up = false ∧ (t.port q).retraining = true ∧ (t.port q).spare = some (lane.val % 2) ∧
        tget false t.fab.spareUsed (q.val / 16) = true) ∧
    (∀ (lane : Fin 132) uncorr corr, s.lanePort lane = some q.val → uncorr ≤ s.rfield (Reg.fabLaneThresh q) 0 16 →
      exec (.laneFecCheck lane uncorr corr) s =
        .next ((s.bumpPair (Reg.fabFecCorrLo q) corr).bump (Reg.fabFecUncorr q) uncorr)) ∧
    (∀ (lane : Fin 132) uncorr corr, s.lanePort lane = some q.val → s.rfield (Reg.fabLaneThresh q) 0 16 < uncorr →
      exec (.laneFecCheck lane uncorr corr) s =
        exec (.laneFailure lane) ((s.bumpPair (Reg.fabFecCorrLo q) corr).bump (Reg.fabFecUncorr q) uncorr)) ∧
    ((s.port q).retraining = true → ∃ t, exec (.laneRetrainDone q) s = .next t ∧
      Raised (s.setPort q { s.port q with up := true, retraining := false }) t (pgFab q) 1) ∧
    (∀ llr, s.mgmt.dev = .ready ∨ s.mgmt.dev = .run → s.rbit (Reg.fabPortCfg q) 0 = true → (s.port q).up = false →
      (s.port q).retraining = false → exec (.portLinkUp q true llr) s = .next (s.setPort q
        { s.port q with up := true, keepalive := false, llr := llr && s.rbit (Reg.fabPortCfg q) 3 })) ∧
    (∀ a, (s.port q).up = true → s.ownAddr (.ip4 a) = true → exec (.arpRequest q (.ip4 a)) s = .next (s.send (.arp q (s.macOf q)))) ∧
    (∀ a, (s.port q).up = true → s.ownAddr (.ip6 a) = true → exec (.arpRequest q (.ip6 a)) s = .next (s.send (.nd q (s.macOf q)))) ∧
    (∀ (tc : Fin 4) pause, (s.port q).up = true → s.rbit (Reg.fabPortCfg q) (4 + tc.val) = true →
      ∃ x, exec (.pfcPauseFrame q tc pause) s = .next (s.setPort q { s.port q with paused := x }) ∧
        x.getLsbD tc.val = pause ∧ ∀ k, k ≠ tc.val → x.getLsbD k = (s.port q).paused.getLsbD k)

/-- R316, R317, R319, R307: the deadline of a root makes it report what it holds; a contributor sends its nodes to the backup of a lost
root; a result that does not come is zeros with 0x0509. -/
def Obligations.CollectiveTimers : Prop :=
  ∀ (s : State) (coll : Word) (seg : Nat) (c : CollCfg), s.collCfg coll = some c →
    (∀ late x, s.fab.roots.filter (fun r => r.coll == coll && r.step == s.stroke.step && r.seg == seg &&
        r.lane == (if late then 1 else 0) && r.waits) = [x] →
      exec (.collectiveDeadline coll seg late) s = .next ((s.sendReport c x).1.collGo (s.sendReport c x).2).resume) ∧
    (∀ x, s.collRun? coll s.stroke.step = some x → x.done = false → seg < c.segs → s.job.params.replay = false →
      s.job.present = true → c.two = false → s.mayContribute = true → s.rootMember c 1 0 0 ≠ s.member →
      (s.rootEnt c 1 0 seg).backup ≠ s.member → (∀ lane, s.root? coll s.stroke.step 1 0 lane 0 = none) → s.stroke.hold = .no →
      let b := (s.rootEnt c 1 0 seg).backup
      let part (ns : List CNode) : List CNode :=
        (ns.filter (fun n => c.stageOf n.level == 1 && c.groupOf 1 n.shard == 0)).map (segNode c seg)
      exec (.backupTakeover coll seg) s = .next ((part x.nodes).foldl (fun u nd => u.sendNode c b seg nd.field false s.stroke.step nd)
        ((part x.late).foldl (fun u nd => u.sendNode c b seg nd.field true (s.stroke.step - 1) nd) s))) ∧
    (∀ x, s.collRun? coll s.stroke.step = some x → x.done = false → seg < c.segs → seg ∉ x.trailers →
      x.cores ≠ [] ∨ c.normSink = true →
      ∃ u, Raised s u (pgIgs 0) 2 ∧ exec (.resultSegmentTimeout coll seg) s = .next (u.collGo [.result coll s.stroke.step seg
        (if u.takesData c u.member seg then List.replicate (c.segLen seg * (if c.kind = 2 then c.n else 1)) 0 else [])
        (x.incl.getD 0) (x.lateIncl.getD 0) false true]).resume)

/-! ### Weight loads -/

/-- R355, R357, R359, R360, R365, R369, R371: LOAD_WEIGHTS begins a load whose descriptor is sound, seals the destinations of an encrypted one, and
with a load key that does not decrypt fails it with 0x0810; the reader sends each stored chunk on and takes its own copy; a packet of a load
goes to this device's children and to its swage; with the staging region full, chunks wait; a load that stalls fails with 0x0411; one whose
chunks are all written completes with 0x0410, a replacement's completion registers. -/
def Obligations.WeightLoads : Prop :=
  ∀ (s : State),
    (∀ e, s.ringTakes 0x06 e → s.loadFault (loadDesc e.refs) e.refs = none →
      let d := loadDesc e.refs
      let run (key : List Byte) : LoadRun := ⟨d, some (entRef e), key, [], d.first, [], [], [], [], false, false, false, false⟩
      let begun (key : List Byte) (seals : List Seal) : State := (((({ s with load := { s.load with
        loads := s.load.loads.filter (fun x => x.desc.id != d.id || !x.failed) ++ [run key]
        layersDone := if d.replace then [] else s.load.layersDone
        seals := s.load.seals ++ seals } } : State).rsetField Reg.igsLdStat 0 2 (if s.load.fenceClosed then 2 else 1)).rset
          Reg.igsLdId d.id).rset Reg.igsLdChunks (BitVec.ofNat 32 d.first))
      let key := (unwrapKey e.refs.key).getD []
      let seals : List Seal := d.spans.map (fun x => ⟨d.id, x.1, x.2.1, x.2.2⟩)
      (d.enc = false → exec (.loadWeights e) s = .next ((begun [] []).reply (entRef e) 0 stOk 0)) ∧
      (d.enc = true →
        (key.length = 40 → BitVec.ofNat 32 (blk key 32 4) = d.id →
          exec (.loadWeights e) s = .next ((begun (key.take 32) seals).reply (entRef e) 0 stOk 0)) ∧
        (key.length ≠ 40 ∨ BitVec.ofNat 32 (blk key 32 4) ≠ d.id → ∃ u,
          Raised ((begun (key.take 32) seals).setLoad { run (key.take 32) with failed := true, key := [] }) u (pgIgs 1) 1 ∧
          exec (.loadWeights e) s = .next
            (((u.rsetField Reg.igsLdStat 0 2 3).endOp (some (entRef e)) stFailed 0).reply (entRef e) 0 stOk 0)))) ∧
    (∀ id x, s.loadOf id = some x → x.registered = false → ∃ u,
      Raised (s.setLoad { x with failed := true, key := [] }) u (pgIgs 1) 0 ∧
      exec (.loadStallTimeout id) s = .next ((u.rsetField Reg.igsLdStat 0 2 3).endOp x.cmd stFailed 0)) ∧
    (∀ id x, s.loadOf id = some x → x.registered = false →
      (s.isDest x.desc = true → ∀ k, x.desc.first ≤ k → k < x.desc.chunks → k ∈ x.written) →
      (s.member = x.desc.reader → x.desc.chunks ≤ x.next) →
      (x.desc.replace = false → ∃ u, Raised (s.setLoad { x with registered := true, complete := true, key := [] }) u (pgIgs 1) 0 ∧
        exec (.loadComplete id) s = .next ((u.rsetField Reg.igsLdStat 0 2 0).endOp x.cmd stOk (id.zeroExtend 64))) ∧
      (x.desc.replace = true → exec (.loadComplete id) s = .next (s.setLoad { x with registered := true, key := [] }))) ∧
    (∀ id chunk data x, s.liveLoad id = some x →
      let place := x.desc.dir.getD chunk (0, 0, 0)
      let bs := if x.desc.srcBulk then s.peekMem true (x.desc.src + place.1) place.2.1 else data.take place.2.1
      let t := if x.desc.srcBulk then s.peekNote true (x.desc.src + place.1) place.2.1 else s
      let u := (t.setLoad { x with next := chunk + 1 }).feedChildren x.desc chunk bs
      (s.stagingFull x chunk = true → exec (.storedChunkRead id chunk data) s = .next s) ∧
      (s.stagingFull x chunk = false → s.member = x.desc.reader → chunk = x.next → chunk < x.desc.chunks →
        exec (.storedChunkRead id chunk data) s = .next (if u.isDest x.desc then u.takeChunk id chunk bs else u))) ∧
    (∀ r x, s.delivers r → s.nextWhole r → s.loadOfPkt r.pkt = some x →
      (s.stagingFull x (r.pkt.tree.toNat % 2 ^ 20) = false → s.bufUsed + r.pkt.payload.length ≤ flowBuffer →
        ∃ w, Arrived s w r (s.inOrder r) ∧
          exec (.loadChunkPacket r) s = .next ((w.forward x.desc r.pkt).placeChunk r.pkt.coll r.pkt).resume) ∧
      (s.stagingFull x (r.pkt.tree.toNat % 2 ^ 20) = true → ∃ w, Arrived s w r (s.heardFlow r) ∧
        exec (.loadChunkPacket r) s = .next (w.sendNack r.pkt.flow r.pkt.epoch r.pkt.seq 4).resume))

/-! ### Memory -/

/-- R265 to R268, R270, R288: a data slot of a live job. A read slot of an armed ticket, or with landing room, sends the next codeword of the
run on its way to the core; a write slot stores the next 64 bytes of the armed buffer, and no other byte; a slot whose data cannot be
taken is held, and the calendar falls behind by the cycles that it is held; an idle slot wins back what it is behind. R202, R268: a delivery
lands in its arm's buffer or waits in the landing buffer. -/
def Obligations.CalendarSlots : Prop :=
  (∀ (s : State) (ch : Fin 396) (held : Nat) (x : PcSt) (kind t v count p : Nat) (d : TicketDef),
    s.live = true → s.stroke.hold = .no → s.calAt ch = some x → s.calEntry ch x = (kind, t, v, count) →
    s.holder v = some p → s.ticketDef v t = some d →
    (kind = 0 → ∃ u, exec (.calendarDataSlot ch ⟨held, []⟩) s = .next u ∧
      u.pc ch = ({ x with lag := x.lag - s.slotCyc ch } : PcSt).advance count ∧ (∀ q, q ≠ ch.val → u.pc q = s.pc q) ∧
      u = { s with mem := { s.mem with pcs := u.mem.pcs } }) ∧
    (∀ e, ch.val < 384 → d.bulk = false → s.slotUnit ch v t d = some e → s.sound e.chan e.off e.addr →
      (kind = 1 → d.write = false → (s.core p).landing.length < 512 ∨ (∃ k, tget none (s.core p).tickets t = some k) →
        ∃ u, exec (.calendarDataSlot ch ⟨held, []⟩) s = .next u ∧ u.pc ch = x.advance count ∧ (∀ q, q ≠ ch.val → u.pc q = s.pc q) ∧
          u = { s with mem := { s.mem with
            pcs := u.mem.pcs
            moved := tset 0 s.mem.moved (movedKey v t ch) (s.movedOn v t ch + 1)
            deliveries := s.mem.deliveries ++
              [⟨ch.val, false, v, t, e.place, bytesAt s.mem.hbm (hbmKey e.chan (64 * (e.off / 64))) 64⟩] } }) ∧
      (kind = 1 → d.write = false → 512 ≤ (s.core p).landing.length → tget none (s.core p).tickets t = none →
        ∃ u, exec (.calendarDataSlot ch ⟨held, []⟩) s = .next u ∧ (u.pc ch).lag = x.lag + held ∧ (u.pc ch).entry = x.entry ∧
          (u.pc ch).used = x.used ∧ (u.pc ch).ran = x.ran ∧ (∀ q, q ≠ ch.val → u.pc q = s.pc q) ∧
          u.mem = { s.mem with pcs := u.mem.pcs } ∧ u.cores = s.cores) ∧
      (∀ k, kind = 2 → d.write = true → tget none (s.core p).tickets t = some k → k.ok = true → e.off % 64 = 0 →
        Plain (s.ctxOf v p) (refOff k.buf + 64 * e.place) 64 →
        ∃ u, exec (.calendarDataSlot ch ⟨held, []⟩) s = .next u ∧ u.pc ch = x.advance count ∧ (∀ q, q ≠ ch.val → u.pc q = s.pc q) ∧
          Holds u.mem.hbm (hbmKey e.chan e.off) (bytesAt (s.core p).cm (refOff k.buf + 64 * e.place) 64) ∧
          BytesKept s.mem.hbm u.mem.hbm (within (hbmKey e.chan e.off) 64) ∧
          u.mem.deliveries = s.mem.deliveries))) ∧
  (∀ (s : State) (k q : Nat) (d : Delivery), s.mem.deliveries[k]? = some d →
    (∀ e ∈ s.mem.deliveries.take k, e.pc ≠ d.pc) → s.holder d.core = some q →
    let off : State := { s with mem := { s.mem with deliveries := s.mem.deliveries.eraseIdx k } }
    (∀ held, tget none (s.core q).tickets d.ticket = none → (s.core q).landing.length + d.grains.length ≤ 512 →
      exec (.calendarReadDelivery k ⟨held, none⟩) s = .next (off.setCore q { s.core q with
        landing := (s.core q).landing ++ d.grains.map (fun g => (d.ticket, g.1, g.2)) })) ∧
    (∀ held, tget none (s.core q).tickets d.ticket = none → 512 < (s.core q).landing.length + d.grains.length →
      exec (.calendarReadDelivery k ⟨held, none⟩) s = .next s) ∧
    (∀ a, tget none (s.core q).tickets d.ticket = some a → a.ok = true → d.bulk = false →
      regionOf (s.ctxOf d.core q) ((refOff a.buf + 64 * d.grain) / 64) = none →
      ∃ u, exec (.calendarReadDelivery k ⟨0, none⟩) s = .next u ∧ u.mem.deliveries = s.mem.deliveries.eraseIdx k ∧
        Holds (u.core q).cm (refOff a.buf + 64 * d.grain) d.bytes ∧
        BytesKept (s.core q).cm (u.core q).cm (within (refOff a.buf + 64 * d.grain) d.bytes.length)))

/-- R277 to R280: a narrow slot serves the next grain of its table's request on the slot's channel, of a GATHER by reading it, of a SCATTER by
merging it into its codeword, and no other byte. -/
def Obligations.NarrowServed : Prop :=
  ∀ (s : State) (c : Fin 384) (f q l k a held : Nat) (v : Fin 128) (tb : Fin 64) (d : NarrowDef) (r : NarrowReq),
    s.holder v = some q → tget none s.mem.narrowDefs (64 * v + tb.val) = some d → s.chanAt c = some l → s.live = true →
    s.stroke.hold = .no → f % 16 < 12 → d.grains ≠ 0 → (s.core q).narrow.find? (fun r => r.table == tb.val) = some r →
    (∀ i ∈ r.idx, i.toNat < d.rows) →
    let at_ (a : Nat) : Nat := s.xlate false r.scatter a
    (List.range (r.idx.length * d.grains)).find? (fun k => !r.got.any (fun g => g.1 == k) && (match r.grain d k with
      | none => false
      | some a => (locate (max 1 s.mem.nLc) (at_ a)).1 == l)) = some k →
    r.grain d k = some a → r.got.length + 1 < r.idx.length * d.grains →
    let off := (locate (max 1 s.mem.nLc) (at_ a)).2
    s.sound l off (at_ a) →
    (r.scatter = false → ∃ u, exec (.narrowSlot c f v tb ⟨held, []⟩) s = .next u ∧ OnlyCore s u q ∧
      u.core q = { s.core q with narrow := (s.core q).narrow.map (fun x => if x = r then { r with
        got := r.got ++ [(k, ((bytesAt s.mem.hbm (hbmKey l (64 * (off / 64))) 64).drop (off % 64)).take 32)] } else x) }) ∧
    (r.scatter = true → off % 64 ≤ 32 → 32 * (k + 1) ≤ r.data.length → ∃ u, exec (.narrowSlot c f v tb ⟨held, []⟩) s = .next u ∧
      Holds u.mem.hbm (hbmKey l off) ((r.data.drop (32 * k)).take 32) ∧
      BytesKept s.mem.hbm u.mem.hbm (within (hbmKey l off) 32) ∧
      u.core q = { s.core q with
        narrow := (s.core q).narrow.map (fun x => if x = r then { r with got := r.got ++ [(k, [])] } else x) })

/-- R272, R273, R281 to R286, R289, R290, R476: the upkeep of HBM and the bulk tier. A scrub of a sound codeword moves the pointer of its bank and
changes nothing else; one whose contents were lost counts it and sets the event; a slot of a channel that migrates copies its next
codeword, and one whose codewords are all copied switches at the next boundary; a pseudo-channel that stops responding is replaced there; a
bulk channel that fails leaves service with 0x040B and asks for DRAIN; a temperature of 85 °C or 95 °C asks for its stage, one of 105 °C takes
the stack out of service; training ends stage 3 of BOOT, and outside BOOT returns the stacks under RETRAIN to service. -/
def Obligations.MemoryUpkeep : Prop :=
  ∀ (s : State),
    (∀ (p : Fin 384) (f l : Nat) (j : Fin 4), s.chanOf p = some l → s.pcRuns p = true → (s.stk (p.val / 32)).stage = 0 →
      j.val % 2 = 0 →
      let nb := s.narrowBanks
      let bank := (4 * f + j.val) % (64 - nb)
      let x := tget 0 (s.pc p).scrub bank % bankCws nb bank
      let k := bankCw nb bank x
      let a := unlocate (max 1 s.mem.nLc) l (64 * k)
      let on := s.setPc p { s.pc p with scrub := tset 0 (s.pc p).scrub bank ((x + 1) % bankCws nb bank) }
      ((s.chan l).migrating = none → s.sound l (64 * k) a → exec (.refreshReserveSlot p f j []) s = .next on) ∧
      (∀ b, (s.chan l).migrating = none → s.reaches l (64 * k) → (s.chan l).lost = some b →
        tget CwMark.asIs (s.chan l).mark k = .asIs → ∃ u, exec (.refreshReserveSlot p f j []) s = .next u ∧
        u.evtSet (pgHbm 0) 0 = true ∧ (u.pc p).ueCnt = BitVec.ofNat 8 (min 255 ((s.pc p).ueCnt.toNat + 1)) ∧
        (u.pc p).scrub = (on.pc p).scrub ∧ u.mem.hbm = s.mem.hbm ∧ u.mem.chans = s.mem.chans) ∧
      (∀ r, (s.chan l).migrating = some r → (s.chan l).copied < 4 * pcStripes →
        s.sound l (64 * (s.chan l).copied) (unlocate (max 1 s.mem.nLc) l (64 * (s.chan l).copied)) →
        exec (.refreshReserveSlot p f j []) s = .next (s.setChan l { s.chan l with copied := (s.chan l).copied + 1 }))) ∧
    (∀ (l : Fin 384) r, (s.chan l).backed = true → (s.chan l).migrating = some r → 4 * pcStripes ≤ (s.chan l).copied →
      (s.stk ((s.chan l).phys / 32)).stage = 0 →
      exec (.migrationComplete l) s = .next (s.setChan l { s.chan l with migrated := true })) ∧
    (∀ (p : Fin 384), s.pcRuns p = true → (s.pc p).fail = false →
      (∀ l, s.chanOf p = some l → exec (.pseudoChannelLoss p) s = .next (s.setPc p { s.pc p with lost := true })) ∧
      (s.chanOf p = none → ∃ u, exec (.pseudoChannelLoss p) s = .next u ∧ (u.pc p).fail = true ∧
        ∀ l < s.mem.nLc, (u.chan l).migrating = if (s.chan l).migrating = some p.val then none else (s.chan l).migrating)) ∧
    (∀ (c : Fin 12), s.rbit Reg.blkStat c = true → ∃ u, exec (.bulkChannelFailure c) s = .next u ∧ u.evtSet pgBlk 1 = true ∧
      u.rbit Reg.blkStat c = false ∧ (∀ k, k ≠ c.val → u.rbit Reg.blkStat k = s.rbit Reg.blkStat k) ∧ u.mgmt.degraded = true ∧
      (s.mgmt.dev = .run → u.stroke.drainNext = true)) ∧
    (∀ (k : Fin 12) (temp : BitVec 8), (s.stk k).trained = true → (s.stk k).out = false →
      (temp.toNat < 82 → exec (.hbmTemperatureRead k temp) s = .next ((s.setStk k { s.stk k with temp := temp }).setStk k
        { s.stk k with temp := temp, want := 0 })) ∧
      ((s.stk k).want = 0 → 85 ≤ temp.toNat → temp.toNat < 95 → ∃ u, exec (.hbmTemperatureRead k temp) s = .next u ∧
        Noted ((s.setStk k { s.stk k with temp := temp }).setStk k { s.stk k with temp := temp, want := 1 }) u
          (pgHbm (k.val + 1)) 0x0721) ∧
      ((s.stk k).want.toNat < 2 → 95 ≤ temp.toNat → temp.toNat < 105 → ∃ u, exec (.hbmTemperatureRead k temp) s = .next u ∧
        Noted ((s.setStk k { s.stk k with temp := temp }).setStk k { s.stk k with temp := temp, want := 2 }) u
          (pgHbm (k.val + 1)) 0x0722) ∧
      (105 ≤ temp.toNat → ∃ u, exec (.hbmTemperatureRead k temp) s = .next u ∧ (u.stk k).out = true ∧
        (∀ j, j ≠ k.val → u.stk j = s.stk j) ∧ (s.mgmt.dev = .run → u.stroke.drainNext = true))) ∧
    (s.mgmt.dev = .boot → s.mgmt.bootStage = 3 → ∃ u, exec (.memoryTrainingComplete ⟨[], []⟩ []) s = .next u ∧ u.mem.nLc = 380 ∧
      4 ≤ u.mgmt.bootStage ∧ u.mgmt.nor.training = s.mgmt.nor.training ∧ (∀ k < 12, (u.stk k).trained = true) ∧
      ∀ l < 380, (u.chan l).backed = true ∧ (u.chan l).phys = l + l / 95 ∧ (u.chan l).lost = none) ∧
    (∀ k < 12, s.mgmt.dev ≠ .boot → (s.stk k).retraining = true → ∃ u, exec (.memoryTrainingComplete ⟨[], []⟩ []) s = .next u ∧
      u = { s with mem := { s.mem with stks := u.mem.stks } } ∧ ∀ j < 12, u.stk j =
        let st : BitVec 2 := if 85 ≤ (s.stk j).temp.toNat then 1 else 0
        if (s.stk j).retraining = true then
          { s.stk j with out := false, trained := true, retraining := false, stage := st, want := st } else s.stk j)

/-! ### Power and temperature -/

/-- R400, R405, R406, R408, R410, R416, R418, R420 to R423, R492, R493: samples add their energy; a regulator fault or an early warning raises
0x0704, sends the last-gasp record and asks for DRAIN; lost readings raise 0x0705; droops, the regulator's alert, critical slack and a
junction of 105 °C stretch the clock until they are clear; critical slack clears a trim and commands the untrimmed voltage; anneal moves the
trim of the step; trims act again when their hold is over; a junction of 110 °C asserts THERMTRIP_N; a boundary moves the step by one at
most. -/
def Obligations.PowerEvents : Prop :=
  ∀ (s : State), s.mgmt.dev ≠ .off →
    (∀ a, exec (.powerSample a) s = .next { s with pwr := { s.pwr with
      strokePj := s.pwr.strokePj + a.mv * a.ma * a.ns / 1000, telemetryLost := false } }) ∧
    (∀ mw ns, exec (.pmbusPoll mw ns 0) s = .next { s with pwr := { s.pwr with strokePj := s.pwr.strokePj + mw * ns } }) ∧
    (∀ mw ns w, w ≠ 0 → ∃ u, Raised { s with pwr := { s.pwr with strokePj := s.pwr.strokePj + mw * ns } } u pgPwr 2 ∧
      exec (.pmbusPoll mw ns w) s = .next (u.lastGasp 16 w.toNat).stopJob) ∧
    (∃ u, Raised { s with free := s.free + 1 } u pgPwr 2 ∧
      exec .pgWarnN s = .next (u.gaspOnce 16 ((Config.freeValue s.free).toNat % 2 ^ 32)).stopJob) ∧
    (s.pwr.telemetryLost = false → ∃ u, exec .avsbusTelemetryTimeout s = .next u ∧
      Raised { s with pwr := { s.pwr with telemetryLost := true, strokeLost := true } } u pgPwr 4) ∧
    (s.pwr.telemetryLost = true → exec .avsbusTelemetryTimeout s = .next s) ∧
    (∀ f : Fin 4, s.clockRuns = true → s.pwr.stretching = false → exec (.droopDetect f) s = .next (({ s with pwr := { s.pwr with
      stretching := true
      stretch := { s.pwr.stretch with
        droop := if f.val ∈ s.pwr.stretch.droop then s.pwr.stretch.droop else s.pwr.stretch.droop ++ [f.val] } } } : State).bump
          Reg.pwrStretchCnt 1)) ∧
    (∀ b amps, b = false ∨ s.clockRuns = false →
      exec (.vrAlertN b amps) s = .next { s with pwr := { s.pwr with stretch := { s.pwr.stretch with vrAlert := b } } }) ∧
    (∀ amps, s.clockRuns = true → s.pwr.stretching = true → s.pwr.vrTold = false → ∃ u, exec (.vrAlertN true amps) s = .next u ∧
      Raised { s with pwr := { s.pwr with vrTold := true, stretch := { s.pwr.stretch with vrAlert := true } } } u pgPwr 2) ∧
    (exec .stretchRelease s = .next { s with pwr := { s.pwr with
      stretch := { s.pwr.stretch with droop := [], slack := false }
      stretching := s.pwr.stretching && (s.pwr.stretch.vrAlert || s.pwr.stretch.tj) } }) ∧
    (∀ f : Fin 4, s.clockRuns = true →
      let v := ({ s with pwr := { s.pwr with stretch := { s.pwr.stretch with slack := true } } } : State).stretchOn
      let cleared (k : Nat) : State := { v with pwr := { v.pwr with
        trim := tset 0 v.pwr.trim k 0, trimHold := v.pwr.trimHold.filter (· != k) ++ [k] } }
      (s.pwr.rising = false → ∃ u, exec (.slackCritical f) s = .next u ∧ Raised (cleared s.pwr.k) u pgPwr 3 ∧
        OutMsg.avs (4 * s.fuses.vfuse.getD s.pwr.k 0) ∈ u.mgmt.out) ∧
      (s.pwr.rising = true → ∃ u, exec (.slackCritical f) s = .next u ∧ Raised (cleared (s.pwr.k - 1)) u pgPwr 3)) ∧
    (∀ code : BitVec 6,
      let k := s.pwr.k
      let old := tget 0 s.pwr.trim k
      let new := if s.rfield Reg.pwrAnneal 0 6 ≤ code.toNat then min 24 (old + 1)
        else if code.toNat < s.rfield Reg.pwrAnneal 8 6 then old - 1 else old
      let v (told : List Nat) : State := ({ s with pwr := { s.pwr with trim := tset 0 s.pwr.trim k new, trimTold := told } } : State).send
        (.avs (4 * s.fuses.vfuse.getD k 0 - 10 * (if s.pwr.trimHold = [] then new else 0)))
      let on := (s.mgmt.dev = .ready ∨ s.mgmt.dev = .run ∨ s.mgmt.dev = .drain) ∧ s.rbit Reg.pwrCtl 7 = true ∧ k ∉ s.pwr.trimHold
      (¬ on ∨ new = old → exec (.annealWindow code) s = .next s) ∧
      (on → new ≠ old → (new ≠ 24 ∨ k ∈ s.pwr.trimTold) → exec (.annealWindow code) s = .next (v s.pwr.trimTold)) ∧
      (on → new ≠ old → new = 24 → k ∉ s.pwr.trimTold → ∃ u, exec (.annealWindow code) s = .next u ∧
        Noted (v (s.pwr.trimTold ++ [k])) u pgPwr 0x0705)) ∧
    (let v : State := { s with pwr := { s.pwr with trimHold := s.pwr.trimHold.drop 1 } }
     let k := if s.pwr.rising then s.pwr.k - 1 else s.pwr.k
     let trim := tget 0 s.pwr.trim k
     (s.pwr.trimHold.length ≠ 1 ∨ s.clockRuns = false ∨ trim = 0 → exec .annealHoldExpiry s = .next v) ∧
     (s.pwr.trimHold.length = 1 → s.clockRuns = true → trim ≠ 0 → exec .annealHoldExpiry s = .next (v.send
       (.avs (4 * s.fuses.vfuse.getD k 0 - 10 * (if s.mgmt.dev = .boot ∨ s.mgmt.dev = .quarantine then 0 else trim)))))) ∧
    (∀ (tj : BitVec 8) (f : Fin 4) (k : Fin 16),
      let base : State := { (s.rset Reg.thmTj (BitVec.ofNat 32 (tj.toNat + 2 ^ 8 * f.val + 2 ^ 10 * k.val))).rset Reg.thmTjMax
        (BitVec.ofNat 32 (max tj.toNat (s.rfield Reg.thmTjMax 0 8))) with pwr := { s.pwr with tj := tj.toNat } }
      let hot (b : Bool) : State := { base with pwr := { base.pwr with stretch := { s.pwr.stretch with tj := b } } }
      (tj.toNat < 102 → s.pwr.stretch.tj = false → exec (.junctionSensorRead tj f k) s = .next base) ∧
      (tj.toNat < 102 → s.pwr.stretch.tj = true → exec (.junctionSensorRead tj f k) s = .next (hot false).stretchOff) ∧
      (102 ≤ tj.toNat → tj.toNat < 105 → exec (.junctionSensorRead tj f k) s = .next base) ∧
      (105 ≤ tj.toNat → tj.toNat < 110 → s.pwr.stretch.tj = false → ∃ u, exec (.junctionSensorRead tj f k) s = .next u ∧
        Raised (hot true).stretchOn u pgThm 1) ∧
      (110 ≤ tj.toNat → s.pwr.stretch.tj = true → s.pwr.tripped = false → ∃ u, exec (.junctionSensorRead tj f k) s = .next u ∧
        Raised (({ base with
          pwr := { base.pwr with tripped := true }, mgmt := { s.mgmt with thermtripN := false } } : State).gaspOnce 17 tj.toNat) u pgThm 2) ∧
      (110 ≤ tj.toNat → s.pwr.tripped = true → s.pwr.stretch.tj = true → exec (.junctionSensorRead tj f k) s = .next base)) ∧
    (s.pwr.tripped = true → exec .thermtripTimeout s = .next { s with pwr := { s.pwr with clocksStopped := true } }) ∧
    (s.pwr.tripped = false → exec .thermtripTimeout s = .next s) ∧
    (let u := s.moveStep
     let volt (k : Nat) : OutMsg := .avs (4 * s.fuses.vfuse.getD k 0 - 10 * s.trimNow k)
     (s.pwr.rising = true → u = { s with pwr := { s.pwr with
       rising := false, k := s.pwr.k - 1, upRun := if s.pwr.kt < s.pwr.k then min 256 (s.pwr.upRun + 1) else 0 } }) ∧
     (s.pwr.rising = false → s.pwr.k < s.pwr.kt →
       u = ({ s with pwr := { s.pwr with k := s.pwr.k + 1, upRun := 0 } } : State).send (volt (s.pwr.k + 1))) ∧
     (s.pwr.rising = false → s.pwr.kt < s.pwr.k → s.pwr.upRun + 1 < s.rfield Reg.pwrCtl 12 8 →
       u = { s with pwr := { s.pwr with upRun := min 256 (s.pwr.upRun + 1) } }) ∧
     (s.pwr.rising = false → s.pwr.kt < s.pwr.k → s.rfield Reg.pwrCtl 12 8 ≤ s.pwr.upRun + 1 →
       u = ({ s with pwr := { s.pwr with rising := true, upRun := min 256 (s.pwr.upRun + 1) } } : State).send (volt (s.pwr.k - 1))) ∧
     (s.pwr.rising = false → s.pwr.kt = s.pwr.k → u = { s with pwr := { s.pwr with upRun := 0 } }))

/-! ### Registers -/

/-- R441, R463 to R471: register writes and reads. A write of a word that sets nothing else in motion changes each field as its access code and
its range say, and no other word; partial writes are dropped; beyond BAR0 the access is none of the device's. A write of 1s to EVT clears
them; CNT_CLR clears EVT_CNT; EVT_FORCE raises the bits it names in READY only; LOCK is set from any path and cleared by the firmware
alone. A read returns the word and latches the high half of a pair. -/
def Obligations.RegisterWrites : Prop :=
  ∀ (s : State) (p : Path),
    (∀ (off : Nat) (v : Word) (pg : Page) (r : RegRow) (k : Nat) (f : RField), off < 0x2000000 → off % 4 = 0 →
      s.target p off = some pg → plainWord pg off → rowAt pg (off % 0x1000) = some (r, k) → r.half = .none → f ∈ r.fields →
      let n := fieldNat v f.lsb f.wid
      let old := fieldNat (s.rget off) f.lsb f.wid
      ∃ u, exec (.registerWrite p off v 0xF) s = .next u ∧ (∀ o, o ≠ off → u.rget o = s.rget o) ∧ u = { s with regs := u.regs } ∧
        let new := fieldNat (u.rget off) f.lsb f.wid
        (f.acc = .ro ∨ f.acc = .w1p ∨ (f.acc = .rwl ∧ s.locked pg.base = true) → new = old) ∧
        (f.acc = .rw ∨ f.acc = .wo ∨ (f.acc = .rwl ∧ s.locked pg.base = false) → new = if f.lo ≤ n ∧ n ≤ f.hi then n else old) ∧
        (f.acc = .w1c → ∀ j < f.wid, new.testBit j = (old.testBit j && !n.testBit j))) ∧
    (∀ off v en, off < 0x2000000 → en ≠ 0xF → exec (.registerWrite p off v en) s = .next s) ∧
    (∀ off v en, 0x2000000 ≤ off → exec (.registerWrite p off v en) s = .fault .outsideBar0) ∧
    (∀ off, 0x2000000 ≤ off → exec (.registerLoRead p off) s = .fault .outsideBar0) ∧
    (∀ off, off < 0x2000000 →
      let o := off - off % 4
      (halfOf o = .none → exec (.registerLoRead p off) s = .next { s with mgmt := { s.mgmt with
        readback := leBytes 4 (s.readNow p o).toNat } }) ∧
      (halfOf o = .lo → exec (.registerLoRead p off) s = .next { s with
        latches := tset none s.latches (latchKey p o) (some (s.readNow p (o + 4)))
        mgmt := { s.mgmt with readback := leBytes 4 (s.readNow p o).toNat } }) ∧
      (∀ w, halfOf o = .hi → tget none s.latches (latchKey p (o - 4)) = some w →
        exec (.registerLoRead p off) s = .next { s with mgmt := { s.mgmt with readback := leBytes 4 w.toNat } }) ∧
      (halfOf o = .hi → tget none s.latches (latchKey p (o - 4)) = none → exec (.registerLoRead p off) s = .next { s with
        mgmt := { s.mgmt with readback := leBytes 4 (s.readNow p o).toNat } })) ∧
    (∀ (page : Nat) (bits : Word),
      let b := 0x1000 * page
      (s.writable p (b + oEvt) → ∃ u, exec (.evtClear p page bits) s = .next u ∧ u = { s with regs := u.regs } ∧
        RegsKept s u (fun o => o / 0x1000 = page) ∧ u.rget (b + oEvt) = s.rget (b + oEvt) &&& ~~~bits ∧
        u.rget (b + oEvtCnt) = s.rget (b + oEvtCnt)) ∧
      (s.writable p (b + oCtl) → ∃ u, exec (.cntClr p page) s = .next u ∧ u = { s with regs := u.regs } ∧
        RegsKept s u (fun o => o = b + oCtl ∨ o = b + oEvtCnt) ∧ u.rget (b + oEvtCnt) = 0 ∧
        u.rbit (b + oCtl) 0 = s.rbit (b + oCtl) 0) ∧
      (s.writable p (b + oEvtForce) → s.mgmt.dev = .ready → ∃ u, exec (.evtForce p page bits) s = .next u ∧
        ∀ pg, pageAt b = some pg → ∀ k < evtWidth pg.blk pg.page, bits.getLsbD k = true → u.evtSet b k = true) ∧
      (s.writable p (b + oEvtForce) → s.mgmt.dev ≠ .ready → exec (.evtForce p page bits) s = .next s) ∧
      (s.writable p (b + oLock) → ∃ u, exec (.lockSet p page) s = .next u ∧ u = { s with regs := u.regs } ∧
        RegsKept s u (fun o => o = b + oLock) ∧ u.rbit (b + oLock) 0 = true ∧ u.rbit (b + oLock) 2 = s.rbit (b + oLock) 2) ∧
      (s.writable p (b + oLock) → ∃ u, exec (.lockClear p page) s = .next u ∧ u = { s with regs := u.regs } ∧
        RegsKept s u (fun o => o = b + oLock) ∧ u.rbit (b + oLock) 0 = (p == .pcie && s.rbit (b + oLock) 0) ∧
        u.rbit (b + oLock) 2 = s.rbit (b + oLock) 2))

/-- R284, R345, R387, R410, R431, R438, R439, R446, R452, R458: the registers whose write sets something in motion. A wake is noted by a device
that is in STANDBY or entering it. An image in the recovery buffer that verifies is written and booted. Decided assay records are
cleared. A write of HI records a wall-clock note. A cap waits for the boundary. A ledger consumer index, a completion consumer index and a
log consumer index let what waited for room go on. -/
def Obligations.ManagementWrites : Prop :=
  ∀ (s : State) (p : Path),
    (s.writable p Reg.pciWake →
      (s.mgmt.dev = .standby ∨ s.ring.standbyEntry = true → exec (.pciWake p) s = .next { s with ring := { s.ring with wake := true } }) ∧
      (s.mgmt.dev ≠ .standby → s.ring.standbyEntry = false → exec (.pciWake p) s = .next s)) ∧
    (s.writable p Reg.pciRecovery → s.mgmt.dev = .recovery →
      let image := bytesAt s.mgmt.recovery 0 (640 + leNat (bytesAt s.mgmt.recovery 12 4) % (16 * 2 ^ 20))
      (∀ k, s.fwFault image = some k →
        exec (.pciRecoveryGo p) s = .next (s.rset Reg.pciRecovery (s.rget Reg.pciRecovery ||| 2))) ∧
      (s.fwFault image = none → ∃ u, exec (.pciRecoveryGo p) s = .next u ∧ u.mgmt.nor.firmware = image ∧ u.mgmt.nor.torn = false ∧
        u.mgmt.fwImage = image ∧ u.mgmt.dev = .boot ∧ u.mgmt.bootStage = 3)) ∧
    (s.writable p Reg.asyClr →
      (s.asy.st = 3 → exec (.asyClr p) s = .next { s with asy := { s.asy with recs := [], ninth := [], st := 0 } }) ∧
      (s.asy.st ≠ 3 → exec (.asyClr p) s = .next s)) ∧
    (∀ (k : Fin 12) bits, s.writable p (Reg.hbmPcClr k) → ∃ u, exec (.hbmPcClr p k bits) s = .next u ∧
      u = { s with mem := { s.mem with pcs := u.mem.pcs } } ∧
      ∀ q, u.pc q = if q / 32 = k.val ∧ bits.getLsbD (q % 32) = true then { s.pc q with ceCnt := 0 } else s.pc q) ∧
    (∀ v lo, s.writable p Reg.mssWallHi → tget none s.loHeld (latchKey p Reg.mssWallLo) = some lo →
      let n := lo.toNat + 2 ^ 32 * v.toNat
      let w := (s.rset Reg.mssWallLo lo).rset Reg.mssWallHi v
      ∃ u, exec (.mssWallHiWrite p v) s = .next u ∧ Raised (({ w with
        loHeld := tset none s.loHeld (latchKey p Reg.mssWallLo) none
        mgmt := { s.mgmt with wall := s.mgmt.wall ++ [(BitVec.ofNat 64 n, s.mgmt.elapsed)] } } : State).setPair Reg.mssWallLo n) u pgMss 5 ∧
        u.rpair Reg.mssWallLo = n) ∧
    (∀ v, s.writable p Reg.pwrCap → exec (.pwrCapWrite p v) s = .next { s with pwr := { s.pwr with capShadow := some v } }) ∧
    (∀ v, s.writable p Reg.stkLedgerCi → s.stroke.hold = .no →
      let w := s.rset Reg.stkLedgerCi v
      (s.stp.pendingRec = none → exec (.stkLedgerCiWrite p v) s = .next w) ∧
      (∀ r, s.stp.pendingRec = some r → w.ledgerRoom r = false → exec (.stkLedgerCiWrite p v) s = .next w) ∧
      (∀ r, s.stp.pendingRec = some r → w.ledgerRoom r = true → ∃ u,
        exec (.stkLedgerCiWrite p v) s = .next u ∧ u.stp.pendingRec = none ∧ u.stp.ledger = s.stp.ledger ++ [r] ∧
        u.rget Reg.stkLedgerCi = v)) ∧
    (∀ v, s.writable p Reg.pciCplCi →
      let w := s.rset Reg.pciCplCi (v &&& 0xFFF ||| s.rget Reg.pciCplCi &&& 0xFFFFF000)
      (s.ring.held = [] → exec (.pciCplCiWrite p v) s = .next w) ∧
      (∀ c, s.ring.held = [c] → w.cplRoom = true → ∃ u, exec (.pciCplCiWrite p v) s = .next u ∧ u.ring.held = [] ∧
        u.ring.written = s.ring.written ++ [c])) ∧
    (∀ v, s.writable p Reg.pciRingCfg → s.ring.held = [] → ∃ u, exec (.pciRingCfgWrite p v) s = .next u ∧ u = { s with regs := u.regs } ∧
      RegsKept s u (fun o => o = Reg.pciRingCfg) ∧ u.rbit Reg.pciRingCfg 4 = v.getLsbD 4 ∧
      u.rfield Reg.pciRingCfg 0 4 = if fieldNat v 0 4 ≤ 8 then fieldNat v 0 4 else s.rfield Reg.pciRingCfg 0 4) ∧
    (∀ v, s.writable p Reg.logCfg → s.mgmt.dropped = false → ∃ u, exec (.logCfgWrite p v) s = .next u ∧ u = { s with regs := u.regs } ∧
      RegsKept s u (fun o => o = Reg.logCfg ∨ o = Reg.logPi) ∧ u.rbit Reg.logCfg 11 = v.getLsbD 11 ∧
      u.rget Reg.logPi = if v.getLsbD 11 = true ∧ s.rbit Reg.logCfg 11 = false then 0 else s.rget Reg.logPi) ∧
    (∀ v, s.writable p Reg.logCi →
      let w := s.rset Reg.logCi v
      (s.mgmt.dropped = false ∨ w.logRoom = false → exec (.logCiWrite p v) s = .next w) ∧
      (s.mgmt.dropped = true → w.logRoom = true → ∃ u, exec (.logCiWrite p v) s = .next u ∧
        Raised { w with mgmt := { s.mgmt with dropped := false } } u pgMss 4))

/-- R276, R367, R373, R433, R441, R442, R452: the BAR2 window. A write reaches the bytes of the target that PCI_BAR2_SEL names, in RECOVERY the
recovery buffer, and in RUN nothing, with 0x080A. A read returns the target's bytes, and zero for sealed ones, with 0x0812; what reading the
memory itself tells is told. Beyond BAR2 the access is none of the device's. -/
def Obligations.Bar2Window : Prop :=
  ∀ (s : State) (off : Nat) (data : List Byte),
    let w := s.rget Reg.pciBar2Sel
    (0x10000000 < off + data.length → exec (.bar2Write off data) s = .fault .outsideBar2) ∧
    (∀ len, 0x10000000 < off + len → exec (.bar2Read off len) s = .fault .outsideBar2) ∧
    (off + data.length ≤ 0x10000000 →
      (s.mgmt.dev = .recovery → exec (.bar2Write off data) s = .next { s with mgmt := { s.mgmt with
        recovery := setBytes s.mgmt.recovery off (data.take (2 ^ 24 - off)) } }) ∧
      (s.mgmt.dev = .run → ∃ u, exec (.bar2Write off data) s = .next u ∧ Raised s u pgMss 1) ∧
      (s.mgmt.dev = .ready → selTarget w ≤ 1 → selAddr w off + data.length ≤ s.extent (selTarget w) →
        exec (.bar2Write off data) s = .next (s.poke (selTarget w == 1) (selAddr w off) data)) ∧
      (s.mgmt.dev = .ready → selTarget w = 2 → s.windowCore (selCore w) = true → selAddr w off + data.length ≤ cmBytes →
        exec (.bar2Write off data) s = .next (s.setCore (selCore w) { s.core (selCore w) with
          cm := setBytes (s.core (selCore w)).cm (selAddr w off) data })) ∧
      (s.mgmt.dev = .ready → selTarget w = 4 → selAddr w off + data.length ≤ 384 * 65536 →
        exec (.bar2Write off data) s = .next { s with mem := { s.mem with cal := setBytes s.mem.cal (selAddr w off) data } }) ∧
      (s.mgmt.dev = .ready → selTarget w = 5 → selAddr w off + data.length ≤ 2 ^ 20 →
        exec (.bar2Write off data) s = .next { s with fab := { s.fab with table := setBytes s.fab.table (selAddr w off) data } })) ∧
    (∀ len, off + len ≤ 0x10000000 → s.mgmt.dev = .ready →
      let t := s.winNote (selTarget w) (selAddr w off) len
      (s.sealMet (selTarget w) (selAddr w off) len = none → exec (.bar2Read off len) s = .next { t with mgmt := { t.mgmt with
        readback := s.winRead (selTarget w) (selCore w) (selAddr w off) len } }) ∧
      (2 ≤ selTarget w → exec (.bar2Read off len) s = .next { s with mgmt := { s.mgmt with
        readback := s.winRead (selTarget w) (selCore w) (selAddr w off) len } }) ∧
      (∀ x, s.sealMet (selTarget w) (selAddr w off) len = some x → ∃ u, exec (.bar2Read off len) s = .next u ∧
        u.evtSet (pgIgs 1) 1 = true ∧ u.mgmt.readback.length = len ∧
        ∀ k < len, x.first ≤ selAddr w off + k → selAddr w off + k < x.first + x.len → u.mgmt.readback[k]? = some 0))

/-! ### Messages, resets, pins -/

/-- R436, R451, R453 to R455, R458, R463: what the management firmware answers: register accesses, firmware images and wakes by MCTP, and the
seven requests of SPDM. Its nonces are free values, and its signatures cover the messages of the exchange. That GET_VERSION begins a new
exchange, and that digests, certificates, challenges and measurements need the algorithms first, is the model's reading (log entry 49). -/
def Obligations.FirmwareAnswers : Prop :=
  ∀ (s : State), s.firmwareRuns = true →
    (∀ via, s.mctpFrom via = true →
      (∀ off v, off < 0x2000000 → exec (.mctpPacket via (.regWrite off v)) s = .next ((s.writeReg .mctp off v).send (.mctp none))) ∧
      (∀ off, off < 0x2000000 → halfOf (off - off % 4) = .none →
        exec (.mctpPacket via (.regRead off)) s = .next (s.send (.mctp (some (s.readNow .mctp (off - off % 4)))))) ∧
      (∀ image, s.fwFault image = none → exec (.mctpPacket via (.fwUpdate image)) s = .next { s with
        ring := { s.ring with fwWrite := s.ring.fwWrite ++ [(image, none)] }, mgmt := { s.mgmt with spiWpN := true } }) ∧
      (∀ image k, s.fwFault image = some k → ∃ u, exec (.mctpPacket via (.fwUpdate image)) s = .next u ∧ Raised s u pgMss 0) ∧
      exec (.mctpPacket via .other) s = .next s) ∧
    (∀ peer udp m, peer ∉ s.mgmt.nor.peers → exec (.mctpPacket (.eth peer udp) m) s = .next s) ∧
    (s.mgmt.dev = .standby → exec .mctpWakeCommand s = .next { s with ring := { s.ring with wake := true } }) ∧
    (let told (spdm : MgmtSt) (r : SpdmResp) : State := ({ s with mgmt := spdm } : State).send (.spdm r)
     (exec .getVersion s = .next (told { s.mgmt with
       spdmAlg := false, spdmCaps := false, spdmStart := [0x10, 0x84, 0, 0] ++ versionBytes, spdmCerts := [], spdmMeas := [] } (.version 2))) ∧
     (exec .getCapabilities s = .next (told { s.mgmt with spdmCaps := true } (.capabilities true true true true false false false false))) ∧
     (∀ req caps, exec (.negotiateAlgorithms ⟨true, true, req⟩ caps) s = .next (told { s.mgmt with
       spdmAlg := true, spdmCaps := false
       spdmStart := s.mgmt.spdmStart ++ (if s.mgmt.spdmCaps then caps ++ capBytes else []) ++ req ++ algBytes } (.algorithms true true))) ∧
     (∀ req caps a b, (a && b) = false → exec (.negotiateAlgorithms ⟨a, b, req⟩ caps) s = .next (told s.mgmt .error)) ∧
     (s.mgmt.spdmAlg = true →
       let own := s.nonce.1
       let after (spdm : MgmtSt) (r : SpdmResp) : State := { told spdm r with free := s.free + 4 }
       (exec .getDigests s = .next (told { s.mgmt with
         spdmCerts := s.mgmt.spdmCerts ++ ([0x12, 0x81, 0, 0] ++ s.digestBytes), spdmMeas := [] }
         (.digests (s.mgmt.nor.certs.map (fun c => (c.1, sha256 c.2)))))) ∧
       (∀ (slot : Fin 8) off len c, s.chain slot = some c → off < c.length →
         let part := (c.drop off).take len
         let left := c.length - (off + len)
         exec (.getCertificate slot off len) s = .next (told { s.mgmt with
           spdmCerts := s.mgmt.spdmCerts ++
             ([0x12, 0x82, BitVec.ofNat 8 slot.val, 0] ++ leBytes 2 off ++ leBytes 2 len ++ certBytes slot part left)
           spdmMeas := [] } (.certificate slot off part left))) ∧
       (∀ kind nonce c sum, s.chain 0 = some c → s.summary kind = some sum → exec (.challenge 0 ⟨kind, nonce⟩) s =
         .next (after { s.mgmt with spdmCerts := [], spdmMeas := [] } (.challengeAuth 0 own sum
           (touchmarkSign (spdmSigned challengeContext (s.challengeText kind nonce c own sum)))))) ∧
       (∀ idx nonce, idx ≤ 9 ∨ idx = 0xFF →
         let text (signed : Bool) := s.mgmt.spdmMeas ++ s.measText idx signed nonce own
         exec (.getMeasurements idx true nonce) s = .next (after { s.mgmt with spdmMeas := [] } (.measurements (s.measBlocks idx) own
           (some (touchmarkSign (spdmSigned measContext (s.mgmt.spdmStart ++ text true)))))) ∧
         exec (.getMeasurements idx false nonce) s =
           .next (after { s.mgmt with spdmMeas := text false } (.measurements (s.measBlocks idx) own none)))) ∧
     (s.mgmt.spdmAlg = false → exec .getDigests s = .next (told s.mgmt .error) ∧
       (∀ slot q, exec (.challenge slot q) s = .next (told s.mgmt .error)) ∧
       (∀ idx signed nonce, exec (.getMeasurements idx signed nonce) s = .next (told s.mgmt .error))))

/-- R41, R43, R79, R155, R384, R431 to R434, R452, R458, R491 to R493: resets clear every register and memory but keep fuses, the SPI NOR, the
fence list and its repairs; power-on reset verifies the firmware image and gives every core its role, or takes the device to RECOVERY; the
three PCIe resets clear the endpoint's page alone; STANDBY is entered and left at the clock step's voltage; a sensor's silence raises its
event, and a filler mismatch its own, which of an ACTIVE core in RUN breaks the replica and leaves a record. -/
def Obligations.ResetsAndStates : Prop :=
  ∀ (s : State),
    (∀ ns, ns < 2000 → exec (.resetAssert true ns) s = .next s) ∧
    (∀ b ns, b = false ∨ 2000 ≤ ns → ∃ u, exec (.resetAssert b ns) s = .next u ∧ u.mgmt.dev = .off ∧
      u.mgmt.pwrgood = (b && s.mgmt.pwrgood) ∧ u.fuses = s.fuses ∧
      (∀ o, u.rget o = if o = Reg.nocLdtSel then s.fuses.ldtVer.zeroExtend 32 else resetWord o) ∧
      u.cores = [] ∧ u.roles = [] ∧ u.mem = State.reset.mem ∧ u.fab = State.reset.fab ∧
      u.stroke = State.reset.stroke ∧ u.mgmt.nor.log = s.mgmt.nor.log ∧ u.mgmt.nor.firmware = s.mgmt.nor.firmware ∧
      u.brn.fences = s.brn.fences ∧ u.brn.mapped = s.brn.repairs) ∧
    (∀ b : BootObs, s.pwr.clocksStopped = false → s.mgmt.nor.torn = false → s.ring.fwWrite = [] →
      (b.strapRcv = true → ∃ u, exec (.powerOnReset b) s = .next u ∧ u.mgmt.dev = .recovery) ∧
      (b.strapRcv = false → b.railFault = none → s.fwFault s.mgmt.nor.firmware = none →
        ∃ u, exec (.powerOnReset b) s = .next u ∧ u.mgmt.dev = .boot ∧ u.mgmt.bootStage = 3 ∧ u.mgmt.fwImage = s.mgmt.nor.firmware ∧
          u.stroke.devStroke = 0 ∧ ∀ p < 144,
            (p ∈ s.fuses.disabled → (u.roleOf p).role = .disabled) ∧
            (p ∉ s.fuses.disabled → s.fenceOpen p = true → (u.roleOf p).role = .fenced) ∧
            (p ∉ s.fuses.disabled → s.fenceOpen p = false → (u.roleOf p).role = .spare)) ∧
      (∀ k, b.strapRcv = false → s.fwFault s.mgmt.nor.firmware = some k → ∃ u, exec (.powerOnReset b) s = .next u ∧
        u.mgmt.dev = .recovery ∧ u.evtSet pgMss 0 = true)) ∧
    (∀ c ∈ [Instr.perst, .pcieHotReset, .functionLevelReset], s.mgmt.dev ≠ .off → ∃ u, exec c s = .next u ∧ u.evtSet pgMss 1 = true ∧
      (∀ o < 0x1000, u.rget o = resetWord o) ∧
      (∀ o, 0x1000 ≤ o → ¬ eventRegs pgMss o → u.rget o = s.rget o) ∧
      u.ring = { s.ring with prodIdx := 0, asked := 0 } ∧ u.cores = s.cores ∧ u.mem = s.mem ∧ u.fab = s.fab ∧ u.job = s.job ∧ u.load = s.load ∧
      u.stroke.devStroke = s.stroke.devStroke ∧ u.mgmt.dev = s.mgmt.dev) ∧
    (let trim (k : Nat) : Nat := if s.pwr.trimHold = [] then tget 0 s.pwr.trim k else 0
     let volt (k : Nat) : OutMsg := .avs (4 * s.fuses.vfuse.getD k 0 - 10 * trim k)
     (s.ring.standbyEntry = true → ∃ u, exec .standbyEntryComplete s = .next u ∧
       u = { s with
         mgmt := { s.mgmt with dev := .standby, out := s.mgmt.out ++ [volt 15] }
         ring := { s.ring with standbyEntry := false }
         fab := { s.fab with ports := u.fab.ports } } ∧
       ∀ q < 64, u.port q = if s.rbit (Reg.fabPortCfg q) 0 = true then { s.port q with keepalive := true } else s.port q) ∧
     (s.ring.standbyEntry = false → exec .standbyEntryComplete s = .next s) ∧
     (s.mgmt.dev = .standby → s.ring.wake = true → (∀ q < 64, (s.port q).up = true → (s.port q).keepalive = false) →
       ∃ u, exec .wakeComplete s = .next u ∧
       u = { s with
         mgmt := { s.mgmt with dev := .ready, out := s.mgmt.out ++ [volt (if s.pwr.rising then s.pwr.k - 1 else s.pwr.k)] }
         ring := { s.ring with wake := false }
         fab := { s.fab with ports := u.fab.ports } } ∧
       ∀ q < 64, u.port q = { s.port q with keepalive := false })) ∧
    (∀ bus addr, s.firmwareRuns = true → ∃ u, exec (.sensorTimeout bus addr) s = .next u ∧ Raised s u pgMss 2) ∧
    (∀ (p : Fin 144) (e : Fin 4) (o : FillerObs), s.clockRuns = true → (s.roleOf p).role ≠ .disabled →
      let counted := s.bump (Reg.meResCnt p e) 1
      let job := (s.roleOf p).role = .active ∧ s.mgmt.dev = .run
      (o.observed = o.predicted → exec (.fillerResidueMismatch p e o) s = .next s) ∧
      (o.observed ≠ o.predicted → s.evtSet (pgMe p e) 1 = true → exec (.fillerResidueMismatch p e o) s = .next counted) ∧
      (o.observed ≠ o.predicted → s.evtSet (pgMe p e) 1 = false → ¬ job → ∃ u,
        exec (.fillerResidueMismatch p e o) s = .next u ∧ Raised counted u (pgMe p e) 1) ∧
      (o.observed ≠ o.predicted → s.evtSet (pgMe p e) 1 = false → job → (0x0601, 4 * p.val + e.val) ∉ s.stroke.told →
        ∃ u, ∃ c : CheckRec, Raised counted u (pgMe p e) 1 ∧
          exec (.fillerResidueMismatch p e o) s = .next ((u.breakReplica 0).recheck.addRec p (s.roleOf p).v c) ∧
          c.kind = (if o.cls then 2 else 1) ∧ c.unit = e.val ∧ c.primary = o.observed.toNat ∧ c.checker = o.predicted.toNat))

/-- R494, R496: a TCK edge moves the test access port by TMS and does the work of its state; TRST_N low takes it to Test-Logic-Reset. Five
edges with TMS high reset it from any state. The port reaches no other state of the device. -/
def Obligations.TestPort : Prop :=
  (∀ (s : State) (tms tdi : Bool), s.mgmt.pwrgood = true → ∃ u, exec (.jtagTck (.tck tms tdi)) s = .next u ∧
    u = { s with free := u.free, mgmt := { s.mgmt with jtag := u.mgmt.jtag } } ∧ u.mgmt.jtag.tap = s.mgmt.jtag.tap.next tms ∧
    (s.mgmt.jtag.tap = .shDr → tms = false → u.mgmt.jtag.dr = (s.mgmt.jtag.dr ++ [tdi]).drop 1 ∧ u.mgmt.jtag.ir = s.mgmt.jtag.ir ∧
      u.mgmt.jtag.tdo = u.mgmt.jtag.dr.headD false) ∧
    (s.mgmt.jtag.tap = .capDr → s.mgmt.jtag.op = .bypass → u.mgmt.jtag.dr = [false]) ∧
    (s.mgmt.jtag.tap = .capDr → s.mgmt.jtag.op = .idcode → u.mgmt.jtag.dr = (List.range 32).map (fun k => s.idcode.getLsbD k)) ∧
    (s.mgmt.jtag.tap.next tms = .reset → u.mgmt.jtag.op = .idcode) ∧
    (s.mgmt.jtag.tap.next tms ≠ .reset → s.mgmt.jtag.tap.next tms ≠ .updIr → u.mgmt.jtag.op = s.mgmt.jtag.op)) ∧
  (∀ s : State, s.mgmt.pwrgood = true → exec (.jtagTck .trst) s = .next { s with mgmt := { s.mgmt with
    jtag := { s.mgmt.jtag with tap := .reset, op := .idcode } } }) ∧
  (∀ (s : State) e, s.mgmt.pwrgood = false → exec (.jtagTck e) s = .next s) ∧
  (∀ t : Tap, (((((t.next true).next true).next true).next true).next true) = .reset)

/-! ### The block as a whole -/

/-- A step carries out the command at the front of the queue with the queue's rest. On an empty queue 10 ns pass, where power-on reset has
let go (R437; the model's choice, log entry 51). -/
def Obligations.StepTakesFront : Prop :=
  (∀ (s : State) (c : Instr) (cs : List Instr), s.pending = c :: cs → step s = exec c { s with pending := cs }) ∧
  (∀ s : State, s.pending = [] → ∃ u, step s = .next u ∧ u = { s with mgmt := { s.mgmt with elapsed := u.mgmt.elapsed } } ∧
    u.mgmt.elapsed = if s.mgmt.pwrgood = true ∧ s.mgmt.resetN = true then s.mgmt.elapsed + 10 else s.mgmt.elapsed)

/-- The state after reset: no command waits, every register reads its reset value, the device is at stage 0 of BOOT, no core
holds a position, no event is set, and the fused SVN is within its range. -/
def Obligations.ResetState : Prop :=
  State.reset.pending = [] ∧ (∀ o, State.reset.rget o = resetWord o) ∧ State.reset.mgmt.dev = .boot ∧ State.reset.mgmt.bootStage = 0 ∧
  (∀ v, State.reset.holder v = none) ∧ State.reset.stroke.devStroke = 0 ∧ State.reset.stroke.hold = .no ∧
  State.reset.rget Reg.pwrCap = 0x00032AF0 ∧ State.reset.fuses.minSvn ≤ 64

/-- Every command is carried out: none is refused, and the only faults are accesses beyond BAR0 and BAR2. -/
def Obligations.CommandsComplete : Prop :=
  ∀ (c : Instr) (s : State), (∃ u, exec c s = .next u) ∨
    (exec c s = .fault .outsideBar0 ∧ ∃ p o, 0x2000000 ≤ o ∧
      ((∃ v en, c = .registerWrite p o v en) ∨ c = .registerLoRead p o ∨
        (∃ page, o / 0x1000 = page ∧ ((∃ b, c = .evtClear p page b) ∨ c = .cntClr p page ∨ (∃ b, c = .evtForce p page b) ∨
          c = .lockSet p page ∨ c = .lockClear p page)))) ∨
    (exec c s = .fault .outsideBar2 ∧ ((∃ o d, c = .bar2Write o d ∧ 0x10000000 < o + d.length) ∨
      (∃ o n, c = .bar2Read o n ∧ 0x10000000 < o + n)))

/-- R180, R182, R218: words written out from the field maps, and the instructions they stand for; a reserved opcode and a set reserved bit
spell none. -/
def Obligations.DecodedWords : Prop :=
  decodeWord 0x080C1080FFFFFFFF = some (.add ⟨3, 1, 2, 0, 0xFFFFFFFF⟩) ∧
  decodeWord 0x18140FFFFFFFFFFE = some (.li ⟨5, 0, 0xFFFFFFFFFFE⟩) ∧
  decodeWord 0x0504000028000C00 = some (.loop ⟨1, 10, 3⟩) ∧
  decodeWord 0x2029800000000000 = some (.pand ⟨1, 2, 3, 0, 0, 0⟩) ∧
  decodeWord 0x42064500000703E8 = some (.wait ⟨100, 2, true, 7, 1000⟩) ∧
  decodeWord 0x43FFFB2000011000 = some (.signal ⟨4095, 5, 9, false, 17⟩) ∧
  decodeWord 0x486C800000000000 = some (.hint ⟨6, 200⟩) ∧
  decodeWord 0x6028B00C00D40040 = some (.mcopy ⟨10, 11, 12, 13, false, true, 64⟩) ∧
  decodeWord 0xC0214C0560000000 = some (.vadd ⟨4, 5, 6, 0, 2, true, 1, 2, false, 0, 0⟩) ∧
  decodeWord 0xD542925015400000 = some (.vld ⟨8, 20, 9, 1, false, 2, 0, 0, false, false, true, 21, 0, 0⟩) ∧
  decodeWord 0xD71821082E200000 = some (.vcpst ⟨3, 1, 2, 4, 5, 6, 0, 2⟩) ∧
  decodeWord 0xE000000000000000 = none ∧ decodeWord 0x0000000000000001 = none

/-- R180, R182, R208, R218, R229, R230: every instruction with every value of its fields is read back from its word, and a word that spells
an instruction is that instruction's word. -/
def Obligations.WordsRoundTrip : Prop :=
  (∀ op : IsaOp, decodeWord (encodeWord op) = some op) ∧ (∀ (w : DWord) (op : IsaOp), decodeWord w = some op → encodeWord op = w)

/-- R451, R6: whatever command a step carries out, the queue loses its front and nothing else, every fuse but the firmware's SVN keeps its
value, and that one never falls and never exceeds 64. -/
def Obligations.FusesOnlyRise : Prop :=
  ∀ (s t : State), s.fuses.minSvn ≤ 64 → step s = .next t →
    t.fuses.minSvn ≤ 64 ∧ s.fuses.minSvn ≤ t.fuses.minSvn ∧ t.fuses = { s.fuses with minSvn := t.fuses.minSvn } ∧
    t.pending = s.pending.tail
end

