-- ==== Sys2Proof/Laws/Mem.lean ====
section
/-!
SUPPORT. What the two operations of a sparse table do: a read after a write, and the canonical form.
-/

namespace Sys2Proof.Machine

open Sys2Proof

/-! ### Reads after writes -/

theorem tget_tdel_self {α : Type} (d : α) (t : Tbl α) (k : Nat) : tget d (tdel t k) k = d := by
  induction t with
  | nil => rfl
  | cons e t ih =>
    obtain ⟨j, v⟩ := e
    by_cases h : k = j <;> simp [tdel, tget, h] <;> simpa [h] using ih

theorem tget_tdel_ne {α : Type} (d : α) (t : Tbl α) {k a : Nat} (h : a ≠ k) : tget d (tdel t k) a = tget d t a := by
  induction t with
  | nil => rfl
  | cons e t ih =>
    obtain ⟨j, v⟩ := e
    by_cases hk : k = j
    · subst hk; simp [tdel, tget, h, ih]
    · by_cases ha : a = j <;> simp [tdel, tget, hk, ha, ih]

theorem tget_tput_self {α : Type} (d : α) (t : Tbl α) (k : Nat) (v : α) : tget d (tput t k v) k = v := by
  induction t with
  | nil => simp [tput, tget]
  | cons e t ih =>
    obtain ⟨j, w⟩ := e
    simp only [tput]
    split
    · simp [tget]
    · split
      · simp [tget]
      · next h => simp [tget, h, ih]

theorem tget_tput_ne {α : Type} (d : α) (t : Tbl α) {k a : Nat} (v : α) (h : a ≠ k) :
    tget d (tput t k v) a = tget d t a := by
  induction t with
  | nil => simp [tput, tget, h]
  | cons e t ih =>
    obtain ⟨j, w⟩ := e
    simp only [tput]
    split
    · simp [tget, h]
    · split
      · next hk => subst hk; simp [tget, h]
      · simp [tget, ih]

/-- A key that was written reads as the value written. -/
@[simp] theorem tget_tset_self {α : Type} [DecidableEq α] (d : α) (t : Tbl α) (k : Nat) (v : α) :
    tget d (tset d t k v) k = v := by
  unfold tset
  split
  · next h => rw [tget_tdel_self, h]
  · exact tget_tput_self d t k v

/-- Every other key reads as before, whatever default it has. -/
theorem tget_tset_ne {α : Type} [DecidableEq α] (d : α) {b : α} (t : Tbl α) {k a : Nat} (v : α) (h : a ≠ k) :
    tget d (tset b t k v) a = tget d t a := by
  unfold tset
  split
  · exact tget_tdel_ne d t h
  · exact tget_tput_ne d t v h

theorem tget_tset {α : Type} [DecidableEq α] (d : α) (t : Tbl α) (k a : Nat) (v : α) :
    tget d (tset d t k v) a = if a = k then v else tget d t a := by
  split
  · next h => subst h; simp
  · next h => exact tget_tset_ne d t v h

/-! ### The canonical form -/

/-- Every key of a table lies above a bound. -/
def keysAbove {α : Type} (b : Nat) (t : Tbl α) : Prop := ∀ e ∈ t, b < e.1

theorem twf_cons {α : Type} [DecidableEq α] {d v : α} {j : Nat} {t : Tbl α} :
    twf d ((j, v) :: t) = true ↔ v ≠ d ∧ keysAbove j t ∧ twf d t = true := by
  induction t generalizing j v with
  | nil => simp [twf, keysAbove]
  | cons e t ih =>
    obtain ⟨k, w⟩ := e
    simp only [twf, Bool.and_eq_true, decide_eq_true_eq, keysAbove, List.mem_cons]
    constructor
    · rintro ⟨⟨h1, h2⟩, h3⟩
      refine ⟨h2, ?_, h3⟩
      rintro e (rfl | he)
      · exact h1
      · have := (ih.mp h3).2.1 e he
        omega
    · rintro ⟨h1, h2, h3⟩
      exact ⟨⟨h2 _ (Or.inl rfl), h1⟩, h3⟩

theorem keysAbove_tdel {α : Type} {b : Nat} {t : Tbl α} (k : Nat) (h : keysAbove b t) : keysAbove b (tdel t k) := by
  induction t with
  | nil => exact h
  | cons e t ih =>
    obtain ⟨j, v⟩ := e
    have h2 : keysAbove b t := fun e he => h e (List.mem_cons_of_mem _ he)
    simp only [tdel]
    split
    · exact ih h2
    · intro e he
      rcases List.mem_cons.mp he with rfl | he
      · exact h _ (List.mem_cons_self ..)
      · exact ih h2 e he

theorem keysAbove_tput {α : Type} {b k : Nat} {t : Tbl α} (v : α) (hk : b < k) (h : keysAbove b t) :
    keysAbove b (tput t k v) := by
  induction t with
  | nil => simpa [tput, keysAbove] using hk
  | cons e t ih =>
    obtain ⟨j, w⟩ := e
    have h1 : b < j := h (j, w) (List.mem_cons_self ..)
    have h2 : keysAbove b t := fun e he => h e (List.mem_cons_of_mem _ he)
    simp only [tput]
    split
    · intro e he
      rcases List.mem_cons.mp he with rfl | he
      · exact hk
      · exact h e he
    · split
      · intro e he
        rcases List.mem_cons.mp he with rfl | he
        · exact hk
        · exact h2 e he
      · intro e he
        rcases List.mem_cons.mp he with rfl | he
        · exact h1
        · exact ih h2 e he

theorem twf_tdel {α : Type} [DecidableEq α] {d : α} {t : Tbl α} (k : Nat) (h : twf d t = true) : twf d (tdel t k) = true := by
  induction t with
  | nil => rfl
  | cons e t ih =>
    obtain ⟨j, v⟩ := e
    obtain ⟨h1, h2, h3⟩ := twf_cons.mp h
    simp only [tdel]
    split
    · exact ih h3
    · exact twf_cons.mpr ⟨h1, keysAbove_tdel k h2, ih h3⟩

theorem twf_tput {α : Type} [DecidableEq α] {d : α} {t : Tbl α} (k : Nat) {v : α} (hv : v ≠ d) (h : twf d t = true) :
    twf d (tput t k v) = true := by
  induction t with
  | nil => simp [tput, twf, hv]
  | cons e t ih =>
    obtain ⟨j, w⟩ := e
    obtain ⟨h1, h2, h3⟩ := twf_cons.mp h
    simp only [tput]
    split
    · next hk =>
      refine twf_cons.mpr ⟨hv, ?_, h⟩
      intro e he
      rcases List.mem_cons.mp he with rfl | he
      · exact hk
      · exact lt_trans hk (h2 e he)
    · split
      · next _ hk => exact twf_cons.mpr ⟨hv, by subst hk; exact h2, h3⟩
      · exact twf_cons.mpr ⟨h1, keysAbove_tput v (by omega) h2, ih h3⟩

/-- A write keeps the canonical form. -/
theorem twf_tset {α : Type} [DecidableEq α] {d : α} {t : Tbl α} (k : Nat) (v : α) (h : twf d t = true) :
    twf d (tset d t k v) = true := by
  unfold tset
  split
  · exact twf_tdel k h
  · next hv => exact twf_tput k hv h

/-! ### Byte memories -/

theorem byteAt_setByte (m : List Host.Cell) (a k : Nat) (b : Byte) :
    byteAt (setByte m a b) k = if k = a then b else byteAt m k := tget_tset 0 m a k b

theorem memWf_setByte {m : List Host.Cell} (a : Nat) (b : Byte) (h : memWf m) : memWf (setByte m a b) := twf_tset a b h

/-- What a byte reads as after a list of bytes has been written. -/
theorem byteAt_setBytes (bs : List Byte) : ∀ (m : List Host.Cell) (a k : Nat),
    byteAt (setBytes m a bs) k = if a ≤ k ∧ k < a + bs.length then bs.getD (k - a) 0 else byteAt m k := by
  induction bs with
  | nil => intro m a k; simp [setBytes]
  | cons b bs ih =>
    intro m a k
    simp only [setBytes, ih, byteAt_setByte, List.length_cons]
    by_cases h1 : k = a
    · subst h1; simp
    · by_cases h2 : a + 1 ≤ k ∧ k < a + 1 + bs.length
      · obtain ⟨h3, h4⟩ := h2
        have h5 : k - a = (k - (a + 1)) + 1 := by omega
        simp [h3, h4, h5, show a ≤ k by omega, show k < a + (bs.length + 1) by omega]
      · have h3 : ¬ (a ≤ k ∧ k < a + (bs.length + 1)) := by omega
        simp only [h2, h3, h1, if_false]

theorem memWf_setBytes (bs : List Byte) : ∀ {m : List Host.Cell} (a : Nat), memWf m → memWf (setBytes m a bs) := by
  induction bs with
  | nil => intro m a h; exact h
  | cons b bs ih => intro m a h; exact ih (a + 1) (memWf_setByte a b h)

@[simp] theorem length_bytesAt (m : List Host.Cell) : ∀ (n a : Nat), (bytesAt m a n).length = n
  | 0, _ => rfl
  | n + 1, a => by simp [bytesAt, length_bytesAt m n (a + 1)]

@[simp] theorem length_leBytes : ∀ (n v : Nat), (leBytes n v).length = n
  | 0, _ => rfl
  | n + 1, v => by simp [leBytes, length_leBytes n (v / 256)]

/-- The little-endian bytes of a number give back the number, as far as they reach (R10). -/
theorem leNat_leBytes : ∀ (n v : Nat), leNat (leBytes n v) = v % 256 ^ n
  | 0, v => by simp [leBytes, leNat, Nat.mod_one]
  | n + 1, v => by
    have h := leNat_leBytes n (v / 256)
    have e : 256 ^ (n + 1) = 256 * 256 ^ n := by rw [Nat.pow_succ, Nat.mul_comm]
    simp only [leBytes, leNat, h, BitVec.toNat_ofNat]
    rw [e, Nat.mod_mul]

end Sys2Proof.Machine
end

