-- ==== Sys2Proof/Laws/State.lean ====
section
/-!
SUPPORT. The state's updates: what each leaves alone, field by field, and what it writes.
-/

namespace Sys2Proof.Machine

open Sys2Proof

/-! ### Updates of the block, field by field -/

@[simp] theorem rset_pending (s : State) (o : Nat) (v : Word) : (s.rset o v).pending = s.pending := rfl
@[simp] theorem rset_fuses (s : State) (o : Nat) (v : Word) : (s.rset o v).fuses = s.fuses := rfl
@[simp] theorem rset_latches (s : State) (o : Nat) (v : Word) : (s.rset o v).latches = s.latches := rfl
@[simp] theorem rset_loHeld (s : State) (o : Nat) (v : Word) : (s.rset o v).loHeld = s.loHeld := rfl
@[simp] theorem rset_mgmt (s : State) (o : Nat) (v : Word) : (s.rset o v).mgmt = s.mgmt := rfl
@[simp] theorem rset_stroke (s : State) (o : Nat) (v : Word) : (s.rset o v).stroke = s.stroke := rfl
@[simp] theorem rset_job (s : State) (o : Nat) (v : Word) : (s.rset o v).job = s.job := rfl
@[simp] theorem rset_epoch (s : State) (o : Nat) (v : Word) : (s.rset o v).epoch = s.epoch := rfl
@[simp] theorem rset_ring (s : State) (o : Nat) (v : Word) : (s.rset o v).ring = s.ring := rfl
@[simp] theorem rset_roles (s : State) (o : Nat) (v : Word) : (s.rset o v).roles = s.roles := rfl
@[simp] theorem rset_cores (s : State) (o : Nat) (v : Word) : (s.rset o v).cores = s.cores := rfl
@[simp] theorem rset_flights (s : State) (o : Nat) (v : Word) : (s.rset o v).flights = s.flights := rfl
@[simp] theorem rset_stp (s : State) (o : Nat) (v : Word) : (s.rset o v).stp = s.stp := rfl
@[simp] theorem rset_mem (s : State) (o : Nat) (v : Word) : (s.rset o v).mem = s.mem := rfl
@[simp] theorem rset_fab (s : State) (o : Nat) (v : Word) : (s.rset o v).fab = s.fab := rfl
@[simp] theorem rset_load (s : State) (o : Nat) (v : Word) : (s.rset o v).load = s.load := rfl
@[simp] theorem rset_asy (s : State) (o : Nat) (v : Word) : (s.rset o v).asy = s.asy := rfl
@[simp] theorem rset_brn (s : State) (o : Nat) (v : Word) : (s.rset o v).brn = s.brn := rfl
@[simp] theorem rset_blame (s : State) (o : Nat) (v : Word) : (s.rset o v).blame = s.blame := rfl
@[simp] theorem rset_blamed (s : State) (o : Nat) (v : Word) : (s.rset o v).blamed = s.blamed := rfl
@[simp] theorem rset_pwr (s : State) (o : Nat) (v : Word) : (s.rset o v).pwr = s.pwr := rfl
@[simp] theorem rset_free (s : State) (o : Nat) (v : Word) : (s.rset o v).free = s.free := rfl

@[simp] theorem setCore_pending (s : State) (p : Nat) (c : Core) : (s.setCore p c).pending = s.pending := rfl
@[simp] theorem setCore_fuses (s : State) (p : Nat) (c : Core) : (s.setCore p c).fuses = s.fuses := rfl
@[simp] theorem setCore_regs (s : State) (p : Nat) (c : Core) : (s.setCore p c).regs = s.regs := rfl
@[simp] theorem setCore_latches (s : State) (p : Nat) (c : Core) : (s.setCore p c).latches = s.latches := rfl
@[simp] theorem setCore_loHeld (s : State) (p : Nat) (c : Core) : (s.setCore p c).loHeld = s.loHeld := rfl
@[simp] theorem setCore_mgmt (s : State) (p : Nat) (c : Core) : (s.setCore p c).mgmt = s.mgmt := rfl
@[simp] theorem setCore_stroke (s : State) (p : Nat) (c : Core) : (s.setCore p c).stroke = s.stroke := rfl
@[simp] theorem setCore_job (s : State) (p : Nat) (c : Core) : (s.setCore p c).job = s.job := rfl
@[simp] theorem setCore_epoch (s : State) (p : Nat) (c : Core) : (s.setCore p c).epoch = s.epoch := rfl
@[simp] theorem setCore_ring (s : State) (p : Nat) (c : Core) : (s.setCore p c).ring = s.ring := rfl
@[simp] theorem setCore_roles (s : State) (p : Nat) (c : Core) : (s.setCore p c).roles = s.roles := rfl
@[simp] theorem setCore_flights (s : State) (p : Nat) (c : Core) : (s.setCore p c).flights = s.flights := rfl
@[simp] theorem setCore_stp (s : State) (p : Nat) (c : Core) : (s.setCore p c).stp = s.stp := rfl
@[simp] theorem setCore_mem (s : State) (p : Nat) (c : Core) : (s.setCore p c).mem = s.mem := rfl
@[simp] theorem setCore_fab (s : State) (p : Nat) (c : Core) : (s.setCore p c).fab = s.fab := rfl
@[simp] theorem setCore_load (s : State) (p : Nat) (c : Core) : (s.setCore p c).load = s.load := rfl
@[simp] theorem setCore_asy (s : State) (p : Nat) (c : Core) : (s.setCore p c).asy = s.asy := rfl
@[simp] theorem setCore_brn (s : State) (p : Nat) (c : Core) : (s.setCore p c).brn = s.brn := rfl
@[simp] theorem setCore_blame (s : State) (p : Nat) (c : Core) : (s.setCore p c).blame = s.blame := rfl
@[simp] theorem setCore_blamed (s : State) (p : Nat) (c : Core) : (s.setCore p c).blamed = s.blamed := rfl
@[simp] theorem setCore_pwr (s : State) (p : Nat) (c : Core) : (s.setCore p c).pwr = s.pwr := rfl
@[simp] theorem setCore_free (s : State) (p : Nat) (c : Core) : (s.setCore p c).free = s.free := rfl

@[simp] theorem setRole_pending (s : State) (p : Nat) (r : RoleSt) : (s.setRole p r).pending = s.pending := rfl
@[simp] theorem setRole_fuses (s : State) (p : Nat) (r : RoleSt) : (s.setRole p r).fuses = s.fuses := rfl
@[simp] theorem setRole_regs (s : State) (p : Nat) (r : RoleSt) : (s.setRole p r).regs = s.regs := rfl
@[simp] theorem setRole_latches (s : State) (p : Nat) (r : RoleSt) : (s.setRole p r).latches = s.latches := rfl
@[simp] theorem setRole_loHeld (s : State) (p : Nat) (r : RoleSt) : (s.setRole p r).loHeld = s.loHeld := rfl
@[simp] theorem setRole_mgmt (s : State) (p : Nat) (r : RoleSt) : (s.setRole p r).mgmt = s.mgmt := rfl
@[simp] theorem setRole_stroke (s : State) (p : Nat) (r : RoleSt) : (s.setRole p r).stroke = s.stroke := rfl
@[simp] theorem setRole_job (s : State) (p : Nat) (r : RoleSt) : (s.setRole p r).job = s.job := rfl
@[simp] theorem setRole_epoch (s : State) (p : Nat) (r : RoleSt) : (s.setRole p r).epoch = s.epoch := rfl
@[simp] theorem setRole_ring (s : State) (p : Nat) (r : RoleSt) : (s.setRole p r).ring = s.ring := rfl
@[simp] theorem setRole_cores (s : State) (p : Nat) (r : RoleSt) : (s.setRole p r).cores = s.cores := rfl
@[simp] theorem setRole_flights (s : State) (p : Nat) (r : RoleSt) : (s.setRole p r).flights = s.flights := rfl
@[simp] theorem setRole_stp (s : State) (p : Nat) (r : RoleSt) : (s.setRole p r).stp = s.stp := rfl
@[simp] theorem setRole_mem (s : State) (p : Nat) (r : RoleSt) : (s.setRole p r).mem = s.mem := rfl
@[simp] theorem setRole_fab (s : State) (p : Nat) (r : RoleSt) : (s.setRole p r).fab = s.fab := rfl
@[simp] theorem setRole_load (s : State) (p : Nat) (r : RoleSt) : (s.setRole p r).load = s.load := rfl
@[simp] theorem setRole_asy (s : State) (p : Nat) (r : RoleSt) : (s.setRole p r).asy = s.asy := rfl
@[simp] theorem setRole_brn (s : State) (p : Nat) (r : RoleSt) : (s.setRole p r).brn = s.brn := rfl
@[simp] theorem setRole_blame (s : State) (p : Nat) (r : RoleSt) : (s.setRole p r).blame = s.blame := rfl
@[simp] theorem setRole_blamed (s : State) (p : Nat) (r : RoleSt) : (s.setRole p r).blamed = s.blamed := rfl
@[simp] theorem setRole_pwr (s : State) (p : Nat) (r : RoleSt) : (s.setRole p r).pwr = s.pwr := rfl
@[simp] theorem setRole_free (s : State) (p : Nat) (r : RoleSt) : (s.setRole p r).free = s.free := rfl

@[simp] theorem setPort_pending (s : State) (q : Nat) (x : PortSt) : (s.setPort q x).pending = s.pending := rfl
@[simp] theorem setPort_fuses (s : State) (q : Nat) (x : PortSt) : (s.setPort q x).fuses = s.fuses := rfl
@[simp] theorem setPort_regs (s : State) (q : Nat) (x : PortSt) : (s.setPort q x).regs = s.regs := rfl
@[simp] theorem setPort_latches (s : State) (q : Nat) (x : PortSt) : (s.setPort q x).latches = s.latches := rfl
@[simp] theorem setPort_loHeld (s : State) (q : Nat) (x : PortSt) : (s.setPort q x).loHeld = s.loHeld := rfl
@[simp] theorem setPort_mgmt (s : State) (q : Nat) (x : PortSt) : (s.setPort q x).mgmt = s.mgmt := rfl
@[simp] theorem setPort_stroke (s : State) (q : Nat) (x : PortSt) : (s.setPort q x).stroke = s.stroke := rfl
@[simp] theorem setPort_job (s : State) (q : Nat) (x : PortSt) : (s.setPort q x).job = s.job := rfl
@[simp] theorem setPort_epoch (s : State) (q : Nat) (x : PortSt) : (s.setPort q x).epoch = s.epoch := rfl
@[simp] theorem setPort_ring (s : State) (q : Nat) (x : PortSt) : (s.setPort q x).ring = s.ring := rfl
@[simp] theorem setPort_roles (s : State) (q : Nat) (x : PortSt) : (s.setPort q x).roles = s.roles := rfl
@[simp] theorem setPort_cores (s : State) (q : Nat) (x : PortSt) : (s.setPort q x).cores = s.cores := rfl
@[simp] theorem setPort_flights (s : State) (q : Nat) (x : PortSt) : (s.setPort q x).flights = s.flights := rfl
@[simp] theorem setPort_stp (s : State) (q : Nat) (x : PortSt) : (s.setPort q x).stp = s.stp := rfl
@[simp] theorem setPort_mem (s : State) (q : Nat) (x : PortSt) : (s.setPort q x).mem = s.mem := rfl
@[simp] theorem setPort_load (s : State) (q : Nat) (x : PortSt) : (s.setPort q x).load = s.load := rfl
@[simp] theorem setPort_asy (s : State) (q : Nat) (x : PortSt) : (s.setPort q x).asy = s.asy := rfl
@[simp] theorem setPort_brn (s : State) (q : Nat) (x : PortSt) : (s.setPort q x).brn = s.brn := rfl
@[simp] theorem setPort_blame (s : State) (q : Nat) (x : PortSt) : (s.setPort q x).blame = s.blame := rfl
@[simp] theorem setPort_blamed (s : State) (q : Nat) (x : PortSt) : (s.setPort q x).blamed = s.blamed := rfl
@[simp] theorem setPort_pwr (s : State) (q : Nat) (x : PortSt) : (s.setPort q x).pwr = s.pwr := rfl
@[simp] theorem setPort_free (s : State) (q : Nat) (x : PortSt) : (s.setPort q x).free = s.free := rfl

@[simp] theorem setFlow_pending (s : State) (f : Nat) (x : FlowSt) : (s.setFlow f x).pending = s.pending := rfl
@[simp] theorem setFlow_fuses (s : State) (f : Nat) (x : FlowSt) : (s.setFlow f x).fuses = s.fuses := rfl
@[simp] theorem setFlow_regs (s : State) (f : Nat) (x : FlowSt) : (s.setFlow f x).regs = s.regs := rfl
@[simp] theorem setFlow_latches (s : State) (f : Nat) (x : FlowSt) : (s.setFlow f x).latches = s.latches := rfl
@[simp] theorem setFlow_loHeld (s : State) (f : Nat) (x : FlowSt) : (s.setFlow f x).loHeld = s.loHeld := rfl
@[simp] theorem setFlow_mgmt (s : State) (f : Nat) (x : FlowSt) : (s.setFlow f x).mgmt = s.mgmt := rfl
@[simp] theorem setFlow_stroke (s : State) (f : Nat) (x : FlowSt) : (s.setFlow f x).stroke = s.stroke := rfl
@[simp] theorem setFlow_job (s : State) (f : Nat) (x : FlowSt) : (s.setFlow f x).job = s.job := rfl
@[simp] theorem setFlow_epoch (s : State) (f : Nat) (x : FlowSt) : (s.setFlow f x).epoch = s.epoch := rfl
@[simp] theorem setFlow_ring (s : State) (f : Nat) (x : FlowSt) : (s.setFlow f x).ring = s.ring := rfl
@[simp] theorem setFlow_roles (s : State) (f : Nat) (x : FlowSt) : (s.setFlow f x).roles = s.roles := rfl
@[simp] theorem setFlow_cores (s : State) (f : Nat) (x : FlowSt) : (s.setFlow f x).cores = s.cores := rfl
@[simp] theorem setFlow_flights (s : State) (f : Nat) (x : FlowSt) : (s.setFlow f x).flights = s.flights := rfl
@[simp] theorem setFlow_stp (s : State) (f : Nat) (x : FlowSt) : (s.setFlow f x).stp = s.stp := rfl
@[simp] theorem setFlow_mem (s : State) (f : Nat) (x : FlowSt) : (s.setFlow f x).mem = s.mem := rfl
@[simp] theorem setFlow_load (s : State) (f : Nat) (x : FlowSt) : (s.setFlow f x).load = s.load := rfl
@[simp] theorem setFlow_asy (s : State) (f : Nat) (x : FlowSt) : (s.setFlow f x).asy = s.asy := rfl
@[simp] theorem setFlow_brn (s : State) (f : Nat) (x : FlowSt) : (s.setFlow f x).brn = s.brn := rfl
@[simp] theorem setFlow_blame (s : State) (f : Nat) (x : FlowSt) : (s.setFlow f x).blame = s.blame := rfl
@[simp] theorem setFlow_blamed (s : State) (f : Nat) (x : FlowSt) : (s.setFlow f x).blamed = s.blamed := rfl
@[simp] theorem setFlow_pwr (s : State) (f : Nat) (x : FlowSt) : (s.setFlow f x).pwr = s.pwr := rfl
@[simp] theorem setFlow_free (s : State) (f : Nat) (x : FlowSt) : (s.setFlow f x).free = s.free := rfl

@[simp] theorem send_pending (s : State) (m : OutMsg) : (s.send m).pending = s.pending := rfl
@[simp] theorem send_fuses (s : State) (m : OutMsg) : (s.send m).fuses = s.fuses := rfl
@[simp] theorem send_regs (s : State) (m : OutMsg) : (s.send m).regs = s.regs := rfl
@[simp] theorem send_latches (s : State) (m : OutMsg) : (s.send m).latches = s.latches := rfl
@[simp] theorem send_loHeld (s : State) (m : OutMsg) : (s.send m).loHeld = s.loHeld := rfl
@[simp] theorem send_stroke (s : State) (m : OutMsg) : (s.send m).stroke = s.stroke := rfl
@[simp] theorem send_job (s : State) (m : OutMsg) : (s.send m).job = s.job := rfl
@[simp] theorem send_epoch (s : State) (m : OutMsg) : (s.send m).epoch = s.epoch := rfl
@[simp] theorem send_ring (s : State) (m : OutMsg) : (s.send m).ring = s.ring := rfl
@[simp] theorem send_roles (s : State) (m : OutMsg) : (s.send m).roles = s.roles := rfl
@[simp] theorem send_cores (s : State) (m : OutMsg) : (s.send m).cores = s.cores := rfl
@[simp] theorem send_flights (s : State) (m : OutMsg) : (s.send m).flights = s.flights := rfl
@[simp] theorem send_stp (s : State) (m : OutMsg) : (s.send m).stp = s.stp := rfl
@[simp] theorem send_mem (s : State) (m : OutMsg) : (s.send m).mem = s.mem := rfl
@[simp] theorem send_fab (s : State) (m : OutMsg) : (s.send m).fab = s.fab := rfl
@[simp] theorem send_load (s : State) (m : OutMsg) : (s.send m).load = s.load := rfl
@[simp] theorem send_asy (s : State) (m : OutMsg) : (s.send m).asy = s.asy := rfl
@[simp] theorem send_brn (s : State) (m : OutMsg) : (s.send m).brn = s.brn := rfl
@[simp] theorem send_blame (s : State) (m : OutMsg) : (s.send m).blame = s.blame := rfl
@[simp] theorem send_blamed (s : State) (m : OutMsg) : (s.send m).blamed = s.blamed := rfl
@[simp] theorem send_pwr (s : State) (m : OutMsg) : (s.send m).pwr = s.pwr := rfl
@[simp] theorem send_free (s : State) (m : OutMsg) : (s.send m).free = s.free := rfl

@[simp] theorem setStretch_pending (s : State) (x : StretchSrc) : (s.setStretch x).pending = s.pending := rfl
@[simp] theorem setStretch_fuses (s : State) (x : StretchSrc) : (s.setStretch x).fuses = s.fuses := rfl
@[simp] theorem setStretch_regs (s : State) (x : StretchSrc) : (s.setStretch x).regs = s.regs := rfl
@[simp] theorem setStretch_latches (s : State) (x : StretchSrc) : (s.setStretch x).latches = s.latches := rfl
@[simp] theorem setStretch_loHeld (s : State) (x : StretchSrc) : (s.setStretch x).loHeld = s.loHeld := rfl
@[simp] theorem setStretch_mgmt (s : State) (x : StretchSrc) : (s.setStretch x).mgmt = s.mgmt := rfl
@[simp] theorem setStretch_stroke (s : State) (x : StretchSrc) : (s.setStretch x).stroke = s.stroke := rfl
@[simp] theorem setStretch_job (s : State) (x : StretchSrc) : (s.setStretch x).job = s.job := rfl
@[simp] theorem setStretch_epoch (s : State) (x : StretchSrc) : (s.setStretch x).epoch = s.epoch := rfl
@[simp] theorem setStretch_ring (s : State) (x : StretchSrc) : (s.setStretch x).ring = s.ring := rfl
@[simp] theorem setStretch_roles (s : State) (x : StretchSrc) : (s.setStretch x).roles = s.roles := rfl
@[simp] theorem setStretch_cores (s : State) (x : StretchSrc) : (s.setStretch x).cores = s.cores := rfl
@[simp] theorem setStretch_flights (s : State) (x : StretchSrc) : (s.setStretch x).flights = s.flights := rfl
@[simp] theorem setStretch_stp (s : State) (x : StretchSrc) : (s.setStretch x).stp = s.stp := rfl
@[simp] theorem setStretch_mem (s : State) (x : StretchSrc) : (s.setStretch x).mem = s.mem := rfl
@[simp] theorem setStretch_fab (s : State) (x : StretchSrc) : (s.setStretch x).fab = s.fab := rfl
@[simp] theorem setStretch_load (s : State) (x : StretchSrc) : (s.setStretch x).load = s.load := rfl
@[simp] theorem setStretch_asy (s : State) (x : StretchSrc) : (s.setStretch x).asy = s.asy := rfl
@[simp] theorem setStretch_brn (s : State) (x : StretchSrc) : (s.setStretch x).brn = s.brn := rfl
@[simp] theorem setStretch_blame (s : State) (x : StretchSrc) : (s.setStretch x).blame = s.blame := rfl
@[simp] theorem setStretch_blamed (s : State) (x : StretchSrc) : (s.setStretch x).blamed = s.blamed := rfl
@[simp] theorem setStretch_free (s : State) (x : StretchSrc) : (s.setStretch x).free = s.free := rfl

@[simp] theorem bumpOrdinal_pending (s : State) (p k : Nat) : (s.bumpOrdinal p k).pending = s.pending := rfl
@[simp] theorem bumpOrdinal_fuses (s : State) (p k : Nat) : (s.bumpOrdinal p k).fuses = s.fuses := rfl
@[simp] theorem bumpOrdinal_regs (s : State) (p k : Nat) : (s.bumpOrdinal p k).regs = s.regs := rfl
@[simp] theorem bumpOrdinal_latches (s : State) (p k : Nat) : (s.bumpOrdinal p k).latches = s.latches := rfl
@[simp] theorem bumpOrdinal_loHeld (s : State) (p k : Nat) : (s.bumpOrdinal p k).loHeld = s.loHeld := rfl
@[simp] theorem bumpOrdinal_mgmt (s : State) (p k : Nat) : (s.bumpOrdinal p k).mgmt = s.mgmt := rfl
@[simp] theorem bumpOrdinal_job (s : State) (p k : Nat) : (s.bumpOrdinal p k).job = s.job := rfl
@[simp] theorem bumpOrdinal_epoch (s : State) (p k : Nat) : (s.bumpOrdinal p k).epoch = s.epoch := rfl
@[simp] theorem bumpOrdinal_ring (s : State) (p k : Nat) : (s.bumpOrdinal p k).ring = s.ring := rfl
@[simp] theorem bumpOrdinal_roles (s : State) (p k : Nat) : (s.bumpOrdinal p k).roles = s.roles := rfl
@[simp] theorem bumpOrdinal_cores (s : State) (p k : Nat) : (s.bumpOrdinal p k).cores = s.cores := rfl
@[simp] theorem bumpOrdinal_flights (s : State) (p k : Nat) : (s.bumpOrdinal p k).flights = s.flights := rfl
@[simp] theorem bumpOrdinal_stp (s : State) (p k : Nat) : (s.bumpOrdinal p k).stp = s.stp := rfl
@[simp] theorem bumpOrdinal_mem (s : State) (p k : Nat) : (s.bumpOrdinal p k).mem = s.mem := rfl
@[simp] theorem bumpOrdinal_fab (s : State) (p k : Nat) : (s.bumpOrdinal p k).fab = s.fab := rfl
@[simp] theorem bumpOrdinal_load (s : State) (p k : Nat) : (s.bumpOrdinal p k).load = s.load := rfl
@[simp] theorem bumpOrdinal_asy (s : State) (p k : Nat) : (s.bumpOrdinal p k).asy = s.asy := rfl
@[simp] theorem bumpOrdinal_brn (s : State) (p k : Nat) : (s.bumpOrdinal p k).brn = s.brn := rfl
@[simp] theorem bumpOrdinal_blame (s : State) (p k : Nat) : (s.bumpOrdinal p k).blame = s.blame := rfl
@[simp] theorem bumpOrdinal_blamed (s : State) (p k : Nat) : (s.bumpOrdinal p k).blamed = s.blamed := rfl
@[simp] theorem bumpOrdinal_pwr (s : State) (p k : Nat) : (s.bumpOrdinal p k).pwr = s.pwr := rfl
@[simp] theorem bumpOrdinal_free (s : State) (p k : Nat) : (s.bumpOrdinal p k).free = s.free := rfl

/-! ### Updates of a stream and of a core, field by field -/

@[simp] theorem setS_pc (x : StreamSt) (n : Nat) (v : DWord) : (x.setS n v).pc = x.pc := by unfold StreamSt.setS; split <;> rfl
@[simp] theorem setS_preg (x : StreamSt) (n : Nat) (v : DWord) : (x.setS n v).preg = x.preg := by unfold StreamSt.setS; split <;> rfl
@[simp] theorem setS_vreg (x : StreamSt) (n : Nat) (v : DWord) : (x.setS n v).vreg = x.vreg := by unfold StreamSt.setS; split <;> rfl
@[simp] theorem setS_flags (x : StreamSt) (n : Nat) (v : DWord) : (x.setS n v).flags = x.flags := by unfold StreamSt.setS; split <;> rfl
@[simp] theorem setS_lateFlags (x : StreamSt) (n : Nat) (v : DWord) : (x.setS n v).lateFlags = x.lateFlags := by unfold StreamSt.setS; split <;> rfl
@[simp] theorem setS_loops (x : StreamSt) (n : Nat) (v : DWord) : (x.setS n v).loops = x.loops := by unfold StreamSt.setS; split <;> rfl
@[simp] theorem setS_phase (x : StreamSt) (n : Nat) (v : DWord) : (x.setS n v).phase = x.phase := by unfold StreamSt.setS; split <;> rfl
@[simp] theorem setP_pc (x : StreamSt) (n : Nat) (v : BitVec 1024) : (x.setP n v).pc = x.pc := by unfold StreamSt.setP; split <;> rfl
@[simp] theorem setP_sreg (x : StreamSt) (n : Nat) (v : BitVec 1024) : (x.setP n v).sreg = x.sreg := by unfold StreamSt.setP; split <;> rfl
@[simp] theorem setP_vreg (x : StreamSt) (n : Nat) (v : BitVec 1024) : (x.setP n v).vreg = x.vreg := by unfold StreamSt.setP; split <;> rfl
@[simp] theorem setP_flags (x : StreamSt) (n : Nat) (v : BitVec 1024) : (x.setP n v).flags = x.flags := by unfold StreamSt.setP; split <;> rfl
@[simp] theorem setP_lateFlags (x : StreamSt) (n : Nat) (v : BitVec 1024) : (x.setP n v).lateFlags = x.lateFlags := by unfold StreamSt.setP; split <;> rfl
@[simp] theorem setP_loops (x : StreamSt) (n : Nat) (v : BitVec 1024) : (x.setP n v).loops = x.loops := by unfold StreamSt.setP; split <;> rfl
@[simp] theorem setP_phase (x : StreamSt) (n : Nat) (v : BitVec 1024) : (x.setP n v).phase = x.phase := by unfold StreamSt.setP; split <;> rfl
@[simp] theorem setVword_pc (x : StreamSt) (k : Nat) (v : Word) : (x.setVword k v).pc = x.pc := rfl
@[simp] theorem setVword_sreg (x : StreamSt) (k : Nat) (v : Word) : (x.setVword k v).sreg = x.sreg := rfl
@[simp] theorem setVword_preg (x : StreamSt) (k : Nat) (v : Word) : (x.setVword k v).preg = x.preg := rfl
@[simp] theorem setVword_flags (x : StreamSt) (k : Nat) (v : Word) : (x.setVword k v).flags = x.flags := rfl
@[simp] theorem setVword_lateFlags (x : StreamSt) (k : Nat) (v : Word) : (x.setVword k v).lateFlags = x.lateFlags := rfl
@[simp] theorem setVword_loops (x : StreamSt) (k : Nat) (v : Word) : (x.setVword k v).loops = x.loops := rfl
@[simp] theorem setVword_phase (x : StreamSt) (k : Nat) (v : Word) : (x.setVword k v).phase = x.phase := rfl

@[simp] theorem setStream_cm (c : Core) (st : Stream) (x : StreamSt) : (c.setStream st x).cm = c.cm := by cases st <;> rfl
@[simp] theorem setStream_gran (c : Core) (st : Stream) (x : StreamSt) : (c.setStream st x).gran = c.gran := by cases st <;> rfl
@[simp] theorem setStream_rgn (c : Core) (st : Stream) (x : StreamSt) : (c.setStream st x).rgn = c.rgn := by cases st <;> rfl
@[simp] theorem setStream_istore (c : Core) (st : Stream) (x : StreamSt) : (c.setStream st x).istore = c.istore := by cases st <;> rfl
@[simp] theorem setStream_ctr (c : Core) (st : Stream) (x : StreamSt) : (c.setStream st x).ctr = c.ctr := by cases st <;> rfl
@[simp] theorem setStream_added (c : Core) (st : Stream) (x : StreamSt) : (c.setStream st x).added = c.added := by cases st <;> rfl
@[simp] theorem setStream_eng (c : Core) (st : Stream) (x : StreamSt) : (c.setStream st x).eng = c.eng := by cases st <;> rfl
@[simp] theorem setStream_slots (c : Core) (st : Stream) (x : StreamSt) : (c.setStream st x).slots = c.slots := by cases st <;> rfl
@[simp] theorem setStream_nextSlots (c : Core) (st : Stream) (x : StreamSt) : (c.setStream st x).nextSlots = c.nextSlots := by cases st <;> rfl
@[simp] theorem setStream_held (c : Core) (st : Stream) (x : StreamSt) : (c.setStream st x).held = c.held := by cases st <;> rfl
@[simp] theorem setStream_seq (c : Core) (st : Stream) (x : StreamSt) : (c.setStream st x).seq = c.seq := by cases st <;> rfl
@[simp] theorem setStream_tickets (c : Core) (st : Stream) (x : StreamSt) : (c.setStream st x).tickets = c.tickets := by cases st <;> rfl
@[simp] theorem setStream_landing (c : Core) (st : Stream) (x : StreamSt) : (c.setStream st x).landing = c.landing := by cases st <;> rfl
@[simp] theorem setStream_narrow (c : Core) (st : Stream) (x : StreamSt) : (c.setStream st x).narrow = c.narrow := by cases st <;> rfl
@[simp] theorem setStream_commits (c : Core) (st : Stream) (x : StreamSt) : (c.setStream st x).commits = c.commits := by cases st <;> rfl
@[simp] theorem setStream_lockHit (c : Core) (st : Stream) (x : StreamSt) : (c.setStream st x).lockHit = c.lockHit := by cases st <;> rfl
@[simp] theorem setStream_lockCycle (c : Core) (st : Stream) (x : StreamSt) : (c.setStream st x).lockCycle = c.lockCycle := by cases st <;> rfl

/-- A stream that was written reads as written; the others read as before. -/
@[simp] theorem stream_setStream_self (c : Core) (st : Stream) (x : StreamSt) : (c.setStream st x).stream st = x := by
  cases st <;> rfl
theorem stream_setStream_ne (c : Core) {st q : Stream} (x : StreamSt) (h : q ≠ st) :
    (c.setStream st x).stream q = c.stream q := by
  cases st <;> cases q <;> first | rfl | exact absurd rfl h
@[simp] theorem setStream_setStream (c : Core) (st : Stream) (x y : StreamSt) :
    (c.setStream st x).setStream st y = c.setStream st y := by cases st <;> rfl
@[simp] theorem setStream_stream (c : Core) (st : Stream) : c.setStream st (c.stream st) = c := by cases st <;> rfl

/-- A scalar that was written reads as written, but for s0, which reads 0 (R158). -/
theorem sget_setS (x : StreamSt) (n k : Nat) (v : DWord) :
    sget (x.setS n v).sreg k = if k = n ∧ n ≠ 0 then v else sget x.sreg k := by
  unfold sget StreamSt.setS
  by_cases hk : k = 0
  · subst hk; simp only [if_true]; split
    · next h => exact absurd h.1.symm h.2
    · rfl
  · by_cases hn : n = 0
    · simp [hk, hn]
    · simp only [hk, hn, if_false, tget_tset]
      by_cases h : k = n <;> simp [h, hn]

/-- The same of a predicate; p0 reads all ones. -/
theorem pget_setP (x : StreamSt) (n k : Nat) (v : BitVec 1024) :
    pget (x.setP n v).preg k = if k = n ∧ n ≠ 0 then v else pget x.preg k := by
  unfold pget StreamSt.setP
  by_cases hk : k = 0
  · subst hk; simp only [if_true]; split
    · next h => exact absurd h.1.symm h.2
    · rfl
  · by_cases hn : n = 0
    · simp [hk, hn]
    · simp only [hk, hn, if_false, tget_tset]
      by_cases h : k = n <;> simp [h, hn]

/-! ### Reading back -/

@[simp] theorem core_setCore_self (s : State) (p : Nat) (c : Core) : (s.setCore p c).core p = c := tget_tset_self _ _ _ _
theorem core_setCore_ne (s : State) {p q : Nat} (c : Core) (h : q ≠ p) : (s.setCore p c).core q = s.core q :=
  tget_tset_ne _ _ _ h
@[simp] theorem rget_rset_self (s : State) (o : Nat) (v : Word) : (s.rset o v).rget o = v := tget_tset_self _ _ _ _
theorem rget_rset_ne (s : State) {o a : Nat} (v : Word) (h : a ≠ o) : (s.rset o v).rget a = s.rget a :=
  tget_tset_ne _ _ _ h
@[simp] theorem rget_setCore (s : State) (p : Nat) (c : Core) (o : Nat) : (s.setCore p c).rget o = s.rget o := rfl
@[simp] theorem core_rset (s : State) (o : Nat) (v : Word) (p : Nat) : (s.rset o v).core p = s.core p := rfl
@[simp] theorem holder_setCore (s : State) (p : Nat) (c : Core) (v : Nat) : (s.setCore p c).holder v = s.holder v := rfl
@[simp] theorem roleOf_setCore (s : State) (p : Nat) (c : Core) (q : Nat) : (s.setCore p c).roleOf q = s.roleOf q := rfl
@[simp] theorem roleOf_setRole_self (s : State) (p : Nat) (r : RoleSt) : (s.setRole p r).roleOf p = r := tget_tset_self _ _ _ _
@[simp] theorem port_setPort_self (s : State) (q : Nat) (x : PortSt) : (s.setPort q x).port q = x := tget_tset_self _ _ _ _
theorem port_setPort_ne (s : State) {q r : Nat} (x : PortSt) (h : r ≠ q) : (s.setPort q x).port r = s.port r :=
  tget_tset_ne _ _ _ h
@[simp] theorem flow_setFlow_self (s : State) (f : Nat) (x : FlowSt) : (s.setFlow f x).flow f = x := tget_tset_self _ _ _ _
theorem flow_setFlow_ne (s : State) {f g : Nat} (x : FlowSt) (h : g ≠ f) : (s.setFlow f x).flow g = s.flow g :=
  tget_tset_ne _ _ _ h

end Sys2Proof.Machine
end

