-- ==== Sys2Proof/Laws/Issue.lean ====
section
/-!
SUPPORT. The issue of an instruction: what `issueOp` answers where nothing holds the instruction, in terms of `perform`.
-/

namespace Sys2Proof.Machine

open Sys2Proof

/-- Closing records changes the records only. -/
theorem closeRecs_eq (s : State) (v : Nat) (ks : List Nat) (u w o : Nat) (l : Option Word) (x : Word) (fired : Bool) :
    ∃ a, s.closeRecs v ks u w o l x fired = { s with asy := a } := by
  unfold State.closeRecs
  split
  · exact ⟨s.asy, rfl⟩
  · exact ⟨_, rfl⟩

@[simp] theorem stream_took (c : Core) (st : Stream) : c.took.stream st = c.stream st := by cases st <;> rfl
@[simp] theorem took_setStream (c : Core) (st : Stream) (x : StreamSt) :
    c.took.setStream st x = (c.setStream st x).took := by cases st <;> rfl

/-- Passing a point of an assay changes the records and the free values only. -/
theorem passPoint_eq (s : State) (v : Nat) (ks : List Nat) (u w o : Nat) :
    ∃ a f, s.passPoint v ks u w o = { s with asy := a, free := f } ∧ (s.assaying = false → a = s.asy ∧ f = s.free) := by
  unfold State.passPoint
  split
  · next h =>
    have ha : s.assaying = true := by simp only [Bool.and_eq_true] at h; exact h.1
    obtain ⟨a, e⟩ := closeRecs_eq s.draw.2 v ks u w o none (s.draw.1.truncate 32) false
    exact ⟨a, s.free + 1, e, fun h => by simp [h] at ha⟩
  · exact ⟨s.asy, s.free, rfl, fun _ => ⟨rfl, rfl⟩⟩

/-- The parts of `canIssue`. -/
theorem canIssue_iff (s : State) (i : Iss) (op : IsaOp) (p : Nat) : s.canIssue i op p = true ↔
    i.upset = none ∧ s.holder i.v = some p ∧ s.ready p i.st = true ∧
    (if op = .nop then s.wordLegal p i.st else legal op) = true ∧
    (s.core p).held.any (fun h => h.st == i.st && clashes (regUse op) (regUse h.op)) = false ∧
    queueFull (s.core p) op = false ∧ i.regWait = 0 ∧ i.queueWait = 0 ∧ i.bankWait = 0 ∧
    blocked (s.core p) (s.issueOf p i.st op) = false ∧ rowLimit (s.core p) (s.issueOf p i.st op) = none ∧
    mayFinish (s.core p) (s.issueOf p i.st op) = true ∧ s.devHold i.v p (s.issueOf p i.st op) = false := by
  unfold State.canIssue
  cases hu : i.upset <;> simp [Bool.and_eq_true, and_assoc]

/-- The state in which an instruction that nothing holds does its work: the issue is counted. -/
def State.atIssue (s : State) (p : Nat) (a : AsySt) (f : Nat) : State :=
  ({ s with asy := a, free := f }).setCore p (s.core p).took

@[simp] theorem core_atIssue (s : State) (p : Nat) (a : AsySt) (f : Nat) :
    (s.atIssue p a f).core p = (s.core p).took := core_setCore_self _ _ _

theorem core_atIssue_ne (s : State) {p q : Nat} (a : AsySt) (f : Nat) (h : q ≠ p) :
    (s.atIssue p a f).core q = s.core q := core_setCore_ne _ _ h

@[simp] theorem core_bumpOrdinal (s : State) (p k q : Nat) : (s.bumpOrdinal p k).core q = s.core q := rfl

/-- No cycle of a stall is counted where none is told. -/
theorem countStall_zero (s : State) (p : Nat) (lanes : Bool) (cls : StallClass) : s.countStall p lanes cls 0 = s := rfl

theorem countIssue_zero (s : State) (p : Nat) {i : Iss} (op : IsaOp) (h1 : i.regWait = 0) (h2 : i.queueWait = 0)
    (h3 : i.bankWait = 0) : s.countIssue p i op = s := by
  unfold State.countIssue
  simp only [h1, h2, h3, countStall_zero, State.bumpPair, if_true, ite_self]

/-- What an issue answers where nothing holds the instruction: a try of it, the next word, the stream's ordinal. -/
theorem issueOp_eq {s : State} {i : Iss} {op : IsaOp} {p : Nat} (h : s.canIssue i op p = true) :
    ∃ a f, (s.assaying = false → a = s.asy ∧ f = s.free) ∧
      s.issueOp i op = (match (s.atIssue p a f).tryPerform i.v p (s.streamOf i p).pc.toNat (s.issueOf p i.st op) with
        | (t, none) => t.stepPc p i.st
        | (t, some g) => (t.setCore p { t.core p with
            held := (t.core p).held ++ [{ s.issueOf p i.st op with prog := g }] }).stepPc p i.st).bumpOrdinal p
              (4 + i.st.codeNat) := by
  obtain ⟨hu, hh, hr, hl, hc, hq, h1, h2, h3, -, -, -, -⟩ := (canIssue_iff s i op p).mp h
  have hbad : (if op = .nop then !s.wordLegal p i.st else !legal op) = false := by
    split <;> rename_i hop <;> simp only [hop, if_true, if_false] at hl <;> simp [hl]
  obtain ⟨a, f, hp, hpf⟩ := passPoint_eq s i.v [4, 5] 0 i.st.codeNat (s.ordinal p (4 + i.st.codeNat))
  refine ⟨a, f, hpf, ?_⟩
  unfold State.issueOp
  simp only [hh, hr, hc, hq, hu, hbad, Bool.not_true, Bool.false_eq_true, if_false, Bool.false_and, State.pointOf, hp, Bool.or_self,
    countIssue_zero _ _ _ h1 h2 h3, upsetErrs]
  rfl

/-- A first try of an instruction of no engine that nothing holds: `perform` on its core, its effects outside the core, the cycles of the
read port. -/
theorem tryPerform_ok {s : State} {v p pc : Nat} {i : Issue} {r : Run} (hb : blocked (s.core p) i = false)
    (hd : s.devHold v p i = false) (he : engineOf i.op = none)
    (hp : perform (s.ctxOf v p) (s.rowBytes v) pc i
      (.again (s.core p) i.prog (rowLimit (s.core p) i) (mayFinish (s.core p) i)) = .ok r) :
    s.tryPerform v p pc i = (((s.setCore p r.c).applyAll p v r.fx).bumpPair (Reg.muBusyCycLo p)
      (portGranules (((s.setCore p r.c).applyAll p v r.fx).rowBytes v) i), none) := by
  unfold State.tryPerform
  have hr : s.reachHead p i = (s, i) := by unfold State.reachHead; rw [he]
  simp only [hb, hd, Bool.or_self, Bool.false_eq_true, if_false, hr, hp, he]

/-- Behind an issue whose work writes core `p` alone, only that core differs. -/
theorem onlyCore_issue {s : State} {p : Nat} {a : AsySt} {f : Nat} (c d : Core) (k : Nat)
    (haf : s.assaying = false → a = s.asy ∧ f = s.free) :
    OnlyCore s ((((s.atIssue p a f).setCore p c).setCore p d).bumpOrdinal p k) p := by
  refine ⟨fun q hq => ?_, ?_, haf⟩
  · rw [core_bumpOrdinal, core_setCore_ne _ _ hq, core_setCore_ne _ _ hq, core_atIssue_ne _ _ _ hq]
  · unfold State.bumpOrdinal State.setCore State.atIssue State.setCore; rfl

/-- An instruction that works on its core alone and no engine: the core as `perform` leaves it, the stream at its next word, nothing
else but the ordinals and what an assay closes. -/
theorem issue_alone {s : State} {i : Iss} {op : IsaOp} {p : Nat} (c : Core) (h : s.canIssue i op p = true)
    (he : engineOf op = none) (hg : ∀ rows, portGranules rows (s.issueOf p i.st op) = 0)
    (hn : ∀ a f, (s.atIssue p a f).devHold i.v p (s.issueOf p i.st op) = s.devHold i.v p (s.issueOf p i.st op))
    (hp : ∀ lim fin, ∃ r, perform (s.ctxOf i.v p) (s.rowBytes i.v) (s.streamOf i p).pc.toNat (s.issueOf p i.st op)
      (.again (s.core p).took prog0 lim fin) = .ok r ∧ r.c = c.took ∧ r.fx = []) :
    (s.issueOp i op).core p = c.goOn i.st ∧ OnlyCore s (s.issueOp i op) p := by
  obtain ⟨-, -, -, -, -, -, -, -, -, hb, -, -, hd⟩ := (canIssue_iff s i op p).mp h
  obtain ⟨a, f, haf, e⟩ := issueOp_eq h
  obtain ⟨r, hr, hc, hf⟩ := hp (rowLimit ((s.atIssue p a f).core p) (s.issueOf p i.st op))
    (mayFinish ((s.atIssue p a f).core p) (s.issueOf p i.st op))
  have ht := tryPerform_ok (s := s.atIssue p a f) (v := i.v) (p := p) (pc := (s.streamOf i p).pc.toNat)
    (i := s.issueOf p i.st op) (r := r) (by rw [core_atIssue]; exact hb) ((hn a f).trans hd) he
    (by rw [← hr, core_atIssue]; rfl)
  rw [hf, hc] at ht
  simp only [State.applyAll, List.foldl_nil, hg, State.bumpPair, if_true] at ht
  rw [e, ht]
  refine ⟨?_, onlyCore_issue _ _ _ haf⟩
  show (((s.atIssue p a f).setCore p c.took).stepPc p i.st).core p = _
  unfold State.stepPc
  rw [core_setCore_self, core_setCore_self]
  cases i.st <;> rfl

end Sys2Proof.Machine
end

