-- ==== Sys2Proof/Laws/Access.lean ====
section
/-!
SUPPORT. Accesses of core memory by an instruction: what a read and a write do where no HANDOFF region is met.
-/

namespace Sys2Proof.Machine

open Sys2Proof

/-- Every operation's command issues it. -/
theorem exec_cmd (i : Iss) (op : IsaOp) (s : State) : exec (cmdOf i op) s = .next (s.issueOp i op) := by
  cases op <;> rfl

theorem readGranules_plain {x : Ctx} {st : Stream} {gs : List Nat} (h : ∀ g ∈ gs, regionOf x g = none) (c : Core) :
    readGranules x st gs c = some (c, []) := by
  induction gs generalizing c with
  | nil => rfl
  | cons g gs ih =>
    have hg : hwRead x st g c = some (c, none) := by unfold hwRead; rw [h g (List.mem_cons_self ..)]
    simp only [readGranules, hg, ih (fun g hg => h g (List.mem_cons_of_mem _ hg))]

theorem writeGranules_plain {x : Ctx} {off len : Nat} {gs : List Nat} (h : ∀ g ∈ gs, regionOf x g = none) (c : Core) :
    writeGranules x off len gs c = some c := by
  induction gs generalizing c with
  | nil => rfl
  | cons g gs ih =>
    have hg : ∀ b, hwWrite x g b c = some c := by intro b; unfold hwWrite; rw [h g (List.mem_cons_self ..)]
    simp only [writeGranules, hg, ih (fun g hg => h g (List.mem_cons_of_mem _ hg))]

theorem typedClash_plain {x : Ctx} {f : Fmt} {off len : Nat} (h : Plain x off len) : typedClash x f off len = none := by
  unfold typedClash
  rw [List.findSome?_eq_none_iff]
  intro g hg
  rw [h g hg]

theorem maskStale_nil (off : Nat) (bs : List Byte) : maskStale off [] bs = bs := by
  have h : ∀ (bs : List Byte) (k : Nat), (bs.zipIdx k).map (fun p => p.1) = bs := by
    intro bs
    induction bs with
    | nil => intro k; rfl
    | cons b bs ih => intro k; simp [List.zipIdx_cons, ih]
  simp [maskStale, h bs 0]

/-- A first read that meets no HANDOFF region gives the bytes as they stand, and changes what the try has logged only. -/
theorem read_plain {x : Ctx} {i : Issue} {f : Option Fmt} {eng off len : Nat} (r : Run) (ho : r.old = []) (h : Plain x off len) :
    r.read x i f eng off len =
      .ok (bytesAt r.c.cm off len, { r with prog := { r.prog with log := bytesAt r.c.cm off len :: r.prog.log } }) := by
  unfold Run.read Run.access
  have hc : f.bind (fun f => typedClash x f off len) = none := by
    cases f <;> simp [typedClash_plain h]
  rw [hc, readGranules_plain h, ho]
  simp [maskStale_nil]

/-- A first write that meets no HANDOFF region writes its bytes, and changes nothing else but what the try has logged. -/
theorem write_plain {x : Ctx} {i : Issue} {f : Option Fmt} {eng off : Nat} {bs : List (Option Byte)} (r : Run) (ho : r.old = [])
    (h : Plain x off bs.length) :
    r.write x i f eng off bs =
      .ok { r with c := { r.c with cm := writeBytes r.c.cm off bs }, prog := { r.prog with log := [] :: r.prog.log } } := by
  unfold Run.write Run.access
  have hc : f.bind (fun f => typedClash x f off bs.length) = none := by
    cases f <;> simp [typedClash_plain h]
  rw [hc, writeGranules_plain h, ho]
  rfl

theorem writeBytes_some (bs : List Byte) : ∀ (m : List Host.Cell) (a : Nat), writeBytes m a (bs.map some) = setBytes m a bs := by
  induction bs with
  | nil => intro m a; rfl
  | cons b bs ih => intro m a; exact ih _ _

/-- What a byte reads as after a write with a byte or nothing for each place. -/
theorem byteAt_writeBytes (bs : List (Option Byte)) : ∀ (m : List Host.Cell) (a k : Nat),
    byteAt (writeBytes m a bs) k =
      if a ≤ k ∧ k < a + bs.length then (bs.getD (k - a) none).getD (byteAt m k) else byteAt m k := by
  induction bs with
  | nil => intro m a k; simp [writeBytes]
  | cons b bs ih =>
    intro m a k
    by_cases h1 : k = a
    · subst h1
      have h2 : ¬ (k + 1 ≤ k ∧ k < k + 1 + bs.length) := by omega
      cases b <;> simp only [writeBytes, ih, h2, if_false, byteAt_setByte, if_true] <;> simp
    · by_cases h2 : a + 1 ≤ k ∧ k < a + 1 + bs.length
      · have h3 : a ≤ k ∧ k < a + (b :: bs).length := by simp only [List.length_cons]; omega
        have h4 : k - a = (k - (a + 1)) + 1 := by omega
        cases b <;> simp only [writeBytes, ih, h2, h3, and_self, if_true, h4, List.getD_cons_succ, byteAt_setByte, h1, if_false]
      · have h3 : ¬ (a ≤ k ∧ k < a + (b :: bs).length) := by simp only [List.length_cons]; omega
        cases b <;> simp only [writeBytes, ih, h2, h3, if_false, byteAt_setByte, h1]

theorem memWf_writeBytes (bs : List (Option Byte)) : ∀ {m : List Host.Cell} (a : Nat), memWf m → memWf (writeBytes m a bs) := by
  induction bs with
  | nil => intro m a h; exact h
  | cons b bs ih =>
    intro m a h
    cases b with
    | none => exact ih (a + 1) h
    | some b => exact ih (a + 1) (memWf_setByte a b h)

end Sys2Proof.Machine
end

