-- ==== Sys2Proof/Laws/Events.lean ====
section
/-!
SUPPORT. What raising an event can change: registers, the three logs with their notices, the marks of the step's verdict, and the
once-per-stroke marks.
-/

namespace Sys2Proof.Machine

open Sys2Proof

theorem Logged.refl (s : State) : Logged s s := ⟨_, _, _, _, _, _, _, _, _, rfl⟩

theorem Logged.trans {s t u : State} (h : Logged s t) (k : Logged t u) : Logged s u := by
  obtain ⟨r, a, b, c, d, e, f, g, i, rfl⟩ := h
  obtain ⟨r', a', b', c', d', e', f', g', i', rfl⟩ := k
  exact ⟨r', a', b', c', d', e', f', g', i', rfl⟩

theorem logged_rset (s : State) (o : Nat) (v : Word) : Logged s (s.rset o v) := ⟨_, _, _, _, _, _, _, _, _, rfl⟩

theorem logged_setPair (s : State) (o n : Nat) : Logged s (s.setPair o n) := (logged_rset _ _ _).trans (logged_rset _ _ _)

theorem logged_bump (s : State) (o n : Nat) : Logged s (s.bump o n) := logged_rset _ _ _

theorem logged_bumpPair (s : State) (o n : Nat) : Logged s (s.bumpPair o n) := by
  unfold State.bumpPair
  split
  · exact Logged.refl s
  · exact logged_setPair _ _ _

theorem logged_rsetList (s : State) (f : Nat × Nat → Nat) (g : Nat × Nat → Word) (l : List (Nat × Nat)) :
    Logged s (l.foldl (fun s c => s.rset (f c) (g c)) s) := by
  induction l generalizing s with
  | nil => exact Logged.refl s
  | cons c l ih => exact (logged_rset s _ _).trans (ih _)

theorem logged_setEvt (s : State) (pg : Page) (k : Nat) (caps : List (Nat × Nat)) : Logged s (s.setEvt pg k caps) := by
  unfold State.setEvt
  dsimp only
  split
  · exact (logged_rset s _ _).trans (logged_rsetList _ _ _ _)
  · exact logged_rset _ _ _

theorem logged_send (s : State) (m : OutMsg) : Logged s (s.send m) := ⟨_, _, _, _, _, _, _, _, _, rfl⟩

theorem logged_logWrite (s : State) (r : EvtRec) : Logged s (s.logWrite r) := by
  unfold State.logWrite
  exact Logged.trans ⟨_, _, _, _, _, _, _, _, _, rfl⟩ ((logged_rset _ _ _).trans (logged_send _ _))

theorem logged_hostLogRec (s : State) (r : EvtRec) : Logged s (s.hostLogRec r) := by
  unfold State.hostLogRec
  dsimp only
  split
  · split
    · exact logged_logWrite _ _
    · exact (logged_bump _ _ _).trans ⟨_, _, _, _, _, _, _, _, _, rfl⟩
  · exact Logged.refl s

theorem logged_logRec (s : State) (r : EvtRec) (masked : Bool) : Logged s (s.logRec r masked) := by
  unfold State.logRec
  have h : ∀ t, Logged s t → Logged s (if sevStep ≤ r.sev then
      { t with mgmt := { t.mgmt with nor := { t.mgmt.nor with log := pushMax 262144 t.mgmt.nor.log r } } } else t) := by
    intro t ht
    split
    · exact ht.trans ⟨_, _, _, _, _, _, _, _, _, rfl⟩
    · exact ht
  refine h _ ?_
  split
  · exact Logged.trans ⟨_, _, _, _, _, _, _, _, _, rfl⟩ (logged_hostLogRec _ _)
  · exact Logged.refl s

theorem logged_stepMark (s : State) (e : Ev) : Logged s (s.stepMark e) := by
  unfold State.stepMark
  split
  · split <;> exact ⟨_, _, _, _, _, _, _, _, _, rfl⟩
  · exact Logged.refl s

/-- Raising an event changes no more than `Logged` allows. -/
theorem logged_raise (s : State) (e : Ev) : Logged s (s.raise e) := by
  unfold State.raise
  split
  · exact Logged.refl s
  · next pg _ =>
    have h1 : ∀ b : Option Nat, Logged s (match b with | none => s | some k => s.setEvt pg k e.caps) := by
      rintro (_ | k)
      · exact Logged.refl s
      · exact logged_setEvt _ _ _ _
    have h2 : ∀ t, Logged s t → Logged s (if pg.blk = .me ∧ e.code ≠ 0x0101 then t else t.bump (pg.base + oEvtCnt) e.tally) := by
      intro t ht
      split
      · exact ht
      · exact ht.trans (logged_bump _ _ _)
    have h3 := h2 _ (h1 (evtBit pg e.code e.sev))
    simp only
    split
    · exact h3
    · exact h3.trans ((logged_stepMark _ _).trans (logged_logRec _ _ _))

theorem logged_once (s : State) (key : Nat × Nat) : Logged s (s.once key).2 := by
  unfold State.once
  split
  · exact Logged.refl s
  · exact ⟨_, _, _, _, _, _, _, _, _, rfl⟩

theorem logged_raiseOnce (s : State) (e : Ev) (key : Nat) : Logged s (s.raiseOnce e key) := by
  unfold State.raiseOnce
  exact (logged_once s _).trans (logged_raise _ _)

theorem logged_raiseM (s : State) (code page low waiter detail : Nat) : Logged s (s.raiseM code page low waiter detail) :=
  logged_raise _ _

theorem logged_coreRaise (s : State) (p v code id waiter detail : Nat) (caps : List Nat) :
    Logged s (s.coreRaise p v code id waiter detail caps) := by
  unfold State.coreRaise
  have h : Logged s (match misuseReg p code with | none => s | some r => s.bump r 1) := by
    split
    · exact Logged.refl s
    · exact logged_bump _ _ _
  simp only
  split
  · exact h.trans (logged_raise _ _)
  · exact h.trans (logged_raiseOnce _ _ _)

/-! ### What `Logged` keeps -/

theorem Logged.cores {s t : State} (h : Logged s t) : t.cores = s.cores := by
  obtain ⟨_, _, _, _, _, _, _, _, _, rfl⟩ := h; rfl

theorem Logged.core {s t : State} (h : Logged s t) (p : Nat) : t.core p = s.core p := by
  unfold State.core; rw [h.cores]

theorem Logged.flights {s t : State} (h : Logged s t) : t.flights = s.flights := by
  obtain ⟨_, _, _, _, _, _, _, _, _, rfl⟩ := h; rfl

theorem Logged.mem {s t : State} (h : Logged s t) : t.mem = s.mem := by
  obtain ⟨_, _, _, _, _, _, _, _, _, rfl⟩ := h; rfl

theorem Logged.roles {s t : State} (h : Logged s t) : t.roles = s.roles := by
  obtain ⟨_, _, _, _, _, _, _, _, _, rfl⟩ := h; rfl

theorem Logged.dev {s t : State} (h : Logged s t) : t.mgmt.dev = s.mgmt.dev := by
  obtain ⟨_, _, _, _, _, _, _, _, _, rfl⟩ := h; rfl

theorem Logged.pending {s t : State} (h : Logged s t) : t.pending = s.pending := by
  obtain ⟨_, _, _, _, _, _, _, _, _, rfl⟩ := h; rfl

/-! ### The EVT bit of an event (R465) -/

theorem rget_foldl_rset (l : List (Nat × Nat)) (b o : Nat) (h : ∀ c ∈ l, b + c.1 ≠ o) (s : State) :
    (l.foldl (fun s c => s.rset (b + c.1) (wOf c.2)) s).rget o = s.rget o := by
  induction l generalizing s with
  | nil => rfl
  | cons c l ih =>
    rw [List.foldl_cons, ih (fun c hc => h c (List.mem_cons_of_mem _ hc)),
      rget_rset_ne _ _ (Ne.symm (h c (List.mem_cons_self ..)))]

theorem getLsbD_or_bit (w : Word) (k : Nat) (hk : k < 32) : (w ||| BitVec.ofNat 32 (2 ^ k)).getLsbD k = true := by
  rw [BitVec.getLsbD_or, BitVec.getLsbD_ofNat, Nat.testBit_two_pow_self]; simp [hk]

/-- No log write touches an EVT word. -/
theorem rget_logRec (s : State) (r : EvtRec) (m : Bool) {o : Nat} (ho : o % 0x1000 = oEvt) :
    (s.logRec r m).rget o = s.rget o := by
  have h1 : o ≠ Reg.logPi := by intro h; subst h; exact absurd ho (by decide)
  have h2 : o ≠ Reg.logDrop := by intro h; subst h; exact absurd ho (by decide)
  have hw : ∀ t : State, (t.logWrite r).rget o = t.rget o := by
    intro t
    exact rget_rset_ne _ _ h1
  have hh : ∀ t : State, (t.hostLogRec r).rget o = t.rget o := by
    intro t
    unfold State.hostLogRec
    dsimp only
    split
    · split
      · exact hw t
      · exact rget_rset_ne _ _ h2
    · rfl
  have hm : ∀ (t : State) (m : MgmtSt), ({ t with mgmt := m } : State).rget o = t.rget o := fun _ _ => rfl
  have hn : ∀ (t : State) (b : Prop) [Decidable b] (l : List EvtRec), (if b then
      { t with mgmt := { t.mgmt with nor := { t.mgmt.nor with log := l } } } else t).rget o = t.rget o := by
    intro t b _ l
    split <;> rfl
  unfold State.logRec
  dsimp only
  refine (hn _ _ _).trans ?_
  split
  · exact (hh _).trans (hm _ _)
  · rfl

theorem rget_stepMark (s : State) (e : Ev) (o : Nat) : (s.stepMark e).rget o = s.rget o := by
  unfold State.stepMark
  split
  · split <;> rfl
  · rfl

/-- Raising an event sets its EVT bit. -/
theorem rbit_raise {s : State} {e : Ev} {pg : Page} {k : Nat} (hp : pageAt e.page = some pg) (hk : evtBit pg e.code e.sev = some k)
    (hb : pg.base % 0x1000 = 0) (hc : ∀ c ∈ e.caps, c.1 ≠ oEvt) : (s.raise e).rbit (pg.base + oEvt) k = true := by
  have hk32 : k < 32 := by
    have := List.mem_of_find?_eq_some hk
    rw [List.mem_range] at this
    refine lt_of_lt_of_le this ?_
    unfold evtWidth; split <;> decide
  have ho : (pg.base + oEvt) % 0x1000 = oEvt := by rw [Nat.add_mod, hb]; decide
  have h1 : ∀ t : State, (t.setEvt pg k e.caps).rbit (pg.base + oEvt) k = true := by
    intro t
    unfold State.setEvt State.rbit
    dsimp only
    split
    · rw [rget_foldl_rset _ _ _ (fun c hc' => by have := hc c hc'; omega), rget_rset_self]
      exact getLsbD_or_bit _ _ hk32
    · rw [rget_rset_self]; exact getLsbD_or_bit _ _ hk32
  have h2 : ∀ t : State, (t.bump (pg.base + oEvtCnt) e.tally).rget (pg.base + oEvt) = t.rget (pg.base + oEvt) := by
    intro t
    exact rget_rset_ne _ _ (by unfold oEvt oEvtCnt; omega)
  have h3 : ∀ t : State, (t.rget (pg.base + oEvt)).getLsbD k = true →
      ((if pg.blk = .me ∧ e.code ≠ 0x0101 then t else t.bump (pg.base + oEvtCnt) e.tally).rget (pg.base + oEvt)).getLsbD k = true := by
    intro t ht
    split
    · exact ht
    · rw [h2]; exact ht
  unfold State.raise
  simp only [hp, hk]
  split
  · exact h3 _ (h1 s)
  · unfold State.rbit
    rw [rget_logRec _ _ _ ho, rget_stepMark]
    exact h3 _ (h1 s)

theorem rbit_raiseOnce {s : State} {e : Ev} {pg : Page} {k key : Nat} (hp : pageAt e.page = some pg)
    (hk : evtBit pg e.code e.sev = some k) (hb : pg.base % 0x1000 = 0) (hc : ∀ c ∈ e.caps, c.1 ≠ oEvt) :
    (s.raiseOnce e key).rbit (pg.base + oEvt) k = true := by
  unfold State.raiseOnce
  exact rbit_raise (e := { e with quiet := (s.once (e.code, key)).1 }) hp hk hb hc

/-! ### The registers an event can write (R465) -/

theorem RegsKept.trans {s t u : State} {b : Nat → Prop} (h : RegsKept s t b) (k : RegsKept t u b) : RegsKept s u b :=
  fun o ho => (k o ho).trans (h o ho)
theorem kept_rset (s : State) (o : Nat) (v : Word) {b : Nat → Prop} (h : b o) : RegsKept s (s.rset o v) b := by
  intro q hq; exact rget_rset_ne _ _ (by rintro rfl; exact hq h)
theorem kept_bump (s : State) (o n : Nat) {b : Nat → Prop} (h : b o) : RegsKept s (s.bump o n) b := kept_rset _ _ _ h

/-- A log write touches the words of the host log alone. -/
theorem kept_logRec (s : State) (r : EvtRec) (m : Bool) (page : Nat) : RegsKept s (s.logRec r m) (eventRegs page) := by
  intro o ho
  have h1 : o ≠ Reg.logPi := fun h => ho (.inr (.inl h))
  have h2 : o ≠ Reg.logDrop := fun h => ho (.inr (.inr h))
  have hw : ∀ t : State, (t.logWrite r).rget o = t.rget o := by
    intro t
    exact rget_rset_ne _ _ h1
  have hh : ∀ t : State, (t.hostLogRec r).rget o = t.rget o := by
    intro t
    unfold State.hostLogRec
    dsimp only
    split
    · split
      · exact hw t
      · exact rget_rset_ne _ _ h2
    · rfl
  have hm : ∀ (t : State) (m : MgmtSt), ({ t with mgmt := m } : State).rget o = t.rget o := fun _ _ => rfl
  have hn : ∀ (t : State) (b : Prop) [Decidable b] (l : List EvtRec), (if b then
      { t with mgmt := { t.mgmt with nor := { t.mgmt.nor with log := l } } } else t).rget o = t.rget o := by
    intro t b _ l
    split <;> rfl
  unfold State.logRec
  dsimp only
  refine (hn _ _ _).trans ?_
  split
  · exact (hh _).trans (hm _ _)
  · rfl

theorem kept_foldl (l : List (Nat × Nat)) (b page : Nat) (hb : b / 0x1000 = page / 0x1000) (h0 : b % 0x1000 = 0) (h : ∀ c ∈ l, c.1 < 0x1000) (s : State) :
    RegsKept s (l.foldl (fun s c => s.rset (b + c.1) (wOf c.2)) s) (eventRegs page) := by
  induction l generalizing s with
  | nil => intro o _; rfl
  | cons c l ih =>
    exact RegsKept.trans (kept_rset _ _ _ (.inl (by have := h c (List.mem_cons_self ..); omega))) (ih (fun c hc => h c (List.mem_cons_of_mem _ hc)) _)

theorem kept_setEvt (s : State) (pg : Page) (k : Nat) (caps : List (Nat × Nat)) (page : Nat) (hb : pg.base / 0x1000 = page / 0x1000) (h0 : pg.base % 0x1000 = 0)
   (h : ∀ c ∈ caps, c.1 < 0x1000) : RegsKept s (s.setEvt pg k caps) (eventRegs page) := by
  unfold State.setEvt
  dsimp only
  have h1 : eventRegs page (pg.base + oEvt) := .inl (by unfold oEvt; omega)
  split
  · exact RegsKept.trans (kept_rset _ _ _ h1) (kept_foldl _ _ _ hb h0 h _)
  · exact kept_rset _ _ _ h1

theorem kept_raise (s : State) (e : Ev) {pg : Page} (hp : pageAt e.page = some pg) (hb : pg.base = e.page) (h0 : e.page % 0x1000 = 0)
    (hc : ∀ c ∈ e.caps, c.1 < 0x1000) : RegsKept s (s.raise e) (eventRegs e.page) := by
  unfold State.raise
  simp only [hp]
  have h1 : ∀ b : Option Nat, RegsKept s (match b with | none => s | some k => s.setEvt pg k e.caps) (eventRegs e.page) := by
    rintro (_ | k)
    · intro o _; rfl
    · exact kept_setEvt _ _ _ _ _ (by rw [hb]) (by rw [hb]; exact h0) hc
  have h2 : ∀ t, RegsKept s t (eventRegs e.page) → RegsKept s (if pg.blk = .me ∧ e.code ≠ 0x0101 then t else t.bump (pg.base + oEvtCnt) e.tally) (eventRegs e.page) := by
    intro t ht
    split
    · exact ht
    · exact RegsKept.trans ht (kept_bump _ _ _ (.inl (by unfold oEvtCnt; omega)))
  have h3 := h2 _ (h1 (evtBit pg e.code e.sev))
  split
  · exact h3
  · refine RegsKept.trans h3 (RegsKept.trans ?_ (kept_logRec _ _ _ _))
    intro o _; exact rget_stepMark _ _ _

theorem raised_raise {s : State} {e : Ev} {pg : Page} {page k : Nat} (he : e.page = page) (hp : pageAt page = some pg) 
   (hk : evtBit pg e.code e.sev = some k) (hb : pg.base = page) (h0 : page % 0x1000 = 0) (hc : ∀ c ∈ e.caps, c.1 < 0x1000 ∧ c.1 ≠ oEvt) :
   Raised s (s.raise e) page k := by
  subst he
  exact ⟨logged_raise _ _, kept_raise _ _ hp hb h0 (fun c h => (hc c h).1), by
    have := rbit_raise (s := s) hp hk (by rw [hb]; exact h0) (fun c h => (hc c h).2)
    rw [hb] at this; exact this⟩

theorem Logged.pwr {s t : State} (h : Logged s t) : t.pwr = s.pwr := by
  obtain ⟨_, _, _, _, _, _, _, _, _, rfl⟩ := h; rfl
theorem Logged.fab {s t : State} (h : Logged s t) : t.fab = s.fab := by
  obtain ⟨_, _, _, _, _, _, _, _, _, rfl⟩ := h; rfl

/-- A page of a core's window. -/
theorem pageAt_core {p b : Nat} (hp : p < 144) (hb : b < 16) :
    pageAt (coreWin p + 0x1000 * b) = corePageAt p b (coreWin p + 0x1000 * b) := by
  unfold pageAt coreWin
  have h1 : (0x1000000 + p * 0x10000 + 0x1000 * b) / 0x1000 = 0x1000 + 16 * p + b := by omega
  have h2 : (0x1000 + 16 * p + b - 0x1000) / 16 = p := by omega
  have h3 : (0x1000 + 16 * p + b) % 16 = b := by omega
  have h4 : (0x1000 + 16 * p + b) * 0x1000 = 0x1000000 + p * 0x10000 + 0x1000 * b := by omega
  simp only [h1, h2, h3, h4, hp, if_true]
  rw [if_pos (by omega)]

end Sys2Proof.Machine
end

