-- ==== Sys2Proof/Laws/Ring.lean ====
section
/-!
SUPPORT. A command of the ring that the device takes now does what its opcode says, and completes with OK.
-/

namespace Sys2Proof.Machine

open Sys2Proof

/-- What `ringTakes` says of the entry: it is applied. -/
theorem applyNow_takes {s : State} {op : Nat} {e : RingEntry} (h : s.ringTakes op e) :
    s.applyNow op e = s.applyEntry e (s.rget Reg.pciRingCi).toNat (decide (entAt e ≠ 0 ∧ entAt e < s.stroke.jobStroke.toNat)) := by
  obtain ⟨hd, hh, ho, -, -, -⟩ := h
  unfold State.applyNow
  rw [if_pos]
  rcases hd with hd | hd | hd | hd <;> simp [hd, hh, ho]

/-- And it is not late. -/
theorem not_late {s : State} {op : Nat} {e : RingEntry} (h : s.ringTakes op e) :
    (decide (entAt e ≠ 0 ∧ entAt e < s.stroke.jobStroke.toNat) && s.strokesCount && entAt e != 0) = false := by
  obtain ⟨-, -, -, -, -, hl⟩ := h
  cases hs : s.strokesCount
  · simp
  · rcases hl hs with h | h
    · simp [h]
    · simp; intro _ h1; omega

/-- A command that is taken now is carried out. -/
theorem applyNow_eq {s : State} {op : Nat} {e : RingEntry} (h : s.ringTakes op e) : s.applyNow op e = s.carryOut e op stOk := by
  rw [applyNow_takes h]
  have hl := not_late h
  obtain ⟨-, -, ho, hf, ha, -⟩ := h
  unfold State.applyEntry
  dsimp only
  rw [hl]
  simp only [Bool.false_eq_true, if_false, hf, ha, Bool.not_true, ho]

/-- What a completion can change: the ring's written and held completions, the producer index and the notices. -/
theorem reply_only (s : State) (c : CmdRef) (phase status : Nat) (result : DWord) : ∃ regs written held out,
    s.reply c phase status result = { s with
      regs := regs, ring := { s.ring with written := written, held := held }, mgmt := { s.mgmt with out := out } } := by
  unfold State.reply State.pushCpl
  split <;> exact ⟨_, _, _, _, rfl⟩

@[simp] theorem reply_roles (s : State) (c : CmdRef) (phase status : Nat) (result : DWord) :
    (s.reply c phase status result).roles = s.roles := by
  obtain ⟨_, _, _, _, h⟩ := reply_only s c phase status result; rw [h]

@[simp] theorem reply_brn (s : State) (c : CmdRef) (phase status : Nat) (result : DWord) :
    (s.reply c phase status result).brn = s.brn := by
  obtain ⟨_, _, _, _, h⟩ := reply_only s c phase status result; rw [h]

@[simp] theorem reply_fuses (s : State) (c : CmdRef) (phase status : Nat) (result : DWord) :
    (s.reply c phase status result).fuses = s.fuses := by
  obtain ⟨_, _, _, _, h⟩ := reply_only s c phase status result; rw [h]

@[simp] theorem reply_dev (s : State) (c : CmdRef) (phase status : Nat) (result : DWord) :
    (s.reply c phase status result).mgmt.dev = s.mgmt.dev := by
  obtain ⟨_, _, _, _, h⟩ := reply_only s c phase status result; rw [h]

end Sys2Proof.Machine
end

