-- ==== Sys2Proof/WellFormed.lean ====
section
/-!
DEFINITION. Well-formed commands: operands within the widths and sizes that the manual gives them (R273, R276, R298, R441, R443, R454,
R461). Meanings are total; a command that is not well formed is one that no sender of the block can form.
-/

namespace Sys2Proof

/-- A ring entry has 64 bytes (R443). -/
def RingEntry.wf (e : RingEntry) : Bool := decide (e.raw.length = 64)

/-- The header's fields fit their widths (R298). -/
def Pkt.wf (p : Pkt) : Bool :=
  decide (p.ver < 16 ∧ p.typ < 16 ∧ p.len < 65536 ∧ p.flow < 65536 ∧ p.src < 65536 ∧ p.ofs < 2 ^ 32 ∧ p.payload.length < 65536)

def Rx.wf (r : Rx) : Bool := r.pkt.wf

/-- Places of wrong bytes lie in what is read, each named once (R275). -/
def errWf (n : Nat) (err : ReadErr) : Bool := err.all (fun e => decide (e.1 < n)) && decide (err.map (·.1)).Nodup

/-- A stroke takes time, and no more of it is delayed than it takes (R416); a producer index fits its ring (R446). -/
def BoundaryObs.wf (b : BoundaryObs) : Bool := decide (0 < b.durNs ∧ b.stretchNs ≤ b.durNs ∧ b.prodIdx < 4096)

/-- A command's operands are in range. -/
def Instr.wf : Instr → Bool
  | .jobStart e | .abort e | .setCap e | .setSetting e | .epoch e | .loadWeights e | .stage e | .unseal e | .retrain e
  | .burnishRun e | .standby e | .fwUpdate e | .svnAdvance e | .wallNote e | .commandFetchArrival e => e.wf
  | .igsumDataPacket r | .contribPacket r | .resultPacket r | .ack r | .nack r | .report r | .decision r | .vote r
  | .verdict r | .withdraw r | .reportAgain r | .hello r | .heartbeat r | .pace r | .blame r | .loadChunkPacket r => r.wf
  | .evtClear _ page _ | .evtForce _ page _ | .cntClr _ page | .lockSet _ page | .lockClear _ page => decide (page < 8192)
  | .registerLoRead _ off | .registerWrite _ off _ _ => decide (off < 0x2000000 ∧ off % 4 = 0)
  | .bar2Write off data => decide (off + data.length ≤ 0x10000000)
  | .bar2Read off len => decide (off + len ≤ 0x10000000)
  | .calendarDataSlot ch x => errWf (if ch.val < 384 then 72 else 288) x.err
  | .refreshReserveSlot _ _ _ err => errWf 72 err
  | .narrowSlot _ _ _ _ x => errWf 72 x.err
  | .getMeasurements idx _ nonce => decide (idx < 256 ∧ nonce.length = 32)
  | .challenge _ c => decide (c.kind < 256 ∧ c.nonce.length = 32)
  | .getCertificate _ off len => decide (off < 65536 ∧ len < 65536)
  | .strokeBoundary b => b.wf
  | .nop .. | .stend .. | .jobend .. | .commit .. | .slotpat .. | .loop .. | .rdspec .. | .add .. | .sub .. | .mul .. | .and ..
  | .or .. | .xor .. | .shl .. | .shr .. | .sra .. | .min .. | .max .. | .minu .. | .maxu .. | .cmp .. | .sel .. | .li ..
  | .lih .. | .lds .. | .sts .. | .pand .. | .por .. | .pxor .. | .pandn .. | .pfirst .. | .pcnt .. | .scadd .. | .scsub ..
  | .wait .. | .waitSatisfied .. | .waitTimeout .. | .signal .. | .hint .. | .mcopy .. | .ondieTransferLanding .. | .calarm ..
  | .gather .. | .scatter .. | .nsend .. | .nrecv .. | .ncoll .. | .mload .. | .mstr .. | .mstrt .. | .mdrain .. | .mew ..
  | .vadd .. | .vsub .. | .vmul .. | .vfma .. | .vmin .. | .vmax .. | .vcmp .. | .vsel .. | .vand .. | .vor .. | .vxor ..
  | .vshl .. | .vshr .. | .vsra .. | .vsgn .. | .vcvt .. | .vrnd .. | .vtr .. | .vred .. | .vcpr .. | .vxpd .. | .vcpst ..
  | .vxpld .. | .vld .. | .vst .. | .flags .. | .vstat .. | .fetchBeyondStore .. | .interlockRelease .. | .strokeEndReached
  | .stretchMaxExpiry | .stageComplete .. | .burnishTestComplete .. | .burnishDue .. | .deferMaxExpiry .. | .pauseSliceEnd ..
  | .rotationCopyComplete .. | .packImageInstall .. | .assayLimitReached | .drainComplete | .drainLimitExpiry
  | .epochDrainComplete | .epochDrainTimeout | .twinRestoreComplete .. | .loadComplete .. | .loadStallTimeout ..
  | .linkRetryRequest .. | .linkReplayTimeout .. | .resendTimeout .. | .ackTimer .. | .heartbeatTimer | .peerSilentTimeout ..
  | .collectiveDeadline .. | .backupTakeover .. | .resultSegmentTimeout .. | .voteDeadline | .verdictTakeover | .verdictResend
  | .blameTallyTimer .. | .paceResend | .paceHoldExpiry .. | .arpRequest .. | .pfcPauseFrame .. | .laneFailure ..
  | .laneFecCheck .. | .laneRetrainDone .. | .portLinkUp .. | .calendarReadDelivery .. | .migrationComplete ..
  | .pseudoChannelLoss .. | .bulkChannelFailure .. | .hbmTemperatureRead .. | .powerSample .. | .pmbusPoll ..
  | .avsbusTelemetryTimeout | .droopDetect .. | .vrAlertN .. | .stretchRelease | .slackCritical .. | .annealWindow ..
  | .annealHoldExpiry | .junctionSensorRead .. | .thermtripTimeout | .pgWarnN | .powerOnReset .. | .resetAssert .. | .perst
  | .pcieHotReset | .functionLevelReset | .sensorTimeout .. | .wakeComplete | .mctpWakeCommand | .mctpPacket .. | .getVersion
  | .getCapabilities | .negotiateAlgorithms .. | .getDigests | .pciWake .. | .pciRecoveryGo .. | .asyClr .. | .hbmPcClr ..
  | .mssWallHiWrite .. | .pwrCapWrite .. | .stkLedgerCiWrite .. | .pciCplCiWrite .. | .pciRingCfgWrite .. | .logCfgWrite ..
  | .logCiWrite .. | .memoryTrainingComplete .. | .firmwareWriteComplete | .standbyEntryComplete | .sendRateRise ..
  | .nackBackoffExpiry .. | .fillerResidueMismatch .. | .jtagTck .. | .replayRecordArrival .. | .storedChunkRead .. => true

end Sys2Proof
end

