-- ==== Sys2Proof/Tests/Slice0.lean ====
section
/-!
SUPPORT. Own tests: for the statements with hypotheses, states and operands that meet them; ill-formed commands and the check that
refuses them; words written out from the field maps.
-/

namespace Sys2Proof.Tests
open Sys2Proof Sys2Proof.Machine
set_option Elab.async false

/-- A core that holds a position: its streams own slots and run. -/
def core1 : Core := { core0 with slots := 0xE4E4 }

/-- A device in RUN whose job runs on core `c` at position 0. -/
def liveWith (c : Core) : State := { State.reset with
  mgmt := { MgmtSt.reset with dev := .run, bootStage := 6 }
  roles := [(0, ⟨.active, 0, false⟩)]
  cores := [(0, c)]
  job := { JobSt.reset with present := true, grid := (1, 1) } }
def live : State := liveWith core1
def iss : Iss := ⟨0, .f, none, 0, 0, 0⟩

/-- Core 1 with a scalar of stream F. -/
def withS (n : Nat) (v : DWord) : Core := { core1 with f := core1.f.setS n v }

/-- Witness for ScalarResults. -/
theorem test_scalar : live.canIssue iss (.add ⟨3, 1, 2, 0, 5⟩) 0 = true ∧
    (scalarEffect (live.streamOf iss 0) (.add ⟨3, 1, 2, 0, 5⟩)).isSome = true ∧
    live.canIssue iss (.pfirst ⟨1, 0, 0, 0, 0, 3⟩) 0 = true ∧
    (predicateEffect (live.streamOf iss 0) (.pfirst ⟨1, 0, 0, 0, 0, 3⟩)).isSome = true := by decide +kernel

def inLoop (iter : Nat) : State := liveWith { core1 with f := { core1.f with pc := 7, loops := [⟨3, 7, 4, iter, 1⟩] } }
/-- Witness for ControlResults. -/
theorem test_control : live.canIssue iss (.loop ⟨1, 10, 3⟩) 0 = true ∧
    (controlEffect (live.core 0) .f (.loop ⟨1, 10, 3⟩)).isSome = true ∧
    (inLoop 2).canIssue iss .nop 0 = true ∧ ((inLoop 2).streamOf iss 0).loops = [⟨3, 7, 4, 2, 1⟩] ∧
    ((inLoop 3).streamOf iss 0).pc.toNat = 7 ∧ (inLoop 3).canIssue iss .nop 0 = true := by decide +kernel

/-- Witness for SpecValues. -/
theorem test_rdspec : live.canIssue iss (.rdspec ⟨3, 0, 5⟩) 0 = true := by decide +kernel

/-- Witness for ScalarMemory, its first two clauses. -/
theorem test_memory_plain : live.canIssue iss (.lds ⟨3, 0, 8⟩) 0 = true ∧ live.canIssue iss (.sts ⟨3, 0, 8⟩) 0 = true ∧
    cmOk (live.ctxOf 0 0) 8 8 true 8 = true ∧ (∀ g ∈ granules (refOff 8) 8, regionOf (live.ctxOf 0 0) g = none) := by decide +kernel
/-- Witness for ScalarMemory, its last clause. -/
theorem test_memory_bad : live.canIssue iss (.lds ⟨3, 0, 4⟩) 0 = true ∧ live.canIssue iss (.sts ⟨3, 0, 4⟩) 0 = true ∧
    cmOk (live.ctxOf 0 0) 4 8 true 8 = false := by decide +kernel

def full : State := liveWith { core1 with ctr := [(5, 0xFFFFFFFF)] }
/-- Witness for CounterUpdates, each clause at its boundary. -/
theorem test_counters : live.canIssue iss (.scadd ⟨5, 0, true, 0xFFFFFF, 0⟩) 0 = true ∧
    full.canIssue iss (.scsub ⟨5, 0, true, 0xFFFFFF, 0⟩) 0 = true ∧ full.canIssue iss (.scadd ⟨5, 0, true, 1, 0⟩) 0 = true ∧
    live.canIssue iss (.scsub ⟨5, 0, true, 1, 0⟩) 0 = true ∧
    0xFFFFFFFF < (tget 0 (full.core 0).ctr 5).toNat + (syncOperand (full.streamOf iss 0) true 1).toNat := by decide +kernel

def waits (cond : Nat) (v : Word) : State := liveWith { core1 with
  ctr := [(5, v)], f := { core1.f with phase := .waiting ⟨5, cond, 3, 1⟩ } }
/-- Witness for WaitResults. -/
theorem test_wait : live.canIssue iss (.wait ⟨5, 2, true, 3, 1⟩) 0 = true ∧ (waits 2 3).holder 0 = some 0 ∧
    ((waits 2 3).core 0).f.phase = .waiting ⟨5, 2, 3, 1⟩ ∧ tget 0 ((waits 2 3).core 0).ctr 5 = 3 ∧
    ((waits 2 3).core 0).b.phase = .run ∧ tget 0 ((waits 0 2).core 0).ctr 5 = 2 := by decide +kernel

def beyond : State := liveWith { core1 with f := { core1.f with pc := 16384 } }
/-- Two consuming waits on counter 5: F takes 3 and B takes 2. -/
def twoWaits (n : Word) : State := liveWith { core1 with
  ctr := [(5, n)], f := { core1.f with phase := .waiting ⟨5, 2, 3, 1⟩ }, b := { core1.b with phase := .waiting ⟨5, 2, 2, 1⟩ } }
/-- Witness for ConsumingWaits, each clause at its boundary: B is behind F at 3, F does not hold at 2, and B does. -/
theorem test_two_waits : (twoWaits 3).holder 0 = some 0 ∧ ((twoWaits 3).core 0).b.phase = .waiting ⟨5, 2, 2, 1⟩ ∧
    ((twoWaits 3).core 0).f.phase = .waiting ⟨5, 2, 3, 1⟩ ∧ tget 0 ((twoWaits 3).core 0).ctr 5 = 3 ∧
    tget 0 ((twoWaits 2).core 0).ctr 5 = 2 ∧ .f ∈ before .b := by decide +kernel

/-- Witness for StreamHalts. -/
theorem test_halt : beyond.holder 0 = some 0 ∧ beyond.issuing 0 = true ∧ ownsSlot (beyond.core 0) .f = true ∧
    ((beyond.core 0).stream .f).phase = .run ∧ 16384 ≤ ((beyond.core 0).stream .f).pc.toNat := by decide +kernel


/-! ### Interlocks, synchronization, movement, the network -/

/-- A one-granule HANDOFF region at offset 0 with one reader; its granule as `q`, and instructions that are held. -/
def handoff (q : Gran) (held : List Issue) : State :=
  { liveWith { core1 with gran := if q = gran0 then [] else [(0, q)], held := held, seq := held.length } with
    regs := [(Reg.cmbRgnCtl 0 0, BitVec.ofNat 32 (2 + 2 ^ 19 + 2 ^ 21))] }
/-- Witness for HandoffAccess, its first clause. -/
theorem test_handoff : cmOk ((handoff gran0 []).ctxOf 0 0) 56 8 true 8 = true ∧
    (regionOf ((handoff gran0 []).ctxOf 0 0) 0).isSome = true ∧
    (handoff gran0 []).canIssue iss (.sts ⟨3, 0, 56⟩) 0 = true ∧ (handoff gran0 []).canIssue iss (.lds ⟨3, 0, 56⟩) 0 = true ∧
    (handoff ⟨true, 0, 1⟩ []).canIssue iss (.sts ⟨3, 0, 56⟩) 0 = true ∧
    (handoff ⟨true, 0, 1⟩ []).canIssue iss (.lds ⟨3, 0, 56⟩) 0 = true ∧
    (tget gran0 ((handoff ⟨true, 0, 1⟩ []).core 0).gran 0).v = true := by decide +kernel

/-- A store that stream F has been held with. -/
def heldSts : Issue := ⟨.f, .sts ⟨3, 0, 56⟩, 0, 0, 0, [(3, 7)], [], [], prog0⟩
/-- Witness for HandoffAccess, its last clause. -/
theorem test_release : (handoff gran0 [heldSts]).holder 0 = some 0 ∧ ((handoff gran0 [heldSts]).core 0).held[0]? = some heldSts ∧
    (∀ j ∈ ((handoff gran0 [heldSts]).core 0).held, j.seq = heldSts.seq ∨ heldSts.seq < j.seq) ∧
    ((regionOf ((handoff gran0 [heldSts]).ctxOf 0 0) 0).map (·.last)) = some 1 := by decide +kernel

/-- Witness for SignalHintStatFlags. -/
theorem test_signal : live.canIssue iss (.signal ⟨5, 0, 0, true, 1⟩) 0 = true ∧ live.job.grid = (1, 1) ∧
    live.canIssue iss (.signal ⟨5, 1, 0, true, 1⟩) 0 = true ∧ live.canIssue iss (.hint ⟨6, 200⟩) 0 = true ∧
    live.canIssue iss (.vstat ⟨0, 3⟩) 0 = true ∧ live.canIssue iss (.vstat ⟨1, 3⟩) 0 = true ∧
    live.canIssue iss (.flags ⟨3, 0xFF⟩) 0 = true ∧ (live.streamOf iss 0).lateFlags = [] := by decide +kernel

/-- Witness for CopySends: the accesses. -/
theorem test_plain : cmOk (live.ctxOf 0 0) 0 512 true 64 = true ∧
    (∀ g ∈ granules (refOff 0) 512, regionOf (live.ctxOf 0 0) g = none) := by decide +kernel

/-- Witness for CopySends. -/
theorem test_mcopy : live.canIssue iss (.mcopy ⟨0, 0, 1, 2, true, true, 1⟩) 0 = true ∧
    cmOk (live.ctxOf 0 0) 0 64 false 64 = true ∧ tget 0 (live.core 0).ctr 1 ≠ 0xFFFFFFFF := by decide +kernel

/-- Witness for CopySends: a copy that reaches into its own source. -/
theorem test_mcopy_inside : (liveWith (withS 3 (2 ^ 32 + 64))).canIssue iss (.mcopy ⟨0, 3, 1, 2, true, true, 2⟩) 0 = true ∧
    refSelf (2 ^ 32 + 64) = true ∧ refOff 0 < refOff (2 ^ 32 + 64) ∧ refOff (2 ^ 32 + 64) < refOff 0 + 128 ∧
    cmOk ((liveWith (withS 3 (2 ^ 32 + 64))).ctxOf 0 0) (2 ^ 32 + 64) 128 false 64 = true := by decide +kernel

def tickets : State := { live with mem := { MemSt.reset with ticketDefs := [(3, some ⟨false, false, 0, 2⟩)] } }
/-- Witness for TicketArmed. -/
theorem test_calarm : tickets.canIssue iss (.calarm ⟨0, 0, 0, 2, false, true, 3⟩) 0 = true ∧
    tget none (tickets.core 0).tickets 3 = none ∧ tickets.ticketDef 0 3 = some ⟨false, false, 0, 2⟩ ∧ tickets.movedAll 0 3 < 2 ∧
    (tickets.core 0).landing = [] := by decide +kernel

def narrow : State := { live with mem := { MemSt.reset with narrowDefs := [(1, some ⟨0, 2, 10⟩)] } }
/-- Witness for NarrowRequests. -/
theorem test_narrow : narrow.canIssue iss (.gather ⟨0, 0, 1, 2, true, true, 4096 + 2⟩) 0 = true ∧
    narrow.canIssue iss (.scatter ⟨0, 0, 1, 2, true, true, 4096 + 2⟩) 0 = true ∧
    narrowRows ⟨0, 0, 1, 2, true, true, 4096 + 2⟩ ≠ 0 := by decide +kernel

/-- Core memory with some bytes, and the tables of the fabric, on the device in RUN. -/
def liveMem (cm table : List Host.Cell) : State :=
  { liveWith { core1 with cm := cm } with fab := { FabSt.reset with table := table } }

/-- The IGS table: flow 3 to member 1 on traffic class 0, and collective 7: two shards, one segment of one granule, its root at member 1. -/
def igsTable : List Host.Cell :=
  setBytes (setBytes (setBytes [] (igsFlowTab + 64 * 3) [1, 0, 0, 1, 9, 0])
    igsCollTab [7, 0, 0, 0, 0, 0, 0, 0, 2, 0, 0, 0, 1, 0, 0, 0, 0, 0, 0, 0, 1, 0, 0, 0, 1, 0, 0, 0, 1, 0, 0, 0, 0, 0, 0xA])
    0xA0000 [1, 0, 0, 0, 2]
/-- Witness for SendAndReceive. -/
theorem test_nsend : (liveMem [(1, 2)] igsTable).canIssue iss (.nsend ⟨1, 0, 1, 0, true, false, 1⟩) 0 = true ∧
    sendOk ((liveMem [(1, 2)] igsTable).bytesOf 0 0 64) = true ∧
    (liveMem [(1, 2)] igsTable).canIssue iss (.nrecv ⟨1, 0, 0, 2, false, true, 1⟩) 0 = true ∧
    recvOk ((liveMem [(1, 2)] igsTable).bytesOf 0 0 64) = true ∧ ((liveMem [(1, 2)] igsTable).flow 512).waiting = [] := by decide +kernel

def collLive : State := { liveMem [(0, 7)] igsTable with regs := [(Reg.numMode, 0x100)] }
/-- Witness for Contribution. -/
theorem test_ncoll : collLive.canIssue iss (.ncoll ⟨1, 0, 1, 2, true, true, 1⟩) 0 = true ∧
    collDscOk (collLive.bytesOf 0 0 64) = true ∧
    (collLive.collCfg 7).map (fun c => (c.lenG, c.stages, c.normEn, c.n, c.segs, collLive.rootMember c 1 0 0)) =
      some (1, 1, false, 2, 1, 1) ∧
    collLive.member = 0 ∧ collLive.rbit Reg.numMode 8 = true ∧ collLive.stp.broken = none ∧ collLive.fab.colls = [] := by decide +kernel

/-! ### Engines and vectors -/

/-- A core whose engine 0 holds a stationary tile of one BF16 element and one FP32 accumulator tile. -/
def engCore : Core := { core1 with
  eng := [(0, { engine0 with tag := some .bf16, mx := false, pieces := 0, k := 1, n := 1, elems := [(0, 0x3F80)], tileFmt := [(0, .fp32)] })]
  f := (core1.f.setS 1 0x100000001).setS 2 0x100000000 }
def engLive : State := liveWith engCore
/-- Witness for StationaryLoad and StreamedProducts: the operands. -/
theorem test_mload : live.canIssue iss (.mload ⟨0, 0, 0, 0, 2, false, 0, 0, 0⟩) 0 = true ∧
    cmOk (live.ctxOf 0 0) (rowRef 0 0 0) 2 true (alignOf .bf16) = true ∧
    (∀ g ∈ granules (refOff (rowRef 0 0 0)) 2, regionOf (live.ctxOf 0 0) g = none) := by decide +kernel
/-- Witness for StreamedProducts. -/
theorem test_mstr : engLive.canIssue iss (.mstr ⟨0, 0, 0, 0, 2, false, 2, false, 0, true, 0, 0, 0⟩) 0 = true ∧
    engLive.canIssue iss (.mstrt ⟨0, 0, 0, 0, 2, false, 2, false, 0, true, 0, 0, 0⟩) 0 = true ∧
    ((engLive.core 0).engine 0).tag = some (formatOf 2) ∧ ((engLive.core 0).engine 0).k = 1 ∧
    ((engLive.core 0).engine 0).n = 1 ∧ ((engLive.core 0).engine 0).mx = false ∧ ((engLive.core 0).engine 0).pieces = 0 := by decide +kernel
/-- Witness for DrainedRows. -/
theorem test_mdrain : engLive.canIssue iss (.mdrain ⟨0, 2, 0, 1, 0, 0, 0, 2, false, 0, false, false, 0⟩) 0 = true ∧
    tileAdmits (tget .none ((engLive.core 0).engine 0).tileFmt 0) (formatOf 2) = true := by decide +kernel
/-- Witness for ElementProducts. -/
theorem test_mew : (liveWith (withS 3 0x1000)).canIssue iss (.mew ⟨0, 0, 0, 3, 2, 2, 15, ⟩) 0 = true ∧
    cmOk ((liveWith (withS 3 0x1000)).ctxOf 0 0) 0x1000 64 true 64 = true ∧
    (∀ k, within 0x1000 64 k → ¬ within 0 32 k) := by
  refine ⟨by decide, by decide, ?_⟩
  intro k h h'; unfold within at h h'; omega

/-- Witness for VectorLanes and VectorResults. -/
theorem test_vector : live.canIssue iss (.vadd ⟨1, 2, 3, 0, 0, false, 0, 1, false, 0, 0⟩) 0 = true ∧
    (laneJob live iss 0 (.vadd ⟨1, 2, 3, 0, 0, false, 0, 1, false, 0, 0⟩)).isSome = true ∧
    live.canIssue iss (.vcmp ⟨1, 2, 3, 0, 0, true, 0, 0, false, 0, 0⟩) 0 = true ∧
    live.canIssue iss (.vred ⟨0, 2, 0, 0, 0, false, 0, 0, false, 3, 0⟩) 0 = true ∧
    live.canIssue iss (.vcpr ⟨1, 2, 0, 0, 0, false, 0, 0, false, 3, 0⟩) 0 = true := by decide +kernel
/-- Witness for VectorMemory. -/
theorem test_vmem : live.canIssue iss (.vld ⟨1, 0, 2, 0, false, 0, 1, 0, false, false, false, 0, 0, 0⟩) 0 = true ∧
    live.canIssue iss (.vst ⟨1, 0, 2, 0, false, 0, 1, 0, false, false, false, 0, 0, 0⟩) 0 = true ∧
    (liveWith (withS 3 0x1000)).canIssue iss (.vst ⟨2, 0, 4, 0, false, 1, 0, 0, false, false, true, 3, 0, 0⟩) 0 = true := by decide +kernel
/-- Witness for CompressBuffer. -/
theorem test_buffer : (liveWith (withS 2 8)).canIssue iss (.vcpst ⟨1, 0, 3, 2, 4, 0, 0, 0⟩) 0 = true ∧
    (liveWith (withS 2 8)).canIssue iss (.vxpld ⟨1, 0, 3, 2, 4, 0, 0, 0⟩) 0 = true ∧
    cmOk ((liveWith (withS 2 8)).ctxOf 0 0) 0 32 true 64 = true := by decide +kernel

def flying (items : List Item) : State := { live with flights := [⟨0, 0, 1, .f, 0x60, items⟩] }
/-- Witness for FlightLands. -/
theorem test_flight : (flying [.granule 64 [1]]).mayLand 0 ⟨0, 0, 1, .f, 0x60, [.granule 64 [1]]⟩ = true ∧
    (flying [.counter 5 1]).mayLand 0 ⟨0, 0, 1, .f, 0x60, [.counter 5 1]⟩ = true ∧ live.holder 0 = some 0 ∧ live.stroke.hold = .no ∧
    granules 0 64 = [0] := by decide +kernel

/-! ### Strokes, steps, epochs -/

def strokeRegs (w : Word) : State := { live with regs := [(Reg.stkStrokeCfg, w)] }
/-- Witness for StrokesEnd: late streams. -/
theorem test_late : live.clockRuns = true ∧ live.lateStreams ≠ [] ∧ live.stroke.hold = .no ∧
    (strokeRegs 0x10112).rbit Reg.stkStrokeCfg 8 = true ∧ (strokeRegs 0x10112).rfield Reg.stkStrokeCfg 16 8 ≠ 0 ∧
    (strokeRegs 0x10012).rbit Reg.stkStrokeCfg 8 = false ∧ (strokeRegs 0x10112).lateStreams ≠ [] := by decide +kernel
/-- Witness for StrokesEnd: the plain boundary. -/
theorem test_may_fall : ({ live with roles := [], cores := [] } : State).mayFall = true := by decide +kernel

def assayJob : State := { live with job := { live.job with assay := true, assayLimit := 0 } }
def draining : State := { live with mgmt := { live.mgmt with dev := .drain } }
/-- Witness for DrainsEnd. -/
theorem test_drains : assayJob.assayOver = true ∧ assayJob.mgmt.dev = .run ∧ draining.mgmt.dev = .drain ∧
    draining.drainOpen = false ∧ draining.stroke.hold = .no ∧ draining.stroke.drained = false := by decide +kernel

def refs0 : HostRefs := ⟨[], [], ImageInfo.empty, [], [], [], [], [], [], [], [], []⟩
def obs0 : BoundaryObs := ⟨0, 0, 0, 0, 1, 0, 0, [], []⟩
def heldAt (h : HoldAt) : State := { live with stroke := { live.stroke with hold := h, obs := some obs0 } }
def restoring (x : Option (Nat × Nat × Nat)) : State := { heldAt .restore with epoch := { EpochSt.reset with restoring := x } }
/-- Witness for EpochChanges: restoring. -/
theorem test_twins : (restoring (some (0, 1, 2))).stroke.hold = .restore ∧ (restoring none).epoch.restoring = none ∧
    (restoring (some (0, 1, 2))).stroke.obs = some obs0 ∧ (restoring (some (0, 1, 2))).epoch.restoring = some (0, 1, 2) ∧
    ((restoring (some (0, 1, 2))).putRestored 0).stateDigest ≠ [] ∧ (restoring (some (1, 1, 2))).epoch.restoring = some (1, 1, 2) ∧
    ((restoring (some (1, 1, 2))).putRestored 1).stateDigest ≠ [] := by decide +kernel

def voting : State := { live with stp := { StepSt.reset with votes := [⟨0, 0, 0, 3, false, 0, 0⟩], votedStep := some 0 } }
/-- Witness for StepsClose. -/
theorem test_verdicts : voting.job.present = true ∧ voting.stp.verdict = none ∧ voting.member = voting.job.params.coord ∧
    voting.member = voting.job.params.backup ∧ voting.stp.votes ≠ [] ∧ voting.stp.votedStep = some voting.stroke.step ∧
    voting.job.params.replay = false := by decide +kernel

/-! ### The command ring -/

/-- A ring entry of an opcode with bytes from 16 up, tag 5, as soon as it is fetched. -/
def entry (op : Nat) (ps : List Byte) (r : HostRefs) : RingEntry :=
  ⟨leBytes 2 op ++ [0, 0, 5, 0, 0, 0] ++ List.replicate 8 0 ++ ps ++ List.replicate (48 - ps.length) 0, r⟩
def ready : State := { State.reset with mgmt := { MgmtSt.reset with dev := .ready, bootStage := 6 } }
/-- Witness for RingCommands: a well-formed entry. -/
theorem test_entry : (entry 3 [0x4C, 4] refs0).wf = true ∧ entFault (entry 3 [0x4C, 4] refs0) = none ∧ entAt (entry 3 [0x4C, 4] refs0) = 0 ∧
    ready.accepts (entry 3 [0x4C, 4] refs0) = true ∧ blk (entry 3 [0x4C, 4] refs0).raw 16 2 = 1100 ∧
    blk (entry 3 [0xF0, 0xA] refs0).raw 16 2 = 2800 ∧
    blk (entry 3 [0x4B, 4] refs0).raw 16 2 < 1100 ∧ 2800 < blk (entry 3 [0xF1, 0xA] refs0).raw 16 2 := by decide +kernel

/-- A setting of NUM_MODE's page that may be changed. -/
def setPage : Nat := (settable.getD 0 (0, 0, 0)).2.1
def setOff : Nat := (settable.getD 0 (0, 0, 0)).2.2
def setEntry : RingEntry := entry 4 (List.replicate 8 0 ++ leBytes 4 setPage ++ leBytes 4 setOff ++ [1, 0, 0, 0]) refs0
def epochRefs : HostRefs := { refs0 with block := [1, 0, 0, 0, 1] }
/-- Witness for RingCommands in RUN. -/
theorem test_ring_run : live.accepts setEntry = true ∧ entFault setEntry = none ∧
    (settable.find? (fun x => x.2.1 == blk setEntry.raw 24 4 && x.2.2 == blk setEntry.raw 28 4)).isSome = true ∧
    live.accepts (entry 5 [] epochRefs) = true ∧ BitVec.ofNat 32 (blk epochRefs.block 0 4) = live.epoch.cur + 1 ∧
    live.epoch.req = none ∧ blk epochRefs.block 4 1 < 2 ∧ numModeOk (BitVec.ofNat 32 (blk epochRefs.settings 0 4)) = true := by
  decide +kernel

def stackOut : State := { ready with mem := { MemSt.reset with stks := [(3, ⟨94, 3, 3, true, true, false⟩)] } }
def packed : State := { ready with brn := { BrnSt.reset with packs := ⟨1, [⟨0, 0, 4, []⟩], []⟩ } }
/-- Witness for RingCommands in READY. -/
theorem test_ring_ready : (∀ op ∈ [8, 11, 13, 14], ready.accepts (entry op [] refs0) = true ∧ entFault (entry op [] refs0) = none) ∧
    stackOut.accepts (entry 9 [3] refs0) = true ∧ entFault (entry 9 [3] refs0) = none ∧ (stackOut.stk 3).out = true ∧
    (stackOut.stk 3).temp.toNat < 95 ∧ packed.accepts (entry 10 [143, 0] refs0) = true ∧
    entFault (entry 10 [143, 0] refs0) = none ∧ (packed.roleOf 143).role = .spare ∧
    blk (entry 10 [143, 0] refs0).raw 17 1 < packed.brn.packs.packs.length ∧
    ready.accepts (entry 12 (List.replicate 12 0) refs0) = true ∧ entFault (entry 12 (List.replicate 12 0) refs0) = none := by decide +kernel

/-- Witness for RingCommands: rejections. -/
theorem test_rejects : entFault (entry 8 [1] refs0) = some 16 ∧ entFault (entry 5 [] epochRefs) = none ∧
    ready.accepts (entry 5 [] epochRefs) = false := by decide +kernel
def ringOn (pi : Word) : State := { ready with regs := [(Reg.pciRingCfg, 0x10), (Reg.pciCplPi, pi)] }
/-- Witness for RingCompletions. -/
theorem test_completions : (ringOn 0).cplRoom = true ∧ (ringOn 0).ring.held = [] ∧ ready.cplRoom = false := by decide +kernel

def jobRunning : State := { live with job := { live.job with cmd := some ⟨7, 1⟩ } }
/-- Witness for RepeatedAborts: an unknown operation, and one aborted before. -/
theorem test_repeated_abort : ready.accepts (entry 2 [7, 0, 0, 0] refs0) = true ∧ entFault (entry 2 [7, 0, 0, 0] refs0) = none ∧
    ready.job.cmd = none ∧ ready.load.loads = [] ∧ ready.ring.stages = [] ∧ ready.brn.tests = [] ∧ ready.ring.ended = [] ∧
    (⟨⟨7, 1⟩, stAborted, 0, true, true⟩ : EndedOp).aborted = true ∧ blk (entry 2 [7, 0, 0, 0] refs0).raw 16 4 = 7 := by decide +kernel

/-- Witness for JobsStartAndAbort: ABORT. -/
theorem test_abort : jobRunning.accepts (entry 2 [7, 0, 0, 0] refs0) = true ∧ entFault (entry 2 [7, 0, 0, 0] refs0) = none ∧
    BitVec.ofNat 32 (blk (entry 2 [7, 0, 0, 0] refs0).raw 16 4) = 7 ∧ jobRunning.brn.replPending = false := by decide +kernel

def fetching : State := { ringOn 0 with ring := { RingSt.reset with prodIdx := 1, asked := 1 } }
def stageEntry (dir : Byte) : RingEntry := entry 7 ([dir, 0, 0, 0] ++ leBytes 4 0x02 ++ leBytes 8 64 ++ leBytes 8 0 ++ leBytes 8 16) refs0
/-- Witness for FetchStageFirmware. -/
theorem test_stage : fetching.mayFetch = true ∧ ready.accepts (stageEntry 0) = true ∧ entFault (stageEntry 1) = none ∧
    ready.extent (selTarget (BitVec.ofNat 32 (blk (stageEntry 0).raw 20 4))) ≠ 0 ∧
    ready.windowCore (selCore (BitVec.ofNat 32 (blk (stageEntry 0).raw 20 4))) = true ∧
    ready.sealedSpan (selTarget (BitVec.ofNat 32 (blk (stageEntry 1).raw 20 4))) 64 16 = false := by decide +kernel

/-! ### Burnish -/

def testing (kind : TestKind) (boot : Bool) : State := { packed with brn := { packed.brn with tests := [⟨143, kind, some 0, none, boot, [⟨0, 0, 4, []⟩], none⟩] } }
def packTest : TestRun := ⟨143, .full, some 0, none, false, [⟨0, 0, 4, []⟩], none⟩
/-- Witness for BurnishSchedule and BurnishTests. -/
theorem test_burnish : (ready.roleOf 143).role = .spare ∧ 143 ∉ ready.brn.due ∧
    (testing .full false).testOf 143 = some packTest ∧ (testing .full false).mgmt.dev ≠ .boot ∧ packTest.packs = [0] ∧
    packPass packTest.set ⟨0, [], false, ⟨3, 3, 3, 3⟩, []⟩ = true ∧ packPass packTest.set ⟨0, [], true, ⟨3, 3, 3, 3⟩, []⟩ = false := by decide +kernel

/-! ### Packets and the fabric -/

/-- A READY device whose port 0 is up, with flow 3 to member 1. -/
def fabric (x : FlowSt) : State := { live with fab := { FabSt.reset with
  ports := [(0, { port0 with up := true, llr := true })], flows := if x = flow0 then [] else [(3, x)], table := igsTable } }
/-- A frame with a packet's CRC and the headers that take it to this device. -/
def framed (p : Pkt) : Rx :=
  let q : Pkt := { p with crc := pktCrc p }
  let body := pktBytes q
  ⟨0, 0, true, live.etherHeader 0 0 ++ live.ipHeader live.ownIp 3 0 0 (8 + body.length) ++ live.udpHeader live.ownIp 3 0 body, q⟩
/-- A sound packet of flow 3: its type and payload, the step's collective 7. -/
def packet (typ : Nat) (flags : BitVec 8) (bytes : List Byte) : Rx :=
  framed { ver := 1, typ := typ, flags := flags, len := bytes.length, flow := 3, src := 1, epoch := 0, hmf := hmfOf [],
           seq := 0, coll := 7, tree := 0, ofs := 0, step := 0, crc := 0, payload := bytes }
def kept (resends : Nat) (backoff : Bool) (typ : Nat) : Retained := ⟨(packet typ 4 []).pkt, 0, resends, 0, backoff⟩

/-- What `delivers` and `nextWhole` ask, but for the type's own part. -/
def goodFrame (s : State) (r : Rx) : Bool :=
  (s.port r.port).up && !(s.port r.port).keepalive && r.fcsOk && s.headersOk r && r.pkt.ver == 1 && r.pkt.len == r.pkt.payload.length &&
  decide (r.pkt.flow < 4096) && (s.ctx r.pkt.flow).valid && r.pkt.crc == pktCrc r.pkt && r.pkt.epoch == s.epoch.cur &&
  r.pkt.hmf == hmfOf s.fab.hallmark && !(s.flow r.pkt.flow).refused && s.stroke.hold == .no
def nextGood (s : State) (r : Rx) : Bool :=
  let x := s.flow r.pkt.flow
  r.pkt.seq == x.rxNext && x.rxGot.isEmpty && x.rxq.isEmpty && decide (x.sinceAck < 15) && r.pkt.flags.getLsbD 2 && !r.pkt.payload.isEmpty
theorem goodFrame_delivers (s : State) (r : Rx) (h : goodFrame s r = true) : s.delivers r := by
  simp only [goodFrame, Bool.and_eq_true, beq_iff_eq, Bool.not_eq_true', decide_eq_true_eq] at h
  obtain ⟨⟨⟨⟨⟨⟨⟨⟨⟨⟨⟨⟨a, b⟩, c⟩, d⟩, e⟩, f⟩, g⟩, i⟩, j⟩, k⟩, l⟩, m⟩, n⟩ := h
  exact ⟨a, fun q => absurd q (by simp [b]), c, d, e, f, g, i, j, k, fun _ => ⟨l, m⟩, n⟩
theorem nextGood_nextWhole (s : State) (r : Rx) (h : nextGood s r = true) : s.nextWhole r := by
  simp only [nextGood, Bool.and_eq_true, beq_iff_eq, Bool.not_eq_true', decide_eq_true_eq, List.isEmpty_iff] at h
  obtain ⟨⟨⟨⟨⟨a, b⟩, c⟩, d⟩, e⟩, f⟩ := h
  exact ⟨a, b, c, d, e, fun q => by simp [q] at f⟩

/-- Witness for PlainPackets. -/
theorem test_plain_packets : (∀ typ ∈ [3, 4, 6, 7, 8, 9], goodFrame (fabric flow0) (packet typ 4 []) = true) ∧
    goodFrame (fabric flow0) (packet 3 0x10 []) = true ∧ (packet 6 4 []).pkt.payload.take 32 = (fabric flow0).fab.hallmark ∧
    (packet 6 4 [1]).pkt.payload.take 32 ≠ (fabric flow0).fab.hallmark ∧
    (({ flow0 with retained := [kept 2 false 0] } : FlowSt).retained.find?
      (fun z => z.pkt.seq == BitVec.ofNat 32 (payNum (packet 4 4 []).pkt 0 4))).isSome = true ∧
    goodFrame (fabric { flow0 with retained := [kept 2 false 0] }) (packet 4 4 [0, 0, 0, 0, 4]) = true ∧
    (fabric flow0).member = (fabric flow0).job.params.coord := by decide +kernel

/-- Witness for SequencedPackets. -/
theorem test_sequenced : (∀ typ ∈ [0, 1, 2], goodFrame (fabric flow0) (packet typ 4 [1, 2]) = true ∧
      nextGood (fabric flow0) (packet typ 4 [1, 2]) = true) ∧
    (∀ kind ∈ [1, 2, 3, 4, 5, 6], goodFrame (fabric flow0) (packet 5 4 [kind]) = true ∧
      nextGood (fabric flow0) (packet 5 4 [kind]) = true) ∧
    payNum (packet 5 4 [5]).pkt 32 4 ≠ ({ fabric flow0 with
      job := { live.job with params := { JobParams.none with replicas := [(0, 9)] } } } : State).replica ∧
    ((fabric flow0).collCfg 7).map (fun c => (c.segG, c.n)) = some (1, 2) ∧
    (packet 5 4 [2]).pkt.tree.toNat / 2 ^ 20 % 2 ^ 5 ≠ 31 ∧
    (fabric flow0).loadOfPkt (packet 0 4 [1, 2]).pkt = none ∧ (fabric flow0).bufUsed + 2 ≤ flowBuffer := by decide +kernel

/-- Witness for RefusedPackets. -/
theorem test_refused : ((fabric flow0).port 0).up = true ∧ ((fabric flow0).port 0).keepalive = false ∧
    (fabric flow0).stroke.hold = .no ∧ (packet 1 4 []).pkt.typ ≠ 0 ∧
    ({ (packet 1 4 []).pkt with crc := 0 } : Pkt).crc ≠ pktCrc { (packet 1 4 []).pkt with crc := 0 } ∧
    (fabric flow0).headersOk (packet 1 4 []) = true ∧ (fabric flow0).headersOk { packet 1 4 [] with hdr := [] } = false ∧
    (fabric flow0).carriesCe (packet 1 4 []) = false ∧ ((fabric flow0).ctx 4).valid = false ∧ ((fabric flow0).ctx 3).valid = true ∧
    ({ fabric flow0 with epoch := { EpochSt.reset with cur := 1 } } : State).draining (packet 1 4 []).pkt = false := by decide +kernel

def retaining (z : Retained) : State := fabric { flow0 with retained := [z] }
/-- Witness for Resends. -/
theorem test_resends : (retaining (kept 2 false 0)).retainedAt 3 0 = some (kept 2 false 0) ∧
    (retaining (kept 0 true 0)).retainedAt 3 0 = some (kept 0 true 0) ∧
    (retaining (kept 3 false 0)).retainedAt 3 0 = some (kept 3 false 0) ∧
    ({ retaining (kept 3 false 0) with job := JobSt.reset } : State).job.present = false := by decide +kernel
def oldFrame : SentFrame := ⟨0, 5, (packet 0 4 []).hdr, (packet 0 4 []).pkt⟩
def sentOn : State := { fabric flow0 with fab := { (fabric flow0).fab with sent := [oldFrame], ports := [(0, { port0 with up := true, llr := true, txCount := 6 })] } }
/-- Witness for Resends: a resend on a link. -/
theorem test_link_retry : sentOn.buffered 0 5 = some oldFrame ∧
    (sentOn.port 0).up = true ∧ (sentOn.port 0).llr = true ∧ tget 0 (sentOn.port 0).tries 5 = 0 := by decide +kernel

def paced : State := { fabric { flow0 with sinceAck := 1, rate := some 5 } with
  pwr := { PwrSt.reset with kc := 3 }, regs := [(Reg.pwrCtl, 0x20)], blame := [⟨1, [0], false, 0⟩] }
/-- Witness for FabricTimers. -/
theorem test_fabric_timers : 0 < (paced.flow 3).sinceAck ∧ (paced.flow 3).rate = some 5 ∧ paced.rbit Reg.pwrCtl 5 = true ∧
    0 < paced.paceValue ∧ (paced.blame.find? (fun x => x.member == 1)).isSome = true := by decide +kernel
/-- Witness for FabricTimers: a peer. -/
theorem test_peer : 1 ∈ (fabric flow0).peers ∧ 1 ∉ (fabric flow0).fab.silent :=
  ⟨List.mem_eraseDups.mpr (List.mem_map.mpr ⟨3, List.mem_filter.mpr ⟨List.mem_range.mpr (by decide), by decide +kernel⟩, by decide +kernel⟩),
    by decide⟩

def portDown : State := { fabric flow0 with fab := { FabSt.reset with ports := [(0, { port0 with retraining := true })] }, regs := [(Reg.fabPortCfg 0, 0x1F)] }
def portOff : State := { live with regs := [(Reg.fabPortCfg 0, 0x1F)] }
/-- Witness for LanesAndPorts. -/
theorem test_ports : ((fabric flow0).port 0).spare = none ∧ tget false (fabric flow0).fab.spareUsed 0 = false ∧
    (fabric flow0).lanePort 1 = some 0 ∧ (portDown.port 0).retraining = true ∧ portOff.rbit (Reg.fabPortCfg 0) 0 = true ∧
    (portOff.port 0).up = false ∧ portOff.rbit (Reg.fabPortCfg 0) 7 = false ∧ portOff.rbit (Reg.fabPortCfg 0) 4 = true ∧
    (fabric flow0).ownAddr (.ip4 ((fabric flow0).rget Reg.igsIp4)) = true ∧
    ({ fabric flow0 with regs := [(Reg.igsCfg, 0x10000)] } : State).ownAddr (.ip6 0) = true := by decide +kernel

/-- A root of collective 7 that waits, and this device's run of it. -/
def rooted : State := { fabric flow0 with fab := { (fabric flow0).fab with
  roots := [⟨7, 0, 0, 1, 0, 0, true, [], false, none, false, false, none, none⟩]
  colls := [⟨7, 0, 0, [⟨0, .f, 0, 0, 0, 0, none, false, false⟩], [], [], [], [], 0, [], [], none, none, false, false, false⟩] } }
/-- Witness for CollectiveTimers. -/
theorem test_collective : (rooted.fab.roots.filter (fun r => r.coll == 7 && r.step == 0 && r.seg == 0 && r.lane == 0 && r.waits)).length = 1 ∧
    (rooted.collRun? 7 rooted.stroke.step).isSome = true ∧ (rooted.collCfg 7).map (fun c => (c.segs, c.stages)) = some (1, 1) ∧
    (rooted.collCfg 7).map (fun c => (rooted.rootMember c 1 0 0, (rooted.rootEnt c 1 0 0).backup)) = some (1, 2) ∧
    rooted.member = 0 ∧ rooted.job.params.replay = false := by decide +kernel

def unrooted : State := { rooted with fab := { rooted.fab with roots := [] } }
/-- Witness for CollectiveTimers: a takeover, a result that does not come. -/
theorem test_takeover : (unrooted.collRun? 7 unrooted.stroke.step).map (fun x => (x.done, x.cores.length, x.trailers)) = some (false, 1, []) ∧
    (unrooted.collCfg 7).map (fun c => (c.two, (unrooted.rootEnt c 1 0 0).backup == unrooted.member)) = some (false, false) ∧
    unrooted.mayContribute = true ∧ unrooted.job.present = true ∧ unrooted.stroke.hold = .no ∧ unrooted.fab.roots = [] := by
  decide +kernel

/-! ### Weight loads -/

/-- A load of one byte of the bulk tier, read by this device. -/
def loadBlock (first : Byte) : List Byte :=
  [1, 0, 0, 0, 0x20, 16, 0, 0, 1, 0, 0, 0, first] ++ List.replicate 35 0 ++ [1, 0, 0, 0] ++ List.replicate 40 0 ++ [1] ++ List.replicate 35 0
def loadRefs : HostRefs := { refs0 with
  block := loadBlock 0
  dir := [0, 0, 0, 0, 0, 0, 0, 0, 1, 0, 0, 0, 0, 0, 0, 0]
  tree := [0xFF, 0xFF] ++ List.replicate 30 0
  swage := [[0, 0, 0, 0, 12, 12, 0, 0, 1, 0, 0, 0, 1] ++ List.replicate 18 0 ++ [0x80] ++ List.replicate 32 0] }
def withBulk : State := { ready with regs := [(Reg.blkCfg, 0x10), (Reg.blkStat, 1)] }
/-- Witness for WeightLoads: a descriptor. -/
theorem test_load_descriptor : withBulk.accepts (entry 6 [] loadRefs) = true ∧ entFault (entry 6 [] loadRefs) = none ∧
    withBulk.loadFault (loadDesc loadRefs) loadRefs = none ∧ (loadDesc loadRefs).enc = false := by decide +kernel

def sealedRefs : HostRefs := { loadRefs with block := loadRefs.block.set 4 0x21 }
/-- Witness for WeightLoads: a key that does not decrypt. One that does rests on the part's wrapping key (log entry 4). -/
theorem test_load_sealed : withBulk.accepts (entry 6 [] sealedRefs) = true ∧ entFault (entry 6 [] sealedRefs) = none ∧
    withBulk.loadFault (loadDesc sealedRefs) sealedRefs = none ∧ (loadDesc sealedRefs).enc = true := by decide +kernel
theorem test_load_key : ((unwrapKey sealedRefs.key).getD []).length ≠ 40 := by
  unfold unwrapKey
  simp only [sealedRefs, loadRefs, refs0, List.length_nil]
  split <;> simp

/-- A load whose reader is member 1 or this device, of one chunk, with what has been written. -/
def loadRun (rd : Nat) (dest : Bool) (next : Nat) (written : List Nat) : LoadRun :=
  ⟨{ loadDesc loadRefs with
      reader := rd
      readerDest := dest
      tree := if rd = 0 then [(0, 0xFFFF, [])] else [(1, 0xFFFF, [0]), (0, if dest then 1 else 0xFFFE, [])] },
    none, [], [], next, [], [], [], written, false, false, false, false⟩
def loading (x : LoadRun) (s : State) : State := { s with load := ⟨[x], false, 0, none, [], []⟩ }
/-- Witness for WeightLoads: a running load. -/
theorem test_load_running : (loading (loadRun 0 true 1 [0]) ready).loadOf 1 = some (loadRun 0 true 1 [0]) ∧
    (loading (loadRun 0 true 1 [0]) ready).isDest (loadRun 0 true 1 [0]).desc = true ∧
    (loadRun 0 true 1 [0]).desc.chunks = 1 ∧ (loadRun 0 true 1 [0]).desc.replace = false ∧
    (loading (loadRun 0 false 0 []) ready).isDest (loadRun 0 false 0 []).desc = false ∧
    (loadRun 0 false 0 []).desc.srcBulk = false ∧ (loading (loadRun 0 false 0 []) ready).member = 0 := by decide +kernel

/-- Witness for WeightLoads: a full staging region, and a read of the next chunk. -/
theorem test_staging : (loading { loadRun 0 true 0 [] with desc := { (loadRun 0 true 0 []).desc with replace := true } } ready).stagingFull
      { loadRun 0 true 0 [] with desc := { (loadRun 0 true 0 []).desc with replace := true } } 0 = true ∧
    (loading (loadRun 0 true 0 []) ready).liveLoad 1 = some (loadRun 0 true 0 []) ∧
    (loading (loadRun 0 true 0 []) ready).stagingFull (loadRun 0 true 0 []) 0 = false ∧
    (loading (loadRun 0 true 0 []) ready).member = (loadRun 0 true 0 []).desc.reader := by decide +kernel

/-- The IGS table with flow 3 on traffic class 3. -/
def table3 : List Host.Cell := setBytes igsTable (igsFlowTab + 64 * 3) [1, 0, 3, 1]
def loadFabric : State := loading (loadRun 1 false 0 []) { fabric flow0 with fab := { (fabric flow0).fab with table := table3 } }
def chunkPacket : Rx :=
  framed { (packet 0 4 [9]).pkt with coll := 1, crc := 0 }
/-- Witness for WeightLoads: a chunk packet. -/
theorem test_load_packet : goodFrame loadFabric chunkPacket = true ∧ nextGood loadFabric chunkPacket = true ∧
    loadFabric.loadOfPkt chunkPacket.pkt = some (loadRun 1 false 0 []) ∧ loadFabric.isDest (loadRun 1 false 0 []).desc = false ∧
    loadFabric.stagingFull (loadRun 1 false 0 []) 0 = false ∧ loadFabric.bufUsed + 1 ≤ flowBuffer := by decide +kernel

/-! ### Memory -/

/-- One logical channel on pseudo-channel 0, a ticket of two codewords, and a calendar whose first entry is `w`. -/
def hbmLive (w : Word) (write : Bool) (c : Core) (x : Chan) : State := { liveWith c with mem := { MemSt.reset with
  nLc := 1, chans := [(0, x)], stks := [(0, ⟨0, 0, 0, false, true, false⟩)], cal := setBytes [] 0 (leBytes 4 w.toNat)
  ticketDefs := [(3, some ⟨false, write, 0, 2⟩)], narrowDefs := [(1, some ⟨0, 2, 10⟩)] } }
def chanUp : Chan := ⟨0, 0, true, none, 0, false, none, []⟩
def armed : Core := { core1 with tickets := [(3, some ⟨0, true, none, .f⟩)] }
def readEntry : Word := 1 + 4 * 3 + 2 ^ 19
/-- Witness for CalendarSlots. -/
theorem test_calendar : (hbmLive readEntry false armed chanUp).live = true ∧
    (hbmLive readEntry false armed chanUp).calAt 0 = some pc0 ∧
    (hbmLive readEntry false armed chanUp).calEntry 0 pc0 = (1, 3, 0, 1) ∧
    (hbmLive (readEntry + 1) true armed chanUp).calEntry 0 pc0 = (2, 3, 0, 1) ∧
    (hbmLive 0 false armed chanUp).calEntry 0 pc0 = (0, 0, 0, 0) ∧
    (hbmLive readEntry false armed chanUp).slotUnit 0 0 3 ⟨false, false, 0, 2⟩ = some ⟨0, 0, 0, 0⟩ ∧
    ((hbmLive readEntry false armed chanUp).chan 0).backed = true ∧ ((hbmLive readEntry false armed chanUp).stk 0).out = false ∧
    ((hbmLive readEntry false armed chanUp).pc 0).lost = false ∧
    tget none ((hbmLive readEntry false core1 chanUp).core 0).tickets 3 = none ∧
    ((hbmLive readEntry false core1 chanUp).core 0).landing.length < 512 := by decide +kernel
/-- Witness for CalendarSlots: a full landing queue. -/
theorem test_landing_full : (List.replicate 512 ((3, 0, []) : Nat × Nat × List Byte)).length = 512 := List.length_replicate ..

def delivering (c : Core) : State := { hbmLive 0 false c chanUp with
  mem := { (hbmLive 0 false c chanUp).mem with deliveries := [⟨0, false, 0, 3, 1, [7]⟩] } }
/-- Witness for CalendarSlots: a delivery. -/
theorem test_delivery : (delivering core1).mem.deliveries[0]? = some ⟨0, false, 0, 3, 1, [7]⟩ ∧ (delivering core1).holder 0 = some 0 ∧
    ((delivering core1).core 0).landing.length + (⟨0, false, 0, 3, 1, [7]⟩ : Delivery).grains.length ≤ 512 ∧
    tget none ((delivering armed).core 0).tickets 3 = some ⟨0, true, none, .f⟩ ∧
    regionOf ((delivering armed).ctxOf 0 0) 1 = none := by decide +kernel

/-- A request for rows 3 and 9, of two grains each. -/
def narrowReq (scatter : Bool) : NarrowReq := ⟨scatter, 1, [3, 9], List.replicate 128 1, 0, true, [], none, .f⟩
def narrowLive (scatter : Bool) : State := hbmLive 0 false { core1 with narrow := [narrowReq scatter] } chanUp
/-- Witness for NarrowServed. -/
theorem test_narrow_slot : ∀ b : Bool, (narrowLive b).live = true ∧ (narrowLive b).chanAt 0 = some 0 ∧
    ((narrowLive b).core 0).narrow.find? (fun r => r.table == 1) = some (narrowReq b) ∧
    (List.range 4).find? (fun k => !(narrowReq b).got.any (fun g => g.1 == k) && (match (narrowReq b).grain ⟨0, 2, 10⟩ k with
      | none => false
      | some a => (locate 1 ((narrowLive b).xlate false b a)).1 == 0)) = some 0 ∧
    (narrowReq b).grain ⟨0, 2, 10⟩ 0 = some 192 ∧ (locate 1 ((narrowLive b).xlate false b 192)).2 = 192 := by decide +kernel

def lostChan : Chan := { chanUp with lost := some 0 }
def booting : State := { State.reset with mgmt := { MgmtSt.reset with bootStage := 3 } }
/-- Witness for MemoryUpkeep. -/
theorem test_upkeep : (hbmLive 0 false core1 chanUp).chanOf 0 = some 0 ∧ (hbmLive 0 false core1 chanUp).pcRuns 0 = true ∧
    (hbmLive 0 false core1 lostChan).chanOf 0 = some 0 ∧
    (pcPlace 0 (hbmLive 0 false core1 chanUp).narrowBanks (generalStripes (hbmLive 0 false core1 chanUp).narrowBanks)).1 = 0 ∧
    (hbmLive 0 false core1 { chanUp with migrating := some 95 }).stk 0 = ⟨0, 0, 0, false, true, false⟩ ∧
    (hbmLive 0 false core1 chanUp).chanOf 5 = none ∧ (hbmLive 0 false core1 chanUp).pcRuns 5 = true ∧
    withBulk.rbit Reg.blkStat 0 = true ∧ ((hbmLive 0 false core1 chanUp).stk 0).want = 0 ∧
    booting.mgmt.dev = .boot ∧ booting.mgmt.bootStage = 3 := by decide +kernel

/-- What `State.reaches` and `State.sound` ask of codeword 0 of channel 0, written or not, and lost. -/
theorem test_sound : (hbmLive 0 false core1 chanUp).sound 0 0 0 ∧ (hbmLive 0 false core1 lostChan).reaches 0 0 ∧
    (hbmLive 0 false core1 lostChan).chan 0 = lostChan ∧ tget CwMark.asIs lostChan.mark 0 = .asIs :=
  ⟨⟨by unfold State.reaches; decide +kernel, by decide +kernel, .inr (by decide +kernel)⟩, by unfold State.reaches; decide +kernel,
    by decide +kernel, by decide⟩
def migrating (n : Nat) : State := hbmLive 0 false core1 { chanUp with migrating := some 95, copied := n }
def retrainingStk : State := { live with mem := { MemSt.reset with stks := [(3, ⟨90, 3, 3, true, true, true⟩)] } }
/-- Witness for MemoryUpkeep: a migration, a retrain, temperatures, a pseudo-channel that is no channel's. -/
theorem test_upkeep_rest : ((migrating 0).chan 0).migrating = some 95 ∧ ((migrating 0).chan 0).copied < 4 * pcStripes ∧
    4 * pcStripes ≤ ((migrating (4 * pcStripes)).chan 0).copied ∧ ((migrating 0).stk (((migrating 0).chan 0).phys / 32)).stage = 0 ∧
    (retrainingStk.stk 3).retraining = true ∧ retrainingStk.mgmt.dev ≠ .boot ∧ ((migrating 0).pc 0).fail = false ∧
    ((hbmLive 0 false core1 chanUp).stk 0).trained = true ∧ ((hbmLive 0 false core1 chanUp).stk 0).out = false := by decide +kernel

/-! ### Power, registers, messages, pins -/

def annealing : State := { live with regs := [(Reg.pwrCtl, 0x80)] }
/-- Witness for PowerEvents. -/
theorem test_power : live.mgmt.dev ≠ .off ∧ live.pwr.telemetryLost = false ∧ live.clockRuns = true ∧ live.pwr.stretching = false ∧
    live.pwr.rising = false ∧ annealing.rbit Reg.pwrCtl 7 = true ∧ live.pwr.k ∉ live.pwr.trimHold ∧ live.pwr.stretch.tj = false ∧
    live.pwr.tripped = false ∧ live.pwr.vrTold = false := by decide +kernel

def trimmed : State := { live with regs := [(Reg.pwrCtl, 0x80)], pwr := { PwrSt.reset with
  trim := [(5, 23)], trimHold := [5], stretching := true, rising := true, k := 5, kt := 9 } }
/-- Witness for PowerEvents: a trim that is held, a rise under way, and the clock's stretch. -/
theorem test_power_rest : trimmed.pwr.stretching = true ∧ trimmed.pwr.vrTold = false ∧ trimmed.pwr.rising = true ∧
    trimmed.pwr.trimHold.length = 1 ∧ tget 0 trimmed.pwr.trim 5 ≠ 0 ∧ trimmed.clockRuns = true ∧
    live.rfield Reg.pwrAnneal 0 6 ≤ (63#6).toNat ∧ live.pwr.k ∉ live.pwr.trimTold ∧
    ({ live with pwr := { live.pwr with trim := [(live.pwr.k, 23)] } } : State).trimNow live.pwr.k = 23 := by decide +kernel

/-- Witness for RegisterWrites and ManagementWrites. -/
theorem test_targets : (ready.target .pcie Reg.pwrCtl).isSome = true ∧
    (∀ off ∈ [Reg.asyClr, Reg.hbmPcClr 0, Reg.mssWallHi, Reg.pwrCap, Reg.stkLedgerCi, Reg.pciCplCi, Reg.pciRingCfg, Reg.logCfg, Reg.logCi,
      0x1018, 0x1010, 0x1020, 0x1040], (ready.target .pcie off).isSome = true) ∧
    ({ ready with mgmt := { ready.mgmt with dev := .standby } } : State).target .pcie Reg.pciWake ≠ none ∧
    ({ ready with mgmt := { ready.mgmt with dev := .recovery } } : State).target .pcie Reg.pciRecovery ≠ none := by decide +kernel
def blankRec : LedgerRec := ⟨0, 0, 0, [], 0, 0, false, 0, 0, 0, 0, 0, 0, 0, 0, List.replicate 32 0⟩
def ledgered : State := { live with
  job := { live.job with params := { JobParams.none with ledgerSize := 4096 } }
  stp := { StepSt.reset with pendingRec := some blankRec } }
/-- Witness for ManagementWrites: a low half that waits, a record with and without room, a held completion, dropped records. -/
theorem test_indexes : tget none ({ ready with loHeld := [(latchKey .pcie Reg.mssWallLo, some 5)] } : State).loHeld
      (latchKey .pcie Reg.mssWallLo) = some 5 ∧
    (ledgered.rset Reg.stkLedgerCi 0).ledgerRoom blankRec = true ∧ (live.rset Reg.stkLedgerCi 0).ledgerRoom blankRec = false ∧
    ((ringOn 0).rset Reg.pciCplCi 5).cplRoom = true ∧ ((ringOn 0).rset Reg.pciCplCi 1).cplRoom = false ∧
    ((live.rset Reg.logCfg 0x4).rset Reg.logCi 5).logRoom = true ∧ ((live.rset Reg.logCfg 0x4).rset Reg.logCi 1).logRoom = false := by
  decide +kernel

/-- Witness for RegisterWrites: a plain word. -/
theorem test_plain_word : ((pageAt Reg.pwrCtl).bind (fun pg => rowAt pg (Reg.pwrCtl % 0x1000))).map (fun r => r.1.half) = some .none ∧
    Reg.pwrCtl % 0x1000 = 0x104 ∧ halfOf Reg.mssWallLo = .lo ∧ halfOf Reg.mssWallHi = .hi ∧ halfOf Reg.pwrCtl = .none := by decide +kernel

def attesting : State := { ready with mgmt := { ready.mgmt with spdmAlg := true, nor := ⟨[], [], [5], [(0, [1])], 0, [], false⟩ } }
/-- Witness for FirmwareAnswers. -/
theorem test_attest : attesting.firmwareRuns = true ∧ attesting.mctpFrom .vdm = true ∧ attesting.mctpFrom (.eth 5 47111) = true ∧
    attesting.summary 0 = some [] ∧ 6 ∉ attesting.mgmt.nor.peers ∧ attesting.chain 0 = some [1] ∧ ready.mgmt.spdmAlg = false ∧
    attesting.fwFault [] = some 3 := by decide +kernel

/-- Witness for ResetsAndStates. -/
theorem test_resets : live.pwr.clocksStopped = false ∧ live.mgmt.nor.torn = false ∧ live.ring.fwWrite = [] ∧
    live.fwFault live.mgmt.nor.firmware = some 3 ∧ live.clockRuns = true ∧ (live.roleOf 0).role ≠ .disabled ∧
    live.evtSet (pgMe 0 0) 1 = false ∧ live.mgmt.pwrgood = true ∧ live.mgmt.jtag.tap = .reset := by decide +kernel
/-- Firmware of one version that verifies, where its signature does. -/
def goodImage : List Byte := [0x46, 0x5A, 0x37, 0x46, 1, 0, 0, 0, 0, 0, 0, 0] ++ List.replicate 628 0
/-- Witness for FirmwareAnswers and ResetsAndStates: a sound image (the signature check is opaque, log entry 4). -/
theorem test_firmware (h : rsaVerify (signedBody goodImage) (signatureOf goodImage) = true) : ready.fwFault goodImage = none := by
  have a : ¬ (leNat (goodImage.take 4) ≠ 0x46375A46 ∨ 16 * 2 ^ 20 - 640 < leNat ((goodImage.drop 12).take 4) ∨
    goodImage.length ≠ 640 + leNat ((goodImage.drop 12).take 4)) := by decide +kernel
  have b : ¬ leNat ((goodImage.drop 8).take 4) < ready.fuses.minSvn := by decide +kernel
  simp only [State.fwFault, if_neg a, h, Bool.not_true, Bool.false_eq_true, if_false, if_neg b]

def window (target : Word) (dev : DevState) (seals : List Seal) : State := { ready with
  mgmt := { ready.mgmt with dev := dev }, regs := [(Reg.pciBar2Sel, target)], load := ⟨[], false, 0, none, [], seals⟩ }
/-- Witness for Bar2Window. -/
theorem test_window : selTarget ((window 2 .ready []).rget Reg.pciBar2Sel) = 2 ∧ (window 2 .ready []).windowCore 0 = true ∧
    selAddr 2 0 + 4 ≤ cmBytes ∧ selTarget ((window 4 .ready []).rget Reg.pciBar2Sel) = 4 ∧
    selTarget ((window 5 .ready []).rget Reg.pciBar2Sel) = 5 ∧ (window 1 .ready []).sealMet 1 0 4 = none ∧
    (window 1 .ready [⟨7, true, 2, 8⟩]).sealMet 1 0 4 = some ⟨7, true, 2, 8⟩ := by decide +kernel

/-- Witness for StepTakesFront. -/
theorem test_front : ({ live with pending := [.perst, .ackTimer 0] } : State).pending = .perst :: [.ackTimer 0] ∧
    live.fuses.minSvn ≤ 64 := by decide +kernel

/-! ### Job start and epochs: blocks that carry the program's hash -/

theorem shaRound_length (v : List Word) (m : Word) : (shaRound v m).length = v.length := by
  unfold shaRound; split <;> rfl

theorem shaRounds_length (ms v : List Word) : (ms.foldl shaRound v).length = v.length := by
  induction ms generalizing v with
  | nil => rfl
  | cons m ms ih => rw [List.foldl_cons, ih, shaRound_length]

theorem shaAbsorb_length (n : Nat) (bs : List Byte) (v : List Word) : (shaAbsorb n bs v).length = v.length := by
  induction n generalizing bs v with
  | zero => rfl
  | succ n ih => simp only [shaAbsorb, ih, List.length_zipWith, shaRounds_length, Nat.min_self]

theorem flatMap_four {α : Type} (f : α → List Byte) (h : ∀ a, (f a).length = 4) (l : List α) : (l.flatMap f).length = 4 * l.length := by
  induction l with
  | nil => rfl
  | cons a l ih => rw [List.flatMap_cons, List.length_append, h, ih, List.length_cons]; omega

theorem sha256_length (bs : List Byte) : (sha256 bs).length = 32 := by
  unfold sha256
  rw [flatMap_four _ (fun w => by simp [beBytes, length_leBytes]), shaAbsorb_length]
  rfl

/-- A grid of one column and four rows on cores 0 to 3. -/
def placed : State := { ready with regs := [(Reg.stkGrid, 0x401), (Reg.stkPlace 0, 0x80000000), (Reg.stkPlace 8, 0x80000001),
  (Reg.stkPlace 16, 0x80000002), (Reg.stkPlace 24, 0x80000003)] }
/-- A job block that is zero but for its program hash. -/
def jobRefs (h : List Byte) : HostRefs := { refs0 with block := List.replicate 64 0 ++ (h ++ List.replicate 160 0) }

theorem leNat_blank (m : Nat) : leNat (List.replicate m (0 : Byte)) = 0 := by
  induction m with
  | zero => rfl
  | succ m ih => show 0 + 256 * leNat (List.replicate m (0 : Byte)) = 0; rw [ih]

theorem block_low (h : List Byte) (o n : Nat) (k : o + n ≤ 64) : blk (jobRefs h).block o n = 0 := by
  unfold blk jobRefs
  rw [List.drop_append_of_le_length (by simp; omega), List.take_append_of_le_length (by simp; omega), List.drop_replicate,
    List.take_replicate, leNat_blank]

theorem block_high (h : List Byte) (l : h.length = 32) (o n : Nat) (k : 96 ≤ o) : blk (jobRefs h).block o n = 0 := by
  unfold blk jobRefs
  rw [← List.append_assoc, List.drop_append, List.drop_eq_nil_of_le (by simp; omega), List.nil_append, List.drop_replicate,
    List.take_replicate, leNat_blank]

theorem block_hash (h : List Byte) (l : h.length = 32) : ((jobRefs h).block.drop 64).take 32 = h := by
  unfold jobRefs
  rw [List.drop_left' (by simp), List.take_left' l]

theorem block_sound (h : List Byte) (l : h.length = 32) : jobBlockFault (jobRefs h) = none := by
  unfold jobBlockFault firstFault
  rw [Option.map_eq_none_iff, List.find?_eq_none]
  intro x hx
  rw [List.mem_append] at hx
  obtain hx | hx := hx
  · have r : (jobRefs h).replicas = [] := rfl
    simp [block_low, r] at hx
    obtain rfl | rfl | rfl | rfl | rfl | rfl | rfl | rfl := hx <;> simp
  · obtain ⟨o, ho, rfl⟩ := List.mem_map.mp hx
    have : blk (jobRefs h).block o 1 = 0 := by
      simp only [List.mem_append, List.mem_range'_1] at ho
      obtain k | k := ho
      · exact block_low h o 1 (by omega)
      · exact block_high h l o 1 (by omega)
    simp [this]

theorem block_plain (h : List Byte) : blockAssay (jobRefs h) = false := by
  unfold blockAssay
  rw [block_low h 8 1 (by omega)]; rfl

/-- JOB_START with that block. -/
theorem entry_sound (h : List Byte) : placed.accepts (entry 1 [] (jobRefs h)) = true ∧ entFault (entry 1 [] (jobRefs h)) = none :=
  ⟨rfl, rfl⟩

theorem hash_length (s : State) (cores : List (Nat × Nat)) (x : Tbl (Option TicketDef)) (m : List Byte) :
    (s.programHash cores x m).length = 32 := by
  unfold State.programHash
  exact sha256_length _

/-- Witness for JobsStartAndAbort: JOB_START. -/
theorem test_job_start : ∃ h, placed.ringTakes 0x01 (entry 1 [] (jobRefs h)) ∧ placed.jobFault (jobRefs h) = none ∧
    placed.mgmt.dev = .ready ∧ blockAssay (jobRefs h) = false := by
  obtain ⟨h, l, k⟩ : ∃ h, h.length = 32 ∧ (placed.putImage refs0.image).programHash placed.placements
      (placed.putImage refs0.image).mem.ticketDefs placed.smapBytes = h := ⟨_, hash_length .., rfl⟩
  have g1 : ¬ (refs0.image.strokeN ≠ placed.rfield Reg.stkStrokeCfg 0 5) := by decide +kernel
  have g2 : placed.gridOk = true := by decide +kernel
  have g3 : (List.range 128).find? placed.placeBad = none := by decide +kernel
  have g4 : numModeOk (placed.rget Reg.numMode) = true := by decide +kernel
  have g5 : placed.strokesCount = false := by decide +kernel
  have e : (jobRefs h).image = refs0.image := rfl
  refine ⟨h, ⟨.inl (by decide), by decide, rfl, (entry_sound _).2, (entry_sound _).1, fun q => absurd q (by simp [g5])⟩, ?_,
    by decide, block_plain _⟩
  unfold State.jobFault
  rw [block_sound h l]
  simp only [e, g2, g3, g4, Bool.not_true, Bool.false_eq_true, if_false, if_neg g1, block_hash h l, k, if_true]

def hashRefs (h : List Byte) : HostRefs := { refs0 with block := [1, 0, 0, 0, 0, 0, 0, 0] ++ (h ++ List.replicate 60 0) }
def epochHeld (h : List Byte) : State := { heldAt .epoch with
  epoch := { EpochSt.reset with req := some ⟨1, false, hashRefs h⟩ } }

theorem hash_there (h : List Byte) (l : h.length = 32) : ((hashRefs h).block.drop 8).take 32 = h := by
  unfold hashRefs
  rw [List.drop_left' (by simp), List.take_left' l]

theorem hash_plain (h : List Byte) (l : h.length = 32) : hasImage (hashRefs h) = false := by
  unfold hasImage blk hashRefs
  rw [← List.append_assoc, List.drop_append, List.drop_eq_nil_of_le (by simp; omega), List.nil_append, List.drop_replicate,
    List.take_replicate, leNat_blank]; rfl

theorem smap_none (s : State) (h : s.rget Reg.stkSmapCnt = 0) : s.smapBytes = [] := by
  unfold State.smapBytes State.peekMem
  rw [h]
  exact List.take_zero

/-- What the epoch asks for does not enter the program's hash. -/
theorem hash_epoch (s : State) (e : EpochSt) (b : List Byte) (cores : List (Nat × Nat)) (x : Tbl (Option TicketDef)) :
    (({ s with epoch := e } : State).newMembers (hashRefs b)).programHash cores x [] = (s.newMembers refs0).programHash cores x [] := by
  unfold State.programHash regBytes
  rfl

theorem image_sound (s : State) (k : s.rget Reg.stkSmapCnt = 0) : ∃ h, ∀ e : EpochSt,
    (({ s with epoch := e } : State).epochImage (hashRefs h)).1 = true := by
  refine ⟨(s.newMembers refs0).programHash s.placed s.mem.ticketDefs [], fun e => ?_⟩
  have l := hash_length (s.newMembers refs0) s.placed s.mem.ticketDefs []
  unfold State.epochImage
  simp only [hash_plain _ l, Bool.false_eq_true, if_false, Bool.true_and, hash_there _ l, beq_iff_eq]
  have z : ({ s with epoch := e } : State).smapBytes = [] := smap_none _ k
  rw [z]
  exact hash_epoch ..

/-- Witness for EpochChanges: the boundary of a new epoch. -/
theorem test_epoch_held : ∃ h q, (epochHeld h).stroke.hold = .epoch ∧ (epochHeld h).stroke.obs = some obs0 ∧
    (epochHeld h).epoch.req = some q ∧ (epochHeld h).netOpen = false ∧
    (({ epochHeld h with stroke := { (epochHeld h).stroke with hold := .no } } : State).epochImage q.refs).1 = true := by
  have g : ({ live with stroke := { live.stroke with hold := .no, obs := some obs0 } } : State).rget Reg.stkSmapCnt = 0 := by decide +kernel
  obtain ⟨h, k⟩ := image_sound _ g
  exact ⟨h, _, rfl, rfl, rfl, rfl, k _⟩

/-! ### Commands that no sender of the block can form -/

theorem test_ill_formed : (Instr.setCap ⟨List.replicate 63 0, refs0⟩).wf = false ∧
    (Instr.ack { packet 3 4 [] with pkt := { (packet 3 4 []).pkt with ver := 16 } }).wf = false ∧
    (Instr.evtClear .pcie 8192 0).wf = false ∧ (Instr.cntClr .mss 8192).wf = false ∧
    (Instr.registerWrite .pcie 0x2000000 0 0xF).wf = false ∧ (Instr.registerLoRead .pcie 2).wf = false ∧
    (Instr.bar2Write 0x0FFFFFFF [0, 0]).wf = false ∧ (Instr.bar2Read 0x10000000 1).wf = false ∧
    (Instr.calendarDataSlot 0 ⟨0, [(72, 1)]⟩).wf = false ∧ (Instr.calendarDataSlot 384 ⟨0, [(288, 1)]⟩).wf = false ∧
    (Instr.refreshReserveSlot 0 0 0 [(72, 1)]).wf = false ∧ (Instr.narrowSlot 0 0 0 0 ⟨0, [(3, 1), (3, 2)]⟩).wf = false ∧
    (Instr.getMeasurements 256 true (List.replicate 32 0)).wf = false ∧ (Instr.challenge 0 ⟨0, []⟩).wf = false ∧
    (Instr.getCertificate 0 65536 0).wf = false ∧ (Instr.strokeBoundary { obs0 with durNs := 0 }).wf = false := by decide +kernel

theorem test_well_formed : (Instr.strokeBoundary obs0).wf = true ∧ (Instr.setCap (entry 3 [0x4C, 4] refs0)).wf = true ∧
    (Instr.ack (packet 3 4 [])).wf = true ∧ (Instr.calendarDataSlot 384 ⟨0, [(287, 1)]⟩).wf = true := by decide +kernel

/-! ### Standards: FIPS 197 (figure 7), and the stream of one literal in the fixed code of RFC 1951 -/

theorem test_aes_sub : aesSub 0x53 = 0xED := by decide +kernel
theorem test_inflate : inflate [75, 4, 0] = some [97] := by decide +kernel

/-! ### The identification code (R496), and the states of the test access port -/

theorem test_idcode : live.idcode = 0x25A077AB ∧ ({ live with fuses := { live.fuses with stepping := 0xA1 } } : State).idcode = 0x15A077AB ∧
    ({ live with fuses := { live.fuses with stepping := 0xA1, activeCores := 0x70 } } : State).idcode = 0x15A067AB ∧
    ({ live with fuses := { live.fuses with activeCores := 0x70 } } : State).idcode = 0x25A067AB := by decide +kernel

theorem test_port_states (t : Tap) (op : JtagOp) :
    let s : State := { live with mgmt := { live.mgmt with jtag := { live.mgmt.jtag with tap := t, op := op } } }
    s.mgmt.pwrgood = true ∧ s.mgmt.jtag.tap = t ∧ s.mgmt.jtag.op = op := by
  have h : live.mgmt.pwrgood = true := by decide +kernel
  exact ⟨h, rfl, rfl⟩

/-! ### Words written out bit by bit -/

theorem test_decode_stend : decodeWord 0x0100000000000000 = some .stend := by decide +kernel
theorem test_decode_cmp : decodeWord 0x1504104300000000 = some (.cmp ⟨1, 1, 1, 3, 0⟩) := by decide +kernel
theorem test_decode_mload : decodeWord 0xA000000000000000 = some (.mload ⟨0, 0, 0, 0, 0, false, 0, 0, 0⟩) := by decide +kernel
theorem test_decode_vst : decodeWord 0xD608000000000000 = some (.vst ⟨1, 0, 0, 0, false, 0, 0, 0, false, false, false, 0, 0, 0⟩) := by decide +kernel

end Sys2Proof.Tests
end

section
/-!
PROOFS. ABORT of an operation that the device does not know, or that has been aborted before (R84): no operation under way bears the tag,
none has ended under it otherwise, so the command answers REJECTED and leaves the job as it is.
-/

namespace Sys2Proof.Machine

open Sys2Proof

/-- A completion changes nothing of the job. -/
@[simp] theorem reply_job (s : State) (c : CmdRef) (phase status : Nat) (result : DWord) :
    (s.reply c phase status result).job = s.job := by
  obtain ⟨_, _, _, _, h⟩ := reply_only s c phase status result; rw [h]

/-- ABORT, when it is taken, does what the command does; a job that it aborts goes on to DRAIN. -/
theorem exec_abort_of_takes {s : State} {e : RingEntry} (h : s.ringTakes 0x02 e) :
    exec (.abort e) s = .next
      (if (s.cmdAbort e).job.aborted && !s.job.aborted then (s.cmdAbort e).takeDrain else s.cmdAbort e) := by
  have happ : s.applyNow 0x02 e = s.cmdAbort e := applyNow_eq h
  change Host.Outcome.next (if (s.applyNow 0x02 e).job.aborted && !s.job.aborted then _ else _) = _
  rw [happ]

/-- An ABORT that only answers leaves the device in its state. -/
theorem exec_abort_of_reply {s : State} {e : RingEntry} {status : Nat} {result : DWord} (h : s.ringTakes 0x02 e)
    (ha : s.cmdAbort e = s.reply (entRef e) 0 status result) :
    exec (.abort e) s = .next (s.reply (entRef e) 0 status result) := by
  simp [exec_abort_of_takes h, ha]

/-- No operation that an ABORT may name (R82) is held under `tag`: not the job, a load, a staging transfer or a burnish test. -/
structure State.TagUnknown (s : State) (tag : Word) : Prop where
  job : ∀ c, s.job.cmd = some c → c.tag ≠ tag
  loads : ∀ r ∈ s.load.loads, ∀ c, r.cmd = some c → c.tag ≠ tag
  stages : ∀ x ∈ s.ring.stages, x.cmd.tag ≠ tag
  tests : ∀ t ∈ s.brn.tests, ∀ c, t.cmd = some c → c.tag ≠ tag

theorem any_tag_eq_false {o : Option CmdRef} {tag : Word} (h : ∀ c, o = some c → c.tag ≠ tag) :
    o.any (fun c => c.tag == tag) = false := by
  cases o with
  | none => rfl
  | some c => simpa using h c rfl

/-- Nothing is there to abort under an unknown tag. -/
theorem abortable_unknown {s : State} {tag : Word} (h : s.TagUnknown tag) : s.abortable tag = none := by
  have hload : s.load.loads.find? (fun r => r.active && !r.registered && r.cmd.any (fun c => c.tag == tag)) = none :=
    List.find?_eq_none.2 fun r hr => by simp [any_tag_eq_false (h.loads r hr)]
  have hstage : s.ring.stages.find? (fun x => x.cmd.tag == tag) = none :=
    List.find?_eq_none.2 fun x hx => by simpa using h.stages x hx
  have htest : s.brn.tests.find? (fun t => t.outcome.isNone && t.cmd.any (fun c => c.tag == tag)) = none :=
    List.find?_eq_none.2 fun t ht => by simp [any_tag_eq_false (h.tests t ht)]
  simp [State.abortable, any_tag_eq_false h.job, hload, hstage, htest]

/-- Nothing has run to its end under an unknown tag if all that ended under it was aborted. -/
theorem endedBefore_unknown {s : State} {tag : Word} (h : s.TagUnknown tag)
    (he : ∀ o ∈ s.ring.ended, o.cmd.tag = tag → o.aborted = true) : s.endedBefore tag = false := by
  have hended : s.ring.ended.any (fun o => o.cmd.tag == tag && o.cmd.opcode != 0x0C && !o.aborted) = false :=
    List.any_eq_false.2 fun o ho => by
      by_cases ht : o.cmd.tag = tag
      · simp [he o ho ht]
      · simp [ht]
  have hload : s.load.loads.any (fun r => r.active && r.registered && r.cmd.any (fun c => c.tag == tag)) = false :=
    List.any_eq_false.2 fun r hr => by simp [any_tag_eq_false (h.loads r hr)]
  rw [State.endedBefore, hended, hload, Bool.or_self]

/-- R84: the command answers REJECTED, with the place of the tag in the entry, and does nothing else. -/
theorem cmdAbort_unknown {s : State} {e : RingEntry} (h : s.TagUnknown (BitVec.ofNat 32 (blk e.raw 16 4)))
    (he : ∀ o ∈ s.ring.ended, o.cmd.tag = BitVec.ofNat 32 (blk e.raw 16 4) → o.aborted = true) :
    s.cmdAbort e = s.reply (entRef e) 0 stRejected 16 := by
  simp [State.cmdAbort, wOf, abortable_unknown h, endedBefore_unknown h he, State.reject]

/-- Settles O33: neither the search for what to abort nor that for what has ended finds the tag, and REJECTED is all that is left. -/
theorem repeatedAborts : Obligations.RepeatedAborts := by
  intro s e htakes tag hjob hloads hstages htests hended
  exact exec_abort_of_reply htakes (cmdAbort_unknown ⟨hjob, hloads, hstages, htests⟩ hended)

end Sys2Proof.Machine
end

section
/-!
PROOFS. WAIT_SATISFIED of a consuming wait (R196): one whose turn has not come, or that the counter does not satisfy, changes nothing; one
that is tested and satisfied leaves the counter lower by its operand and its stream running.
-/

namespace Sys2Proof.Machine

open Sys2Proof

/-! ### The cycles that a wait was held (R474): a pair of registers alone -/

theorem bumpPair_only_regs (s : State) (lo n : Nat) : s.bumpPair lo n = { s with regs := (s.bumpPair lo n).regs } := by
  unfold State.bumpPair
  split <;> rfl

@[simp] theorem core_bumpPair (s : State) (lo n p : Nat) : (s.bumpPair lo n).core p = s.core p := by
  rw [bumpPair_only_regs]; rfl

theorem kept_bumpPair (s : State) (lo n : Nat) : RegsKept s (s.bumpPair lo n) (pairAt lo) := by
  unfold State.bumpPair
  split
  · exact fun _ _ => rfl
  · exact (kept_rset _ _ _ (.inl rfl)).trans (kept_rset _ _ _ (.inr rfl))

/-- A core that is written and a counter pair that is advanced: nothing else differs. -/
theorem coreAndRegs_setCore_bumpPair (s : State) (p : Nat) (c : Core) (lo n : Nat) :
    CoreAndRegs s ((s.setCore p c).bumpPair lo n) p (pairAt lo) := by
  refine ⟨kept_bumpPair (s.setCore p c) lo n, fun q hq => ?_, ?_, fun _ => ?_⟩
  · rw [core_bumpPair]; exact core_setCore_ne s c hq
  all_goals rw [bumpPair_only_regs]
  · rfl
  · exact ⟨rfl, rfl⟩

/-! ### The test of a consuming wait and its turn (R195, R196) -/

theorem waitHolds_consuming (v k : Word) : waitHolds 2 v k = decide (k.toNat ≤ v.toNat) := rfl

theorem waitOf_eq_some {x : StreamSt} {w : WaitRec} : waitOf x = some w ↔ x.phase = .waiting w := by
  unfold waitOf
  cases x.phase <;> simp

/-- A stream before `st` in the order F, B, U waits to consume from counter `k`, and the counter satisfies it. -/
def Core.EarlierConsumes (c : Core) (st : Stream) (k : Nat) : Prop :=
  ∃ q ∈ before st, ∃ y, (c.stream q).phase = .waiting y ∧ y.ctr = k ∧ y.cond = 2 ∧ y.operand.toNat ≤ (tget 0 c.ctr k).toNat

/-- The model's test of the turn says what R196 does: an earlier consuming wait on the same counter holds. -/
theorem earlierHolds_iff {c : Core} {st : Stream} {w : WaitRec} (hw : w.cond = 2) :
    earlierHolds c st w = true ↔ c.EarlierConsumes st w.ctr := by
  simp only [earlierHolds, hw, beq_self_eq_true, Bool.true_and, List.any_eq_true, Core.EarlierConsumes, ← waitOf_eq_some]
  refine exists_congr fun q => and_congr_right fun _ => ?_
  cases waitOf (c.stream q) with
  | none => simp
  | some y =>
    simp +contextual [waitHolds_consuming, and_assoc]

/-- A consuming wait passes where the counter reaches its operand, and takes the operand from the counter. -/
theorem waitTest_consuming {w : WaitRec} (hw : w.cond = 2) (r : Run) :
    waitTest w r = if w.operand.toNat ≤ (tget 0 r.c.ctr w.ctr).toNat then
      some { r with c := { r.c with ctr := tset 0 r.c.ctr w.ctr (tget 0 r.c.ctr w.ctr - w.operand) } } else none := by
  simp [waitTest, hw, waitHolds_consuming]

/-! ### The core on which a consuming wait has been satisfied -/

/-- The counter is lower by the operand, and the stream runs. -/
def Core.consumed (c : Core) (st : Stream) (w : WaitRec) : Core :=
  { c with ctr := tset 0 c.ctr w.ctr (tget 0 c.ctr w.ctr - w.operand) }.setStream st { c.stream st with phase := .run }

section
variable (c : Core) (st : Stream) (w : WaitRec)

@[simp] theorem consumed_ctr : (c.consumed st w).ctr = tset 0 c.ctr w.ctr (tget 0 c.ctr w.ctr - w.operand) :=
  setStream_ctr _ _ _

@[simp] theorem consumed_phase : ((c.consumed st w).stream st).phase = .run := by
  rw [Core.consumed, stream_setStream_self]

theorem consumed_stream_ne {q : Stream} (h : q ≠ st) : (c.consumed st w).stream q = c.stream q := by
  rw [Core.consumed, stream_setStream_ne _ _ h]
  cases q <;> rfl

end

/-! ### WAIT_SATISFIED of a consuming wait, once for all its cases -/

theorem exec_waitSatisfied_consuming {s : State} {v : Fin 128} {st : Stream} {p : Nat} {w : WaitRec} (hv : s.holder v = some p)
    (hst : ((s.core p).stream st).phase = .waiting w) (hw : w.cond = 2) (cycles : Nat) :
    exec (.waitSatisfied v st ⟨cycles, none⟩) s = .next (
      if earlierHolds (s.core p) st w then s
      else if w.operand.toNat ≤ (tget 0 (s.core p).ctr w.ctr).toNat then
        (s.setCore p ((s.core p).consumed st w)).bumpPair (Reg.synWaitCycLo p) cycles
      else s) := by
  have hwait : waitOf ((s.core p).stream st) = some w := waitOf_eq_some.2 hst
  change execWaitSatisfied v st ⟨cycles, none⟩ s = _
  simp only [execWaitSatisfied, hv, hwait, waitTest_consuming hw, Run.fresh]
  refine congrArg _ (if_congr Iff.rfl rfl ?_)
  by_cases hmet : w.operand.toNat ≤ (tget 0 (s.core p).ctr w.ctr).toNat
  · simp only [hmet, if_true]
    cases st <;> rfl
  · simp only [hmet, if_false]

/-- Settles O7: WAIT_SATISFIED tests the turn, then the counter; what is left of the counter is exact, for the operand does not exceed it. -/
theorem consumingWaits : Obligations.ConsumingWaits := by
  intro s v st cycles p w hv hst hw n ahead
  have hexec := exec_waitSatisfied_consuming hv hst hw cycles
  have hcore : ((s.setCore p ((s.core p).consumed st w)).bumpPair (Reg.synWaitCycLo p) cycles).core p = (s.core p).consumed st w := by
    rw [core_bumpPair, core_setCore_self]
  have hturn : earlierHolds (s.core p) st w = true ↔ ahead := earlierHolds_iff hw
  refine ⟨fun hlow => ?_, fun hahead => ?_, fun hmet hahead => ⟨_, ?_, ?_, fun k hk => ?_, ?_, fun q hq => ?_,
    coreAndRegs_setCore_bumpPair s p ((s.core p).consumed st w) (Reg.synWaitCycLo p) cycles⟩⟩
  · rw [hexec, if_neg (Nat.not_le.2 hlow), ite_self]
  · rw [hexec, if_pos (hturn.2 hahead)]
  · rw [hexec, if_neg (mt hturn.1 hahead), if_pos hmet]
  · rw [hcore, consumed_ctr, tget_tset_self]
    exact BitVec.toNat_sub_of_le hmet
  · rw [hcore, consumed_ctr, tget_tset_ne _ _ _ hk]
  · rw [hcore, consumed_phase]
  · rw [hcore, consumed_stream_ne _ _ _ hq]

end Sys2Proof.Machine
end

section
/-!
PROOFS. Instruction words (R180, R182, R208, R218, R229, R230): packing and cutting fields undo each other, so each field map is read back
from its word, and a word that a field map reads is packed from it again.
-/

namespace Sys2Proof

/-! ### Fields packed and cut -/

theorem packBits_lt (fs : List (Nat × Nat)) : packBits fs < 2 ^ (fs.map (·.1)).sum := by
  induction fs with
  | nil => simp [packBits]
  | cons f fs ih =>
    have hv : f.2 % 2 ^ f.1 + 1 ≤ 2 ^ f.1 := Nat.mod_lt _ (Nat.two_pow_pos _)
    calc packBits (f :: fs) < (f.2 % 2 ^ f.1 + 1) * 2 ^ (fs.map (·.1)).sum := by simp only [packBits]; linarith
      _ ≤ 2 ^ f.1 * 2 ^ (fs.map (·.1)).sum := Nat.mul_le_mul_right _ hv
      _ = 2 ^ ((f :: fs).map (·.1)).sum := by rw [List.map_cons, List.sum_cons, Nat.pow_add]

/-- A multiple of a power of two above the widths cut does not show in the fields. -/
theorem unpackBits_add_mul (ws : List Nat) (n m : Nat) (k : Nat) (hk : ws.sum ≤ k) : unpackBits ws (m * 2 ^ k + n) = unpackBits ws n := by
  induction ws with
  | nil => rfl
  | cons w ws ih =>
    rw [List.sum_cons] at hk
    obtain ⟨j, rfl⟩ := Nat.exists_eq_add_of_le hk
    have hsplit : m * 2 ^ (w + ws.sum + j) + n = n + 2 ^ ws.sum * (2 ^ w * (m * 2 ^ j)) := by ring
    simp only [unpackBits, ih (by omega), List.cons.injEq, and_true]
    rw [hsplit, Nat.add_mul_div_left _ _ (Nat.two_pow_pos _), Nat.add_mul_mod_self_left]

theorem unpackBits_packBits (fs : List (Nat × Nat)) : unpackBits (fs.map (·.1)) (packBits fs) = fs.map (fun f => f.2 % 2 ^ f.1) := by
  induction fs with
  | nil => rfl
  | cons f fs ih =>
    simp only [List.map_cons, unpackBits, packBits, unpackBits_add_mul _ _ _ _ le_rfl, ih, List.cons.injEq, and_true]
    rw [Nat.add_comm, Nat.add_mul_div_right _ _ (Nat.two_pow_pos _), Nat.div_eq_of_lt (packBits_lt fs), Nat.zero_add, Nat.mod_mod]

theorem length_unpackBits (ws : List Nat) (n : Nat) : (unpackBits ws n).length = ws.length := by
  induction ws with
  | nil => rfl
  | cons w ws ih => simp [unpackBits, ih]

theorem packBits_unpackBits (ws : List Nat) (n : Nat) : packBits (ws.zip (unpackBits ws n)) = n % 2 ^ ws.sum := by
  induction ws with
  | nil => simp [packBits, unpackBits, Nat.mod_one]
  | cons w ws ih =>
    have hws : (ws.zip (unpackBits ws n)).map (·.1) = ws := List.map_fst_zip (length_unpackBits ws n).ge
    simp only [unpackBits, List.zip_cons_cons, packBits, hws, ih, List.sum_cons, Nat.mod_mod]
    rw [Nat.add_comm w, Nat.pow_add, Nat.mod_mul]
    ring

/-! ### The field maps -/

@[simp] theorem natBit_bitNat (b : Bool) : natBit (bitNat b) = b := by cases b <;> rfl
theorem bitNat_mod (b : Bool) : bitNat b % 2 ^ 1 = bitNat b := by cases b <;> rfl
@[simp] theorem bitNat_natBit_mod (n : Nat) : bitNat (natBit (n % 2)) = n % 2 := by
  obtain h | h := Nat.mod_two_eq_zero_or_one n <;> rw [h] <;> rfl

/-- A field map is sound: its fields fill the 56 bits below the opcode, a record is read back from its bits, and bits that are read as a
record are the record's. -/
structure FieldMap {α : Type} (bits : α → List (Nat × Nat)) (of : Nat → Option α) : Prop where
  width : ∀ x, ((bits x).map (·.1)).sum = 56
  read : ∀ x, of (packBits (bits x)) = some x
  back : ∀ {n x}, n < 2 ^ 56 → of n = some x → packBits (bits x) = n

/-- Bits that were cut by the widths of a map are packed again from fields of the same values. -/
theorem packBits_of_unpackBits {ws : List Nat} {n : Nat} {fs : List (Nat × Nat)} (hw : ws.sum = 56) (hn : n < 2 ^ 56)
    (hf : fs = ws.zip (unpackBits ws n)) : packBits fs = n := by
  rw [hf, packBits_unpackBits, hw, Nat.mod_eq_of_lt hn]

theorem fmtR_fieldMap : FieldMap fmtRBits fmtROf where
  width _ := by simp [fmtRBits]
  read x := by
    have h := unpackBits_packBits (fmtRBits x)
    simp only [fmtRBits, List.map_cons, List.map_nil, BitVec.toNat_mod_cancel] at h
    simp [fmtROf, fmtRBits, h]
  back {n x} hn h := by
    refine packBits_of_unpackBits (ws := [6, 6, 6, 6, 32]) rfl hn ?_
    simp only [fmtROf, unpackBits, Option.some.injEq] at h
    subst h
    simp [fmtRBits, unpackBits]

theorem fmtI_fieldMap : FieldMap fmtIBits fmtIOf where
  width _ := by simp [fmtIBits]
  read x := by
    have h := unpackBits_packBits (fmtIBits x)
    simp only [fmtIBits, List.map_cons, List.map_nil, BitVec.toNat_mod_cancel] at h
    simp [fmtIOf, fmtIBits, h]
  back {n x} hn h := by
    refine packBits_of_unpackBits (ws := [6, 6, 44]) rfl hn ?_
    simp only [fmtIOf, unpackBits, Option.some.injEq] at h
    subst h
    simp [fmtIBits, unpackBits]

theorem fmtL_fieldMap : FieldMap fmtLBits fmtLOf where
  width _ := by simp [fmtLBits]
  read x := by
    have h := unpackBits_packBits (fmtLBits x)
    simp only [fmtLBits, List.map_cons, List.map_nil, BitVec.toNat_mod_cancel] at h
    simp [fmtLOf, fmtLBits, h]
  back {n x} hn h := by
    refine packBits_of_unpackBits (ws := [6, 24, 16, 10]) rfl hn ?_
    simp only [fmtLOf, unpackBits, Option.ite_none_right_eq_some, Option.some.injEq] at h
    obtain ⟨h0, rfl⟩ := h
    simpa [fmtLBits, unpackBits] using h0.symm

theorem fmtP_fieldMap : FieldMap fmtPBits fmtPOf where
  width _ := by simp [fmtPBits]
  read x := by
    have h := unpackBits_packBits (fmtPBits x)
    simp only [fmtPBits, List.map_cons, List.map_nil, BitVec.toNat_mod_cancel] at h
    simp [fmtPOf, fmtPBits, h]
  back {n x} hn h := by
    refine packBits_of_unpackBits (ws := [3, 3, 3, 3, 6, 6, 32]) rfl hn ?_
    simp only [fmtPOf, unpackBits, Option.ite_none_right_eq_some, Option.some.injEq] at h
    obtain ⟨h0, rfl⟩ := h
    simpa [fmtPBits, unpackBits] using h0.symm

theorem fmtC_fieldMap : FieldMap fmtCBits fmtCOf where
  width _ := by simp [fmtCBits]
  read x := by
    have h := unpackBits_packBits (fmtCBits x)
    simp only [fmtCBits, List.map_cons, List.map_nil, BitVec.toNat_mod_cancel, bitNat_mod] at h
    simp [fmtCOf, fmtCBits, h]
  back {n x} hn h := by
    refine packBits_of_unpackBits (ws := [12, 3, 1, 24, 16]) rfl hn ?_
    simp only [fmtCOf, unpackBits, Option.some.injEq] at h
    subst h
    simp [fmtCBits, unpackBits]

theorem fmtS_fieldMap : FieldMap fmtSBits fmtSOf where
  width _ := by simp [fmtSBits]
  read x := by
    have h := unpackBits_packBits (fmtSBits x)
    simp only [fmtSBits, List.map_cons, List.map_nil, BitVec.toNat_mod_cancel, bitNat_mod] at h
    simp [fmtSOf, fmtSBits, h]
  back {n x} hn h := by
    refine packBits_of_unpackBits (ws := [12, 3, 4, 1, 24, 12]) rfl hn ?_
    simp only [fmtSOf, unpackBits, Option.ite_none_right_eq_some, Option.some.injEq] at h
    obtain ⟨h0, rfl⟩ := h
    simpa [fmtSBits, unpackBits] using h0.symm

theorem fmtH_fieldMap : FieldMap fmtHBits fmtHOf where
  width _ := by simp [fmtHBits]
  read x := by
    have h := unpackBits_packBits (fmtHBits x)
    simp only [fmtHBits, List.map_cons, List.map_nil, BitVec.toNat_mod_cancel] at h
    simp [fmtHOf, fmtHBits, h]
  back {n x} hn h := by
    refine packBits_of_unpackBits (ws := [4, 8, 44]) rfl hn ?_
    simp only [fmtHOf, unpackBits, Option.ite_none_right_eq_some, Option.some.injEq] at h
    obtain ⟨h0, rfl⟩ := h
    simpa [fmtHBits, unpackBits] using h0.symm

theorem fmtM_fieldMap : FieldMap fmtMBits fmtMOf where
  width _ := by simp [fmtMBits]
  read x := by
    have h := unpackBits_packBits (fmtMBits x)
    simp only [fmtMBits, List.map_cons, List.map_nil, BitVec.toNat_mod_cancel, bitNat_mod] at h
    simp [fmtMOf, fmtMBits, h]
  back {n x} hn h := by
    refine packBits_of_unpackBits (ws := [6, 6, 12, 12, 1, 1, 18]) rfl hn ?_
    simp only [fmtMOf, unpackBits, Option.some.injEq] at h
    subst h
    simp [fmtMBits, unpackBits]

theorem fmtMload_fieldMap : FieldMap fmtMloadBits fmtMloadOf where
  width _ := by simp [fmtMloadBits]
  read x := by
    have h := unpackBits_packBits (fmtMloadBits x)
    simp only [fmtMloadBits, List.map_cons, List.map_nil, BitVec.toNat_mod_cancel, bitNat_mod] at h
    simp [fmtMloadOf, fmtMloadBits, h]
  back {n x} hn h := by
    refine packBits_of_unpackBits (ws := [2, 6, 6, 6, 4, 1, 2, 8, 6, 15]) rfl hn ?_
    simp only [fmtMloadOf, unpackBits, Option.ite_none_right_eq_some, Option.some.injEq] at h
    obtain ⟨h0, rfl⟩ := h
    simpa [fmtMloadBits, unpackBits] using h0.symm

theorem fmtMstr_fieldMap : FieldMap fmtMstrBits fmtMstrOf where
  width _ := by simp [fmtMstrBits]
  read x := by
    have h := unpackBits_packBits (fmtMstrBits x)
    simp only [fmtMstrBits, List.map_cons, List.map_nil, BitVec.toNat_mod_cancel, bitNat_mod] at h
    simp [fmtMstrOf, fmtMstrBits, h]
  back {n x} hn h := by
    refine packBits_of_unpackBits (ws := [2, 6, 6, 6, 4, 1, 4, 1, 3, 1, 11, 6, 2, 3]) rfl hn ?_
    simp only [fmtMstrOf, unpackBits, Option.ite_none_right_eq_some, Option.some.injEq] at h
    obtain ⟨h0, rfl⟩ := h
    simpa [fmtMstrBits, unpackBits] using h0.symm

theorem fmtMdrain_fieldMap : FieldMap fmtMdrainBits fmtMdrainOf where
  width _ := by simp [fmtMdrainBits]
  read x := by
    have h := unpackBits_packBits (fmtMdrainBits x)
    simp only [fmtMdrainBits, List.map_cons, List.map_nil, BitVec.toNat_mod_cancel, bitNat_mod] at h
    simp [fmtMdrainOf, fmtMdrainBits, h]
  back {n x} hn h := by
    refine packBits_of_unpackBits (ws := [2, 6, 6, 6, 3, 8, 6, 4, 1, 2, 1, 1, 6, 4]) rfl hn ?_
    simp only [fmtMdrainOf, unpackBits, Option.ite_none_right_eq_some, Option.some.injEq] at h
    obtain ⟨h0, rfl⟩ := h
    simpa [fmtMdrainBits, unpackBits] using h0.symm

theorem fmtMew_fieldMap : FieldMap fmtMewBits fmtMewOf where
  width _ := by simp [fmtMewBits]
  read x := by
    have h := unpackBits_packBits (fmtMewBits x)
    simp only [fmtMewBits, List.map_cons, List.map_nil, BitVec.toNat_mod_cancel] at h
    simp [fmtMewOf, fmtMewBits, h]
  back {n x} hn h := by
    refine packBits_of_unpackBits (ws := [2, 6, 6, 6, 4, 4, 16, 12]) rfl hn ?_
    simp only [fmtMewOf, unpackBits, Option.ite_none_right_eq_some, Option.some.injEq] at h
    obtain ⟨h0, rfl⟩ := h
    simpa [fmtMewBits, unpackBits] using h0.symm

theorem fmtV_fieldMap : FieldMap fmtVBits fmtVOf where
  width _ := by simp [fmtVBits]
  read x := by
    have h := unpackBits_packBits (fmtVBits x)
    simp only [fmtVBits, List.map_cons, List.map_nil, BitVec.toNat_mod_cancel, bitNat_mod] at h
    simp [fmtVOf, fmtVBits, h]
  back {n x} hn h := by
    refine packBits_of_unpackBits (ws := [5, 5, 5, 5, 3, 1, 2, 2, 1, 6, 21]) rfl hn ?_
    simp only [fmtVOf, unpackBits, Option.some.injEq] at h
    subst h
    simp [fmtVBits, unpackBits]

theorem fmtVM_fieldMap : FieldMap fmtVMBits fmtVMOf where
  width _ := by simp [fmtVMBits]
  read x := by
    have h := unpackBits_packBits (fmtVMBits x)
    simp only [fmtVMBits, List.map_cons, List.map_nil, BitVec.toNat_mod_cancel, bitNat_mod] at h
    simp [fmtVMOf, fmtVMBits, h]
  back {n x} hn h := by
    refine packBits_of_unpackBits (ws := [5, 6, 4, 3, 1, 2, 2, 2, 1, 1, 1, 6, 6, 6, 10]) rfl hn ?_
    simp only [fmtVMOf, unpackBits, Option.ite_none_right_eq_some, Option.some.injEq] at h
    obtain ⟨h0, rfl⟩ := h
    simpa [fmtVMBits, unpackBits] using h0.symm

theorem fmtVB_fieldMap : FieldMap fmtVBBits fmtVBOf where
  width _ := by simp [fmtVBBits]
  read x := by
    have h := unpackBits_packBits (fmtVBBits x)
    simp only [fmtVBBits, List.map_cons, List.map_nil, BitVec.toNat_mod_cancel] at h
    simp [fmtVBOf, fmtVBBits, h]
  back {n x} hn h := by
    refine packBits_of_unpackBits (ws := [5, 6, 6, 6, 6, 3, 2, 2, 20]) rfl hn ?_
    simp only [fmtVBOf, unpackBits, Option.ite_none_right_eq_some, Option.some.injEq] at h
    obtain ⟨h0, rfl⟩ := h
    simpa [fmtVBBits, unpackBits] using h0.symm

theorem fmtFlags_fieldMap : FieldMap fmtFlagsBits fmtFlagsOf where
  width _ := by simp [fmtFlagsBits]
  read x := by
    have h := unpackBits_packBits (fmtFlagsBits x)
    simp only [fmtFlagsBits, List.map_cons, List.map_nil, BitVec.toNat_mod_cancel] at h
    simp [fmtFlagsOf, fmtFlagsBits, h]
  back {n x} hn h := by
    refine packBits_of_unpackBits (ws := [6, 8, 42]) rfl hn ?_
    simp only [fmtFlagsOf, unpackBits, Option.ite_none_right_eq_some, Option.some.injEq] at h
    obtain ⟨h0, rfl⟩ := h
    simpa [fmtFlagsBits, unpackBits] using h0.symm

theorem fmtVstat_fieldMap : FieldMap fmtVstatBits fmtVstatOf where
  width _ := by simp [fmtVstatBits]
  read x := by
    have h := unpackBits_packBits (fmtVstatBits x)
    simp only [fmtVstatBits, List.map_cons, List.map_nil, BitVec.toNat_mod_cancel] at h
    simp [fmtVstatOf, fmtVstatBits, h]
  back {n x} hn h := by
    refine packBits_of_unpackBits (ws := [3, 6, 47]) rfl hn ?_
    simp only [fmtVstatOf, unpackBits, Option.ite_none_right_eq_some, Option.some.injEq] at h
    obtain ⟨h0, rfl⟩ := h
    simpa [fmtVstatBits, unpackBits] using h0.symm

/-! ### Words -/

theorem FieldMap.map_read {α β : Type} {bits : α → List (Nat × Nat)} {of : Nat → Option α} (hf : FieldMap bits of) (C : α → β) (x : α) :
    (of (packBits (bits x))).map C = some (C x) := by rw [hf.read, Option.map_some]

/-- Bits of a field map that decode to an operation of the map are its bits, under its opcode. -/
theorem FieldMap.decoded {α : Type} {bits : α → List (Nat × Nat)} {of : Nat → Option α} (hf : FieldMap bits of) {n opc : Nat} {op : IsaOp}
    {C : α → IsaOp} (hn : n < 2 ^ 56) (h : (of n).map C = some op) (hopc : ∀ x, opcodeOf (C x) = opc) (hbits : ∀ x, bitsOf (C x) = bits x) :
    opcodeOf op = opc ∧ packBits (bitsOf op) = n := by
  obtain ⟨x, hx, rfl⟩ := Option.map_eq_some_iff.1 h
  exact ⟨hopc x, by rw [hbits, hf.back hn hx]⟩

/-- The same of an operation without fields. -/
theorem decoded_noFields {n opc : Nat} {op c : IsaOp} (h : (if n = 0 then some c else none) = some op) (hopc : opcodeOf c = opc)
    (hbits : bitsOf c = [(56, 0)]) : opcodeOf op = opc ∧ packBits (bitsOf op) = n := by
  obtain ⟨rfl, hc⟩ := Option.ite_none_right_eq_some.1 h
  cases hc
  exact ⟨hopc, by rw [hbits]; rfl⟩

theorem width_bitsOf (op : IsaOp) : ((bitsOf op).map (·.1)).sum = 56 := by
  cases op with
  | nop | stend | jobend | commit =>
    rfl
  | slotpat x | rdspec x | li x | lih x | lds x | sts x =>
    exact fmtI_fieldMap.width x
  | loop x =>
    exact fmtL_fieldMap.width x
  | add x | sub x | mul x | and x | or x | xor x | shl x | shr x | sra x | min x | max x | minu x | maxu x | cmp x | sel x
  =>
    exact fmtR_fieldMap.width x
  | pand x | por x | pxor x | pandn x | pfirst x | pcnt x =>
    exact fmtP_fieldMap.width x
  | scadd x | scsub x | wait x =>
    exact fmtC_fieldMap.width x
  | signal x =>
    exact fmtS_fieldMap.width x
  | hint x =>
    exact fmtH_fieldMap.width x
  | mcopy x | calarm x | gather x | scatter x | nsend x | nrecv x | ncoll x =>
    exact fmtM_fieldMap.width x
  | mload x =>
    exact fmtMload_fieldMap.width x
  | mstr x | mstrt x =>
    exact fmtMstr_fieldMap.width x
  | mdrain x =>
    exact fmtMdrain_fieldMap.width x
  | mew x =>
    exact fmtMew_fieldMap.width x
  | vadd x | vsub x | vmul x | vfma x | vmin x | vmax x | vcmp x | vsel x | vand x | vor x | vxor x | vshl x | vshr x
  | vsra x | vsgn x | vcvt x | vrnd x | vtr x | vred x | vcpr x | vxpd x =>
    exact fmtV_fieldMap.width x
  | vld x | vst x =>
    exact fmtVM_fieldMap.width x
  | vcpst x | vxpld x =>
    exact fmtVB_fieldMap.width x
  | vstat x =>
    exact fmtVstat_fieldMap.width x
  | flags x =>
    exact fmtFlags_fieldMap.width x

theorem opcodeOf_lt (op : IsaOp) : opcodeOf op < 2 ^ 8 := by
  cases op <;> simp [opcodeOf]

/-- The opcode and the fields of an operation decode to it. -/
theorem decodeFields_opcodeOf (op : IsaOp) : decodeFields (opcodeOf op) (packBits (bitsOf op)) = some op := by
  cases op with
  | nop | stend | jobend | commit =>
    rfl
  | slotpat x | rdspec x | li x | lih x | lds x | sts x =>
    exact fmtI_fieldMap.map_read _ x
  | loop x =>
    exact fmtL_fieldMap.map_read _ x
  | add x | sub x | mul x | and x | or x | xor x | shl x | shr x | sra x | min x | max x | minu x | maxu x | cmp x | sel x
  =>
    exact fmtR_fieldMap.map_read _ x
  | pand x | por x | pxor x | pandn x | pfirst x | pcnt x =>
    exact fmtP_fieldMap.map_read _ x
  | scadd x | scsub x | wait x =>
    exact fmtC_fieldMap.map_read _ x
  | signal x =>
    exact fmtS_fieldMap.map_read _ x
  | hint x =>
    exact fmtH_fieldMap.map_read _ x
  | mcopy x | calarm x | gather x | scatter x | nsend x | nrecv x | ncoll x =>
    exact fmtM_fieldMap.map_read _ x
  | mload x =>
    exact fmtMload_fieldMap.map_read _ x
  | mstr x | mstrt x =>
    exact fmtMstr_fieldMap.map_read _ x
  | mdrain x =>
    exact fmtMdrain_fieldMap.map_read _ x
  | mew x =>
    exact fmtMew_fieldMap.map_read _ x
  | vadd x | vsub x | vmul x | vfma x | vmin x | vmax x | vcmp x | vsel x | vand x | vor x | vxor x | vshl x | vshr x
  | vsra x | vsgn x | vcvt x | vrnd x | vtr x | vred x | vcpr x | vxpd x =>
    exact fmtV_fieldMap.map_read _ x
  | vld x | vst x =>
    exact fmtVM_fieldMap.map_read _ x
  | vcpst x | vxpld x =>
    exact fmtVB_fieldMap.map_read _ x
  | vstat x =>
    exact fmtVstat_fieldMap.map_read _ x
  | flags x =>
    exact fmtFlags_fieldMap.map_read _ x

/-- An opcode and 56 bits that spell an operation are its opcode and its fields. -/
theorem decodeFields_eq_some {opc n : Nat} {op : IsaOp} (hn : n < 2 ^ 56) (h : decodeFields opc n = some op) :
    opcodeOf op = opc ∧ packBits (bitsOf op) = n := by
  unfold decodeFields at h
  split at h
  case h_1 | h_2 | h_3 | h_4 =>
    exact decoded_noFields h rfl rfl
  case h_5 | h_7 | h_23 | h_24 | h_25 | h_26 =>
    exact fmtI_fieldMap.decoded hn h (fun _ => rfl) (fun _ => rfl)
  case h_6 =>
    exact fmtL_fieldMap.decoded hn h (fun _ => rfl) (fun _ => rfl)
  case h_8 | h_9 | h_10 | h_11 | h_12 | h_13 | h_14 | h_15 | h_16 | h_17 | h_18 | h_19 | h_20 | h_21 | h_22 =>
    exact fmtR_fieldMap.decoded hn h (fun _ => rfl) (fun _ => rfl)
  case h_27 | h_28 | h_29 | h_30 | h_31 | h_32 =>
    exact fmtP_fieldMap.decoded hn h (fun _ => rfl) (fun _ => rfl)
  case h_33 | h_34 | h_35 =>
    exact fmtC_fieldMap.decoded hn h (fun _ => rfl) (fun _ => rfl)
  case h_36 =>
    exact fmtS_fieldMap.decoded hn h (fun _ => rfl) (fun _ => rfl)
  case h_37 =>
    exact fmtH_fieldMap.decoded hn h (fun _ => rfl) (fun _ => rfl)
  case h_38 | h_39 | h_40 | h_41 | h_42 | h_43 | h_44 =>
    exact fmtM_fieldMap.decoded hn h (fun _ => rfl) (fun _ => rfl)
  case h_45 =>
    exact fmtMload_fieldMap.decoded hn h (fun _ => rfl) (fun _ => rfl)
  case h_46 | h_47 =>
    exact fmtMstr_fieldMap.decoded hn h (fun _ => rfl) (fun _ => rfl)
  case h_48 =>
    exact fmtMdrain_fieldMap.decoded hn h (fun _ => rfl) (fun _ => rfl)
  case h_49 =>
    exact fmtMew_fieldMap.decoded hn h (fun _ => rfl) (fun _ => rfl)
  case h_50 | h_51 | h_52 | h_53 | h_54 | h_55 | h_56 | h_57 | h_58 | h_59 | h_60 | h_61 | h_62 | h_63 | h_64 | h_65
  | h_66 | h_67 | h_68 | h_69 | h_70 =>
    exact fmtV_fieldMap.decoded hn h (fun _ => rfl) (fun _ => rfl)
  case h_71 | h_72 =>
    exact fmtVM_fieldMap.decoded hn h (fun _ => rfl) (fun _ => rfl)
  case h_73 | h_74 =>
    exact fmtVB_fieldMap.decoded hn h (fun _ => rfl) (fun _ => rfl)
  case h_75 =>
    exact fmtVstat_fieldMap.decoded hn h (fun _ => rfl) (fun _ => rfl)
  case h_76 =>
    exact fmtFlags_fieldMap.decoded hn h (fun _ => rfl) (fun _ => rfl)
  case h_77 => cases h

theorem toNat_encodeWord (op : IsaOp) : (encodeWord op).toNat = opcodeOf op * 2 ^ 56 + packBits (bitsOf op) := by
  have hlt := packBits_lt ((8, opcodeOf op) :: bitsOf op)
  rw [List.map_cons, List.sum_cons, width_bitsOf] at hlt
  rw [encodeWord, BitVec.toNat_ofNat, Nat.mod_eq_of_lt hlt, packBits, width_bitsOf, Nat.mod_eq_of_lt (opcodeOf_lt op)]

theorem decodeWord_encodeWord (op : IsaOp) : decodeWord (encodeWord op) = some op := by
  have hlt : packBits (bitsOf op) < 2 ^ 56 := width_bitsOf op ▸ packBits_lt (bitsOf op)
  have hopc : (opcodeOf op * 2 ^ 56 + packBits (bitsOf op)) / 2 ^ 56 = opcodeOf op := by omega
  have hbits : (opcodeOf op * 2 ^ 56 + packBits (bitsOf op)) % 2 ^ 56 = packBits (bitsOf op) := by omega
  rw [decodeWord, toNat_encodeWord, hopc, hbits, decodeFields_opcodeOf]

/-- Settles O59: the opcode and the 56 bits below it are the quotient and the remainder of the word, and each field map reads and packs
its bits soundly. -/
theorem wordsRoundTrip : Obligations.WordsRoundTrip := by
  refine ⟨decodeWord_encodeWord, fun w op h => BitVec.eq_of_toNat_eq ?_⟩
  obtain ⟨hopc, hbits⟩ := decodeFields_eq_some (Nat.mod_lt _ (Nat.two_pow_pos 56)) h
  rw [toNat_encodeWord, hopc, hbits, Nat.mul_comm, Nat.div_add_mod]

end Sys2Proof
end

section
/-!
PROOFS. The queue, the fuses and the device stroke number through every command; the hold of a boundary and the records of the replay ring
through all that does not set them.
-/

namespace Sys2Proof.Machine

open Sys2Proof

/-- What almost no operation changes. -/
structure Fixed where
  fuses : Fuses
  queue : List Instr
  devStroke : DWord
  hold : HoldAt
  replayRecs : List LedgerRec

/-- The fuses and the queue, which only the advance of the firmware's SVN touches, the device stroke number, which only a boundary raises and
a reset clears, the hold of the boundary, and the records of the replay ring. -/
def State.fixed (s : State) : Fixed := ⟨s.fuses, s.pending, s.stroke.devStroke, s.stroke.hold, s.stp.replayRecs⟩

@[simp] theorem fixed_mk (pending fuses regs latches loHeld mgmt stroke job epoch ring roles cores flights stp mem fab load asy brn blame
    blamed pwr free) : State.fixed ⟨pending, fuses, regs, latches, loHeld, mgmt, stroke, job, epoch, ring, roles, cores, flights, stp, mem,
    fab, load, asy, brn, blame, blamed, pwr, free⟩ = ⟨fuses, pending, stroke.devStroke, stroke.hold, stp.replayRecs⟩ := by simp only [State.fixed]

@[simp] theorem fixed_eta (s : State) :
    Fixed.mk s.fuses s.pending s.stroke.devStroke s.stroke.hold s.stp.replayRecs = s.fixed := by simp only [State.fixed]

theorem fixed_drainNext (s : State) : ({ s with stroke := { s.stroke with drainNext := true } } : State).fixed = s.fixed := rfl

theorem fixed_foldl {α : Type} {f : State → α → State} (h : ∀ s a, (f s a).fixed = s.fixed) (l : List α) (s : State) :
    (l.foldl f s).fixed = s.fixed := by
  induction l generalizing s with
  | nil => rfl
  | cons a l ih => rw [List.foldl_cons, ih, h]

theorem fixed_foldl_fst {α β : Type} {f : State × β → α → State × β} (h : ∀ x a, (f x a).1.fixed = x.1.fixed) (l : List α) (x : State × β) :
    (l.foldl f x).1.fixed = x.1.fixed := by
  induction l generalizing x with
  | nil => rfl
  | cons a l ih => rw [List.foldl_cons, ih, h]

theorem fixed_foldl_snd {α β : Type} {f : β × State → α → β × State} (h : ∀ x a, (f x a).2.fixed = x.2.fixed) (l : List α) (x : β × State) :
    (l.foldl f x).2.fixed = x.2.fixed := by
  induction l generalizing x with
  | nil => rfl
  | cons a l ih => rw [List.foldl_cons, ih, h]

/-- The queue and every fuse but the firmware's SVN keep their values; that one, within 64, never falls and stays there. -/
structure Advances (x y : Fixed) : Prop where
  queue : y.queue = x.queue
  fuses : y.fuses = { x.fuses with minSvn := y.fuses.minSvn }
  range : x.fuses.minSvn ≤ 64 → x.fuses.minSvn ≤ y.fuses.minSvn ∧ y.fuses.minSvn ≤ 64

/-- And the device stroke number keeps its value too. -/
structure Rises (x y : Fixed) : Prop extends Advances x y where
  devStroke : y.devStroke = x.devStroke

@[simp] theorem Rises.refl (x : Fixed) : Rises x x := ⟨⟨rfl, rfl, fun h => ⟨le_rfl, h⟩⟩, rfl⟩

theorem Advances.trans {x y z : Fixed} (h : Advances x y) (k : Advances y z) : Advances x z := by
  refine ⟨k.queue.trans h.queue, by rw [k.fuses, h.fuses], fun hx => ?_⟩
  obtain ⟨hxy, hy⟩ := h.range hx
  exact ⟨hxy.trans (k.range hy).1, (k.range hy).2⟩

theorem Rises.trans {x y z : Fixed} (h : Rises x y) (k : Rises y z) : Rises x z :=
  ⟨h.toAdvances.trans k.toAdvances, k.devStroke.trans h.devStroke⟩

/-- Another stroke number, hold and replay ring alone are no change of the queue and the fuses. -/
@[simp] theorem advances_stroke (s : State) (n : DWord) (h : HoldAt) (rs : List LedgerRec) :
    Advances s.fixed ⟨s.fuses, s.pending, n, h, rs⟩ := ⟨rfl, rfl, fun h => ⟨le_rfl, h⟩⟩

/-- Nor are a hold and a replay ring a change of the stroke number. -/
@[simp] theorem rises_hold (s : State) (h : HoldAt) (rs : List LedgerRec) :
    Rises s.fixed ⟨s.fuses, s.pending, s.stroke.devStroke, h, rs⟩ := ⟨advances_stroke .., rfl⟩

@[simp] theorem Advances.refl (x : Fixed) : Advances x x := (Rises.refl x).toAdvances

/-- What changes neither the queue nor a fuse, behind what lets the SVN rise. -/
theorem Rises.then_kept {x : Fixed} {s t : State} (h : Rises x s.fixed) (k : t.fixed = s.fixed) : Rises x t.fixed := k ▸ h

/-- What lets the SVN rise, behind what changes neither the queue nor a fuse. -/
theorem Rises.of_kept {s t : State} {x : Fixed} (h : t.fixed = s.fixed) (k : Rises t.fixed x) : Rises s.fixed x := h ▸ k

/-! ### Pages -/

@[simp] theorem fixed_rset (s : State) (off : Nat) (v : Word) : (s.rset off v).fixed = s.fixed := by simp [State.rset]
@[simp] theorem fixed_rsetField (s : State) (off lsb wid v : Nat) : (s.rsetField off lsb wid v).fixed = s.fixed := by simp [State.rsetField]
@[simp] theorem fixed_bump (s : State) (off n : Nat) : (s.bump off n).fixed = s.fixed := by simp [State.bump]
@[simp] theorem fixed_setPair (s : State) (lo n : Nat) : (s.setPair lo n).fixed = s.fixed := by simp [State.setPair]
@[simp] theorem fixed_bumpPair (s : State) (lo n : Nat) : (s.bumpPair lo n).fixed = s.fixed := by
  unfold State.bumpPair; split <;> simp
@[simp] theorem fixed_rclear (s : State) (x1 : List Nat) : (s.rclear x1).fixed = s.fixed := by
  induction x1 generalizing s with
  | nil => rfl
  | cons o os ih => exact (ih _).trans (fixed_rset s o 0)
@[simp] theorem fixed_setRole (s : State) (p : Nat) (r : RoleSt) : (s.setRole p r).fixed = s.fixed := by simp [State.setRole]
@[simp] theorem fixed_setCore (s : State) (p : Nat) (c : Core) : (s.setCore p c).fixed = s.fixed := by simp [State.setCore]
@[simp] theorem fixed_draw (s : State) : (s.draw).2.fixed = s.fixed := by simp [State.draw]

/-! ### Views -/

@[simp] theorem fixed_takeTaps (s : State) : (s.takeTaps).fixed = s.fixed := by simp [State.takeTaps]
@[simp] theorem fixed_readReg (s : State) (path : Path) (off : Nat) : (s.readReg path off).2.fixed = s.fixed := by
  unfold State.readReg
  split
  · rfl
  · rfl
  · split <;> rfl

/-! ### Events -/

@[simp] theorem fixed_send (s : State) (m : OutMsg) : (s.send m).fixed = s.fixed := by simp [State.send]
@[simp] theorem fixed_logWrite (s : State) (r : EvtRec) : (s.logWrite r).fixed = s.fixed := by simp [State.logWrite]
@[simp] theorem fixed_hostLogRec (s : State) (r : EvtRec) : (s.hostLogRec r).fixed = s.fixed := by
  unfold State.hostLogRec; dsimp only; (repeat' split) <;> simp
@[simp] theorem fixed_logRec (s : State) (r : EvtRec) (masked : Bool) : (s.logRec r masked).fixed = s.fixed := by
  unfold State.logRec; dsimp only; (repeat' split) <;> simp
@[simp] theorem fixed_setEvt (s : State) (pg : Page) (bit : Nat) (caps : List (Nat × Nat)) : (s.setEvt pg bit caps).fixed = s.fixed := by
  unfold State.setEvt; dsimp only
  split
  · exact (fixed_foldl (fun s c => fixed_rset s _ _) _ _).trans (by simp)
  · simp
@[simp] theorem fixed_stepMark (s : State) (e : Ev) : (s.stepMark e).fixed = s.fixed := by
  unfold State.stepMark; dsimp only; (repeat' split) <;> simp
@[simp] theorem fixed_raise (s : State) (e : Ev) : (s.raise e).fixed = s.fixed := by
  unfold State.raise; dsimp only; (repeat' split) <;> simp
@[simp] theorem fixed_once (s : State) (key : Nat × Nat) : (s.once key).2.fixed = s.fixed := by
  unfold State.once; split <;> simp
@[simp] theorem fixed_raiseOnce (s : State) (e : Ev) (key : Nat) : (s.raiseOnce e key).fixed = s.fixed := by simp [State.raiseOnce]
@[simp] theorem fixed_raiseM (s : State) (code page low waiter detail : Nat) :
    (s.raiseM code page low waiter detail).fixed = s.fixed := by simp [State.raiseM]
@[simp] theorem fixed_setDegraded (s : State) : (s.setDegraded).fixed = s.fixed := by simp [State.setDegraded]

/-! ### Regs -/

@[simp] theorem fixed_writeWord (s : State) (path : Path) (pg : Page) (off : Nat) (v : Word) :
    (s.writeWord path pg off v).fixed = s.fixed := by
  unfold State.writeWord; dsimp only; (repeat' split) <;> simp
@[simp] theorem fixed_evtClear (s : State) (pg : Page) (bits : Word) : (s.evtClear pg bits).fixed = s.fixed := by simp [State.evtClear]
@[simp] theorem fixed_forceBit (s : State) (pg : Page) (k : Nat) : (s.forceBit pg k).fixed = s.fixed := by
  unfold State.forceBit; split <;> simp
@[simp] theorem fixed_evtForce (s : State) (pg : Page) (bits : Word) : (s.evtForce pg bits).fixed = s.fixed := by
  unfold State.evtForce; split <;> simp [fixed_foldl]
@[simp] theorem fixed_writeCtl (s : State) (pg : Page) (v : Word) : (s.writeCtl pg v).fixed = s.fixed := by
  unfold State.writeCtl; split <;> simp
@[simp] theorem fixed_writeLock (s : State) (path : Path) (pg : Page) (v : Word) :
    (s.writeLock path pg v).fixed = s.fixed := by simp [State.writeLock]
@[simp] theorem fixed_writeCommon (s : State) (path : Path) (pg : Page) (o : Nat) (v : Word) :
    (s.writeCommon path pg o v).fixed = s.fixed := by
  unfold State.writeCommon
  split_ifs <;> simp

/-! ### Net -/

@[simp] theorem fixed_setFlow (s : State) (f : Nat) (x : FlowSt) : (s.setFlow f x).fixed = s.fixed := by simp [State.setFlow]
@[simp] theorem fixed_setPort (s : State) (q : Nat) (x : PortSt) : (s.setPort q x).fixed = s.fixed := by simp [State.setPort]
@[simp] theorem fixed_onPort (s : State) (q f : Nat) (p : Pkt) : (s.onPort q f p).fixed = s.fixed := by simp [State.onPort]
@[simp] theorem fixed_transmit (s : State) (f : Nat) (p : Pkt) : (s.transmit f p).fixed = s.fixed := by
  unfold State.transmit; split <;> simp
@[simp] theorem fixed_sendPlain (s : State) (f typ flags : Nat) (seq : Word) (payload : List Byte) :
    (s.sendPlain f typ flags seq payload).fixed = s.fixed := by simp [State.sendPlain]
@[simp] theorem fixed_sendAnswer (s : State) (f typ flags : Nat) (ep seq : Word) (payload : List Byte) :
    (s.sendAnswer f typ flags ep seq payload).fixed = s.fixed := by simp [State.sendAnswer]
@[simp] theorem fixed_sendSeq (s : State) (f typ flags field : Nat) (coll tree : Word) (ofs : Nat) (step : DWord) (payload : List Byte) :
    (s.sendSeq f typ flags field coll tree ofs step payload).fixed = s.fixed := by simp [State.sendSeq]
@[simp] theorem fixed_sendPieces (f typ flags field : Nat) (coll tree : Word) (step : DWord) (nf : Bool) (x8 x9 : Nat) (x10 : List Byte) (x11 : State) :
    (State.sendPieces f typ flags field coll tree step nf x8 x9 x10 x11).fixed = x11.fixed := by
  induction x8 generalizing x9 x10 x11 with
  | zero => rfl
  | succ n ih => unfold State.sendPieces; dsimp only; split <;> simp [ih]
@[simp] theorem fixed_sendMsg (s : State) (f typ flags field : Nat) (coll tree : Word) (step : DWord) (nf : Bool) (base : Nat) (bs : List Byte) :
    (s.sendMsg f typ flags field coll tree step nf base bs).fixed = s.fixed := by simp [State.sendMsg]
@[simp] theorem fixed_cutRate (s : State) (f : Nat) : (s.cutRate f).fixed = s.fixed := by
  unfold State.cutRate; dsimp only; (repeat' split) <;> simp
@[simp] theorem fixed_riseRate (s : State) (f : Nat) : (s.riseRate f).fixed = s.fixed := by simp [State.riseRate]
@[simp] theorem fixed_blameRecord (s : State) (reporter suspect reason : Nat) (lastHeard : DWord) :
    (s.blameRecord reporter suspect reason lastHeard).fixed = s.fixed := by
  unfold State.blameRecord; dsimp only; (repeat' split) <;> simp
@[simp] theorem fixed_sendBlame (s : State) (suspect reason detail : Nat) : (s.sendBlame suspect reason detail).fixed = s.fixed := by
  unfold State.sendBlame
  exact fixed_foldl (fun s a => by (repeat' split) <;> simp) _ _
@[simp] theorem fixed_blameOnce (s : State) (suspect reason detail : Nat) : (s.blameOnce suspect reason detail).fixed = s.fixed := by
  unfold State.blameOnce; split <;> simp
@[simp] theorem fixed_lastGasp (s : State) (reason detail : Nat) : (s.lastGasp reason detail).fixed = s.fixed := by
  unfold State.lastGasp; split <;> simp [fixed_foldl]
@[simp] theorem fixed_raisePeer (s : State) (code sev peer : Nat) (coll : Word) (detail : Nat) :
    (s.raisePeer code sev peer coll detail).fixed = s.fixed := by simp [State.raisePeer]
@[simp] theorem fixed_sendAck (s : State) (f : Nat) : (s.sendAck f).fixed = s.fixed := by
  unfold State.sendAck; dsimp only; (repeat' split) <;> simp
@[simp] theorem fixed_sendNack (s : State) (f : Nat) (ep seq : Word) (reason : Nat) :
    (s.sendNack f ep seq reason).fixed = s.fixed := by simp [State.sendNack]
@[simp] theorem fixed_tellGaps (s : State) (f : Nat) : (s.tellGaps f).fixed = s.fixed := by simp [State.tellGaps, fixed_foldl]
@[simp] theorem fixed_checkEpoch (s : State) (f : Nat) (p : Pkt) (ce : Bool) : (s.checkEpoch f p ce).2.2.fixed = s.fixed := by
  unfold State.checkEpoch; dsimp only; (repeat' split) <;> simp
@[simp] theorem fixed_check (s : State) (r : Rx) (f : Nat) : (s.check r f).2.2.fixed = s.fixed := by
  unfold State.check; dsimp only; (repeat' split) <;> simp
@[simp] theorem fixed_enter (s : State) (f : Nat) (p : Pkt) : (s.enter f p).2.fixed = s.fixed := by
  unfold State.enter; dsimp only; (repeat' split) <;> simp
@[simp] theorem fixed_complete (s : State) (f : Nat) (p : Pkt) (base : Nat) : (s.complete f p base).2.fixed = s.fixed := by
  unfold State.complete; dsimp only; (repeat' split) <;> simp
@[simp] theorem fixed_readyData (s : State) (f x2 : Nat) : (s.readyData f x2).2.fixed = s.fixed := by
  induction x2 generalizing s with
  | zero => rfl
  | succ n ih =>
    unfold State.readyData; dsimp only
    split
    · rfl
    · next p _ =>
      have h := fixed_complete s f p 0
      split <;> next hc => simpa [hc, ih] using h
@[simp] theorem fixed_takeAck (s : State) (f : Nat) (seq : Word) : (s.takeAck f seq).fixed = s.fixed := by simp [State.takeAck]
@[simp] theorem fixed_resend (s : State) (f : Nat) (r : Retained) (counted : Bool) :
    (s.resend f r counted).fixed = s.fixed := by simp [State.resend]
@[simp] theorem fixed_abandon (s : State) (f : Nat) (r : Retained) : (s.abandon f r).fixed = s.fixed := by simp [State.abandon, fixed_foldl]

/-! ### CoreEv -/

@[simp] theorem fixed_coreRaise (s : State) (p v code id waiter detail : Nat) (caps : List Nat) :
    (s.coreRaise p v code id waiter detail caps).fixed = s.fixed := by
  unfold State.coreRaise; dsimp only; (repeat' split) <;> simp
@[simp] theorem fixed_addrEvent (s : State) (v : Nat) (st : Stream) (opc detail : Nat) : (s.addrEvent v st opc detail).fixed = s.fixed := by
  unfold State.addrEvent; split <;> simp
@[simp] theorem fixed_ctrAdd (s : State) (p v ctr : Nat) (d : Word) (source : Nat) : (s.ctrAdd p v ctr d source).fixed = s.fixed := by
  unfold State.ctrAdd
  exact fixed_foldl (fun s a => by split <;> simp) _ _
@[simp] theorem fixed_muUp (s : State) (v : Nat) (ctr : Option Nat) : (s.muUp v ctr).fixed = s.fixed := by
  unfold State.muUp; split <;> simp
@[simp] theorem fixed_flight (s : State) (src dst travel : Nat) (st : Stream) (opc : Nat) (items : List Item) :
    (s.flight src dst travel st opc items).fixed = s.fixed := by
  unfold State.flight; split <;> simp

/-! ### Coll -/

@[simp] theorem fixed_raiseFlagsAt (s : State) (v : Nat) (st : Stream) (f : Flg) : (s.raiseFlagsAt v st f).fixed = s.fixed := by
  unfold State.raiseFlagsAt; dsimp only; (repeat' split) <;> simp
@[simp] theorem fixed_setRoot (s : State) (r : RootRun) : (s.setRoot r).fixed = s.fixed := by simp [State.setRoot]
@[simp] theorem fixed_sendAgree (s : State) (m : Nat) (coll tree : Word) (step : DWord) (bs : List Byte) :
    (s.sendAgree m coll tree step bs).fixed = s.fixed := by
  unfold State.sendAgree; (repeat' split) <;> simp
@[simp] theorem fixed_shardEvent (s : State) (code sev : Nat) (c : CollCfg) (m detail : Nat) :
    (s.shardEvent code sev c m detail).fixed = s.fixed := by simp [State.shardEvent]
@[simp] theorem fixed_sendNode (s : State) (c : CollCfg) (m seg field : Nat) (late : Bool) (step : DWord) (nd : CNode) :
    (s.sendNode c m seg field late step nd).fixed = s.fixed := by
  unfold State.sendNode; (repeat' split) <;> simp
@[simp] theorem fixed_markWithdrawn (s : State) (r : Nat) : (s.markWithdrawn r).fixed = s.fixed := by
  unfold State.markWithdrawn; split <;> simp
@[simp] theorem fixed_breakReplica (s : State) (cause : Word) : (s.breakReplica cause).fixed = s.fixed := by
  unfold State.breakReplica; split <;> simp [fixed_foldl]
@[simp] theorem fixed_addEntry (s : State) (e : LedgerEntry) : (s.addEntry e).fixed = s.fixed := by simp [State.addEntry]

/-! ### CollRun -/

@[simp] theorem fixed_placeScratch (s : State) (c : CollCfg) (r : RootRun) : (s.placeScratch c r).fixed = s.fixed := by
  unfold State.placeScratch; dsimp only; (repeat' split) <;> simp
@[simp] theorem fixed_takeNode (s : State) (c : CollCfg) (step : DWord) (stage lane seg src : Nat) (nd : CNode) :
    (s.takeNode c step stage lane seg src nd).1.fixed = s.fixed := by
  unfold State.takeNode; dsimp only; (repeat' split) <;> simp
@[simp] theorem fixed_onArrive (s : State) (coll : Word) (step : DWord) (lane seg src : Nat) (nd : CNode) :
    (s.onArrive coll step lane seg src nd).1.fixed = s.fixed := by
  unfold State.onArrive; (repeat' split) <;> simp
@[simp] theorem fixed_onForward (s : State) (coll : Word) (step : DWord) (lane seg src : Nat) (nd : CNode) :
    (s.onForward coll step lane seg src nd).1.fixed = s.fixed := by
  unfold State.onForward; (repeat' split) <;> simp
@[simp] theorem fixed_sendReport (s : State) (c : CollCfg) (r : RootRun) : (s.sendReport c r).1.fixed = s.fixed := by
  unfold State.sendReport; dsimp only; (repeat' split) <;> simp
@[simp] theorem fixed_setCoord (s : State) (x : CoordRun) : (s.setCoord x).fixed = s.fixed := by simp [State.setCoord]
@[simp] theorem fixed_decisionTo (s : State) (c : CollCfg) (x : CoordRun) (mask : Nat) (dests : List Nat) :
    (s.decisionTo c x mask dests).1.fixed = s.fixed := by simp [State.decisionTo, fixed_foldl]
@[simp] theorem fixed_sendDecision (s : State) (c : CollCfg) (x : CoordRun) (mask : Nat) :
    (s.sendDecision c x mask).1.fixed = s.fixed := by simp [State.sendDecision]
@[simp] theorem fixed_decideNow (s : State) (c : CollCfg) (x : CoordRun) : (s.decideNow c x).1.fixed = s.fixed := by
  unfold State.decideNow; dsimp only; (repeat' split) <;> simp
@[simp] theorem fixed_onReport (s : State) (coll : Word) (step : DWord) (stage group lane seg src mask : Nat) :
    (s.onReport coll step stage group lane seg src mask).1.fixed = s.fixed := by
  unfold State.onReport
  split
  · simp
  · dsimp only
    (repeat' split) <;> simp
@[simp] theorem fixed_failover (s : State) (c : CollCfg) (stage group k : Nat) :
    (s.failover c stage group k).fixed = s.fixed := by simp [State.failover]
@[simp] theorem fixed_onDecide (s : State) (coll : Word) (step : DWord) (stage group lane mask : Nat) :
    (s.onDecide coll step stage group lane mask).1.fixed = s.fixed := by
  unfold State.onDecide
  split
  · rfl
  · exact (fixed_foldl (fun s a => by dsimp only; split <;> simp) _ _).trans (by simp)
@[simp] theorem fixed_onHand (s : State) (coll : Word) (step : DWord) (stage k lane mask : Nat) :
    (s.onHand coll step stage k lane mask).1.fixed = s.fixed := by
  unfold State.onHand
  split
  · simp
  · dsimp only
    (repeat' split) <;> simp
@[simp] theorem fixed_broadcast (s : State) (c : CollCfg) (step : DWord) (seg : Nat) (data : List Byte) (m l : Nat) (nf inc : Bool) :
    (s.broadcast c step seg data m l nf inc).1.fixed = s.fixed := by
  unfold State.broadcast
  exact fixed_foldl (fun s a => by split <;> simp) _ _
@[simp] theorem fixed_rootFlags (s : State) (c : CollCfg) (step : DWord) (stage group seg : Nat) (f : Flg) :
    (s.rootFlags c step stage group seg f).fixed = s.fixed := by simp [State.rootFlags]
@[simp] theorem fixed_sendNorm (s : State) (c : CollCfg) (step : DWord) (seg : Nat) (data : List Byte) :
    (s.sendNorm c step seg data).1.fixed = s.fixed := by
  unfold State.sendNorm; dsimp only; (repeat' split) <;> simp
@[simp] theorem fixed_replayStop (s : State) (c : CollCfg) (shard : Nat) :
    (s.replayStop c shard).fixed = s.fixed := by simp [State.replayStop]
@[simp] theorem fixed_sendStageOne (s : State) (c : CollCfg) (r : RootRun) (main : List CNode) :
    (s.sendStageOne c r main).1.fixed = s.fixed := by
  unfold State.sendStageOne; dsimp only
  split
  · simp
  · exact (fixed_foldl_fst (fun x a => by split <;> simp) _ _).trans (by simp)
@[simp] theorem fixed_onCheck (s : State) (coll : Word) (step : DWord) (stage group lane seg : Nat) :
    (s.onCheck coll step stage group lane seg).1.fixed = s.fixed := by
  unfold State.onCheck
  split
  · dsimp only
    (repeat' split) <;> (try rename_i hb; rw [← hb]) <;> simp
  · rfl
@[simp] theorem fixed_setCollRun (s : State) (r : CollRun) : (s.setCollRun r).fixed = s.fixed := by simp [State.setCollRun]
@[simp] theorem fixed_deliverResult (s : State) (c : CollCfg) (r : CollRun) (k : Nat) (x : CollCore) :
    (s.deliverResult c r k x).fixed = s.fixed := by
  unfold State.deliverResult; dsimp only; (repeat' split) <;> simp
@[simp] theorem fixed_deliverColl (s : State) (c : CollCfg) (r : CollRun) (k : Nat) (x : CollCore) :
    (s.deliverColl c r k x).fixed = s.fixed := by
  unfold State.deliverColl; dsimp only; (repeat' split) <;> simp
@[simp] theorem fixed_deliverAll (s : State) (c : CollCfg) (r : CollRun) : (s.deliverAll c r).fixed = s.fixed := by
  unfold State.deliverAll
  exact (fixed_setCollRun _ _).trans (fixed_foldl (fun s a => by dsimp only; split <;> simp) _ _)
@[simp] theorem fixed_writeNorm (s : State) (c : CollCfg) (r : CollRun) : (s.writeNorm c r).fixed = s.fixed := by
  unfold State.writeNorm; dsimp only; (repeat' split) <;> simp
@[simp] theorem fixed_settleOwn (s : State) (c : CollCfg) (r : CollRun) : (s.settleOwn c r).1.fixed = s.fixed := by
  unfold State.settleOwn; split <;> simp [fixed_foldl]
@[simp] theorem fixed_finishColl (s : State) (c : CollCfg) (r : CollRun) : (s.finishColl c r).fixed = s.fixed := by
  unfold State.finishColl
  simp only [apply_ite State.fixed, fixed_writeNorm, fixed_deliverAll, fixed_setCollRun, fixed_breakReplica, fixed_settleOwn, fixed_mk,
    fixed_eta, fixed_addEntry, fixed_foldl fixed_addEntry, ite_self]
@[simp] theorem fixed_onResult (s : State) (coll : Word) (step : DWord) (seg : Nat) (data : List Byte) (m l : Nat) (nf inc : Bool) :
    (s.onResult coll step seg data m l nf inc).fixed = s.fixed := by
  unfold State.onResult
  split
  · simp
  · dsimp only
    (repeat' split) <;> simp
@[simp] theorem fixed_collAct (s : State) (x1 : CAct) : (s.collAct x1).1.fixed = s.fixed := by
  unfold State.collAct; split <;> simp
@[simp] theorem fixed_collRunAll (x0 : Nat) (x1 : List CAct) (x2 : State) : (State.collRunAll x0 x1 x2).fixed = x2.fixed := by
  induction x0 generalizing x1 x2 with
  | zero => rfl
  | succ n ih => cases x1 <;> simp [State.collRunAll, ih]
@[simp] theorem fixed_collGo (s : State) (as : List CAct) : (s.collGo as).fixed = s.fixed := by simp [State.collGo]
@[simp] theorem fixed_recheck (s : State) : (s.recheck).fixed = s.fixed := by simp [State.recheck]

/-! ### MemOps -/

@[simp] theorem fixed_noteWrote (s : State) (bulk : Bool) (x2 : Nat) : (s.noteWrote bulk x2).fixed = s.fixed := by
  unfold State.noteWrote; dsimp only; (repeat' split) <;> simp
@[simp] theorem fixed_setPc (s : State) (p : Nat) (x : PcSt) : (s.setPc p x).fixed = s.fixed := by simp [State.setPc]
@[simp] theorem fixed_setChan (s : State) (l : Nat) (x : Chan) : (s.setChan l x).fixed = s.fixed := by simp [State.setChan]
@[simp] theorem fixed_setStk (s : State) (k : Nat) (x : StackSt) : (s.setStk k x).fixed = s.fixed := by simp [State.setStk]
@[simp] theorem fixed_cwWrite (s : State) (l off x3 : Nat) (bs : List Byte) (bad : Bool) : (s.cwWrite l off x3 bs bad).fixed = s.fixed := by
  unfold State.cwWrite; dsimp only; (repeat' split) <;> simp
@[simp] theorem fixed_memFail (s : State) (correct : Bool) (kind p l x5 : Nat) (who : Reader) (syn : Word) :
    (s.memFail correct kind p l x5 who syn).fixed = s.fixed := by simp [State.memFail]
@[simp] theorem fixed_stackFail (s : State) (p l x3 : Nat) : (s.stackFail p l x3).fixed = s.fixed := by simp [State.stackFail]
@[simp] theorem fixed_countCe (s : State) (p : Nat) : (s.countCe p).fixed = s.fixed := by
  unfold State.countCe; dsimp only; (repeat' split) <;> simp
@[simp] theorem fixed_cwRead (s : State) (l off x3 : Nat) (err : List (Nat × Byte)) (who : Reader) :
    (s.cwRead l off x3 err who).2.2.fixed = s.fixed := by
  unfold State.cwRead; dsimp only; (repeat' split) <;> simp
@[simp] theorem fixed_blkWrite (s : State) (k off x3 : Nat) (bs : List Byte) : (s.blkWrite k off x3 bs).fixed = s.fixed := by
  unfold State.blkWrite; split <;> simp
@[simp] theorem fixed_blkNote (s : State) (k x2 : Nat) (outs : List ReadOut) : (s.blkNote k x2 outs).fixed = s.fixed := by
  unfold State.blkNote; dsimp only; (repeat' split) <;> simp
@[simp] theorem fixed_stripeRead (s : State) (k off x3 : Nat) (err : List (Nat × Byte)) :
    (s.stripeRead k off x3 err).2.fixed = s.fixed := by simp [State.stripeRead]
@[simp] theorem fixed_peekNote (s : State) (bulk : Bool) (x2 n : Nat) : (s.peekNote bulk x2 n).fixed = s.fixed := by
  unfold State.peekNote; split <;> simp [fixed_foldl]
@[simp] theorem fixed_pokeCw (s : State) (bulk : Bool) (x2 : Nat) (bs : List Byte) : (s.pokeCw bulk x2 bs).fixed = s.fixed := by
  unfold State.pokeCw; dsimp only; (repeat' split) <;> simp
@[simp] theorem fixed_pokeMem (s : State) (bulk : Bool) (x2 x3 : Nat) (x4 : List Byte) : (s.pokeMem bulk x2 x3 x4).fixed = s.fixed := by
  induction x3 generalizing s x2 x4 with
  | zero => rfl
  | succ n ih => unfold State.pokeMem; split <;> simp [ih]
@[simp] theorem fixed_poke (s : State) (bulk : Bool) (x2 : Nat) (bs : List Byte) :
    (s.poke bulk x2 bs).fixed = s.fixed := by simp [State.poke]
@[simp] theorem fixed_setMoved (s : State) (v t ch n : Nat) : (s.setMoved v t ch n).fixed = s.fixed := by simp [State.setMoved]
@[simp] theorem fixed_endRun (s : State) (v t : Nat) : (s.endRun v t).fixed = s.fixed := by
  unfold State.endRun; dsimp only; (repeat' split) <;> simp
theorem fixed_landGrain {s t : State} {v p grain : Nat} {k : Ticket} {bytes : List Byte} (h : s.landGrain v p k grain bytes = some t) :
    t.fixed = s.fixed := by
  unfold State.landGrain at h; dsimp only at h
  split at h
  · cases h; rfl
  · obtain ⟨c, -, rfl⟩ := Option.map_eq_some_iff.1 h
    rfl
@[simp] theorem fixed_drainLanding (v p t : Nat) (k : Ticket) (x4 : List (Nat × Nat × List Byte)) (x5 : State) :
    (State.drainLanding v p t k x4 x5).fixed = x5.fixed := by
  induction x4 generalizing x5 with
  | nil => rfl
  | cons e es ih =>
    unfold State.drainLanding
    split
    · exact ih _
    · split
      · exact ih _
      · next h => simp [ih, fixed_landGrain h]
@[simp] theorem fixed_armTicket (s : State) (v t : Nat) : (s.armTicket v t).fixed = s.fixed := by
  unfold State.armTicket
  (repeat' split) <;> simp
@[simp] theorem fixed_loseData (s : State) (l : Nat) : (s.loseData l).fixed = s.fixed := by simp [State.loseData]
@[simp] theorem fixed_replaceChan (s : State) (l : Nat) : (s.replaceChan l).fixed = s.fixed := by
  unfold State.replaceChan; dsimp only; (repeat' split) <;> simp
@[simp] theorem fixed_replaceChans (s : State) : (s.replaceChans).fixed = s.fixed := by simp [State.replaceChans, fixed_foldl]

/-! ### Checks -/

@[simp] theorem fixed_addRec (s : State) (p v : Nat) (c : CheckRec) : (s.addRec p v c).fixed = s.fixed := by
  unfold State.addRec; dsimp only; (repeat' split) <;> simp
@[simp] theorem fixed_coreBroke (s : State) (p v : Nat) (c : CheckRec) : (s.coreBroke p v c).fixed = s.fixed := by
  unfold State.coreBroke; split <;> simp
@[simp] theorem fixed_closeRecs (s : State) (v : Nat) (kinds : List Nat) (unit stream ordinal : Nat) (loc : Option Word) (x : Word) (fired : Bool) :
    (s.closeRecs v kinds unit stream ordinal loc x fired).fixed = s.fixed := by
  unfold State.closeRecs; split <;> simp
@[simp] theorem fixed_passPoint (s : State) (v : Nat) (kinds : List Nat) (unit stream ordinal : Nat) :
    (s.passPoint v kinds unit stream ordinal).fixed = s.fixed := by
  unfold State.passPoint; split <;> simp
@[simp] theorem fixed_residueHit (s : State) (p v e cap0 cap1 obs pred tile waiter : Nat) (stroke : DWord) (c : CheckRec) :
    (s.residueHit p v e cap0 cap1 obs pred tile waiter stroke c).fixed = s.fixed := by
  unfold State.residueHit; dsimp only; (repeat' split) <;> simp
@[simp] theorem fixed_coreSix (s : State) (p v code page id waiter detail : Nat) (caps : List (Nat × Nat)) (once : Bool) (c : CheckRec) :
    (s.coreSix p v code page id waiter detail caps once c).fixed = s.fixed := by
  unfold State.coreSix; dsimp only; (repeat' split) <;> simp
@[simp] theorem fixed_onResidue (s : State) (p v e : Nat) (st : Stream) (ord : Nat) (stroke : DWord) (hits : List ResHit) :
    (s.onResidue p v e st ord stroke hits).fixed = s.fixed := by
  unfold State.onResidue; dsimp only
  split <;> simp [fixed_foldl]
@[simp] theorem fixed_onMeDup (s : State) (q : Point) (tile row col : Nat) (c0 c1 : Word) :
    (s.onMeDup q tile row col c0 c1).fixed = s.fixed := by
  unfold State.onMeDup; dsimp only; (repeat' split) <;> simp
@[simp] theorem fixed_onMeParity (s : State) (q : Point) (tile : Nat) : (s.onMeParity q tile).fixed = s.fixed := by
  unfold State.onMeParity; split <;> simp
theorem fixed_match_option {o : Option LockItem} {s t : State} {f : LockItem → State} (hs : s.fixed = t.fixed)
    (hf : ∀ x, (f x).fixed = t.fixed) : (match o with | none => s | some x => f x).fixed = t.fixed := by
  cases o with
  | none => exact hs
  | some x => exact hf x

@[simp] theorem fixed_onLockstep (s : State) (q : Point) (cycle : Word) (items : List LockItem) :
    (s.onLockstep q cycle items).fixed = s.fixed := by
  unfold State.onLockstep
  extract_lets cap u c a pg
  have hu : u.fixed = s.fixed := fixed_foldl (fun s x => fixed_closeRecs _ _ _ _ _ _ _ _ _) _ _
  have ha : a.fixed = s.fixed := by simp only [a, apply_ite State.fixed, fixed_setCore, fixed_bump, hu, ite_self]
  clear_value a u
  refine fixed_match_option (o := LockItem.first items) hu fun x => ?_
  extract_lets b d
  have hb : b.fixed = s.fixed := (fixed_setEvt _ _ _ _).trans ha
  clear_value b d
  split
  · exact hb
  · exact (fixed_setCore _ _ _).trans hb
@[simp] theorem fixed_reportLock (s : State) (v p : Nat) : (s.reportLock v p).fixed = s.fixed := by
  unfold State.reportLock; dsimp only; (repeat' split) <;> simp
@[simp] theorem fixed_onVeParity (s : State) (q : Point) (reg word : Nat) :
    (s.onVeParity q reg word).fixed = s.fixed := by simp [State.onVeParity]
@[simp] theorem fixed_onVeDup (s : State) (q : Point) (count reg : Nat) (half : Bool) (lv sv : Word) (lf sf : BitVec 8) :
    (s.onVeDup q count reg half lv sv lf sf).fixed = s.fixed := by
  unfold State.onVeDup; dsimp only; (repeat' split) <;> simp
@[simp] theorem fixed_onDataPath (s : State) (p v site granule : Nat) :
    (s.onDataPath p v site granule).fixed = s.fixed := by simp [State.onDataPath]
@[simp] theorem fixed_onIstore (s : State) (q : Point) : (s.onIstore q).fixed = s.fixed := by simp [State.onIstore]
@[simp] theorem fixed_onUpset (s : State) (q : Point) (x2 : Upset) : (s.onUpset q x2).fixed = s.fixed := by
  unfold State.onUpset; split <;> simp

/-! ### FabOps -/

@[simp] theorem fixed_nsendGo (s : State) (v : Nat) (st : Stream) (desc : Option (List Byte)) (data : List Byte) (ref : Nat) :
    (s.nsendGo v st desc data ref).fixed = s.fixed := by
  unfold State.nsendGo; split <;> simp
@[simp] theorem fixed_fillRecv (s : State) (x1 : RecvArm) (tag : Word) (src : Nat) (bytes : List Byte) :
    (s.fillRecv x1 tag src bytes).fixed = s.fixed := by
  unfold State.fillRecv; dsimp only; (repeat' split) <;> simp
@[simp] theorem fixed_matchRecv (f x1 : Nat) (x2 : State) : (State.matchRecv f x1 x2).fixed = x2.fixed := by
  induction x1 generalizing x2 with
  | zero => rfl
  | succ n ih => unfold State.matchRecv; dsimp only; split <;> simp [ih]
@[simp] theorem fixed_nrecvGo (s : State) (v : Nat) (st : Stream) (desc : Option (List Byte)) (dst : DWord) (len : Nat) (ctr : Option Nat) (ref : Nat) :
    (s.nrecvGo v st desc dst len ctr ref).fixed = s.fixed := by
  unfold State.nrecvGo; split <;> simp
@[simp] theorem fixed_takeData (s : State) (m : Msg) : (s.takeData m).fixed = s.fixed := by simp [State.takeData]
@[simp] theorem fixed_contribute (s : State) (c : CollCfg) (field : Nat) (late : Bool) (step run : DWord) (nd : CNode) :
    (s.contribute c field late step run nd).1.fixed = s.fixed := by
  unfold State.contribute
  exact fixed_foldl_fst (fun x a => by dsimp only; split_ifs <;> simp) _ _
@[simp] theorem fixed_fillScratch (s : State) (c : CollCfg) (v : Nat) (step : DWord) :
    (s.fillScratch c v step).fixed = s.fixed := by simp [State.fillScratch, fixed_foldl]
@[simp] theorem fixed_startRoots (s : State) (c : CollCfg) (v : Nat) (step : DWord) : (s.startRoots c v step).1.fixed = s.fixed := by
  unfold State.startRoots
  exact fixed_foldl_fst (fun x a => fixed_foldl_fst (fun x a => by dsimp only; split_ifs <;> simp) _ _) _ _
@[simp] theorem fixed_startNorm (s : State) (c : CollCfg) (step : DWord) : (s.startNorm c step).1.fixed = s.fixed := by
  unfold State.startNorm
  split
  · rfl
  · exact fixed_foldl_fst (fun x a => by simp) _ _
@[simp] theorem fixed_sendLate (s : State) (c : CollCfg) (step : DWord) : (s.sendLate c step).1.fixed = s.fixed := by
  unfold State.sendLate
  split
  · rfl
  · dsimp only
    split
    · exact (fixed_foldl_fst (fun x a => by simp) _ _).trans (by simp)
    · rfl
@[simp] theorem fixed_ncollRun (s : State) (c : CollCfg) (v : Nat) (st : Stream) (step : DWord) (d data : List Byte) (ctr : Option Nat) :
    (s.ncollRun c v st step d data ctr).fixed = s.fixed := by
  unfold State.ncollRun; dsimp only; (repeat' split) <;> simp
@[simp] theorem fixed_ncollGo (s : State) (v : Nat) (st : Stream) (step : DWord) (desc : Option (List Byte)) (data : List Byte) (ctr : Option Nat) (ref : Nat) :
    (s.ncollGo v st step desc data ctr ref).fixed = s.fixed := by
  unfold State.ncollGo; dsimp only; (repeat' split) <;> simp
@[simp] theorem fixed_markUnob (s : State) (src : Nat) (coll tree : Word) (late : Bool) (step : Word) (ofs : Nat) :
    (s.markUnob src coll tree late step ofs).fixed = s.fixed := by
  unfold State.markUnob; (repeat' split) <;> simp
@[simp] theorem fixed_letIn (f : Nat) (p : Pkt) (checked : Bool × Option Refusal323 × State) :
    (State.letIn f p checked).2.fixed = checked.2.2.fixed := by
  obtain ⟨ok, refusal, s⟩ := checked
  unfold State.letIn; dsimp only
  cases refusal <;> (repeat' split) <;> simp
@[simp] theorem fixed_receive (s : State) (r : Rx) : (s.receive r).2.fixed = s.fixed := by simp [State.receive]
@[simp] theorem fixed_receiveEarly (s : State) (p : Pkt) : (s.receiveEarly p).2.fixed = s.fixed := by simp [State.receiveEarly]
@[simp] theorem fixed_takeContrib (s : State) (m : Msg) : (s.takeContrib m).fixed = s.fixed := by
  unfold State.takeContrib
  split
  · simp
  · dsimp only
    (repeat' split) <;> simp
@[simp] theorem fixed_takeResult (s : State) (m : Msg) : (s.takeResult m).fixed = s.fixed := by
  unfold State.takeResult; (repeat' split) <;> simp
@[simp] theorem fixed_takeReport (s : State) (m : Msg) : (s.takeReport m).fixed = s.fixed := by
  unfold State.takeReport; (repeat' split) <;> simp
@[simp] theorem fixed_takeDecision (s : State) (m : Msg) : (s.takeDecision m).fixed = s.fixed := by
  unfold State.takeDecision; (repeat' split) <;> simp
@[simp] theorem fixed_takeWithdraw (s : State) (m : Msg) : (s.takeWithdraw m).fixed = s.fixed := by
  unfold State.takeWithdraw; dsimp only; (repeat' split) <;> simp
@[simp] theorem fixed_takeReportAgain (s : State) (m : Msg) : (s.takeReportAgain m).fixed = s.fixed := by
  unfold State.takeReportAgain
  split
  · rfl
  · exact fixed_foldl (fun s a => by dsimp only; split <;> simp) _ _

/-! ### Issue -/

@[simp] theorem fixed_takeHint (s : State) (cls lead : Nat) : (s.takeHint cls lead).fixed = s.fixed := by simp [State.takeHint]
@[simp] theorem fixed_takeStat (s : State) (v sel : Nat) (w : Word) : (s.takeStat v sel w).fixed = s.fixed := by
  unfold State.takeStat; dsimp only; (repeat' split) <;> simp
@[simp] theorem fixed_takeZi (s : State) (p v e count waiter : Nat) (caps : List Nat) :
    (s.takeZi p v e count waiter caps).fixed = s.fixed := by
  unfold State.takeZi; dsimp only; (repeat' split) <;> simp
@[simp] theorem fixed_applyFx (s : State) (p v : Nat) (x3 : Fx) : (s.applyFx p v x3).fixed = s.fixed := by
  unfold State.applyFx; split <;> simp
@[simp] theorem fixed_applyAll (s : State) (p v : Nat) (fx : List Fx) :
    (s.applyAll p v fx).fixed = s.fixed := by simp [State.applyAll, fixed_foldl]
@[simp] theorem fixed_bumpOrdinal (s : State) (p k : Nat) : (s.bumpOrdinal p k).fixed = s.fixed := by simp [State.bumpOrdinal]
@[simp] theorem fixed_reachHead (s : State) (p : Nat) (i : Issue) : (s.reachHead p i).1.fixed = s.fixed := by
  unfold State.reachHead; dsimp only; (repeat' split) <;> simp
@[simp] theorem fixed_tryPerform (s : State) (v p pc : Nat) (i : Issue) : (s.tryPerform v p pc i).1.fixed = s.fixed := by
  unfold State.tryPerform; dsimp only; (repeat' split) <;> simp
@[simp] theorem fixed_stepPc (s : State) (p : Nat) (st : Stream) : (s.stepPc p st).fixed = s.fixed := by simp [State.stepPc]
theorem fixed_of_tryPerform {s t : State} {v p pc : Nat} {i : Issue} {g : Option Progress} (h : s.tryPerform v p pc i = (t, g)) :
    t.fixed = s.fixed := by
  rw [← fixed_tryPerform s v p pc i, h]

@[simp] theorem fixed_issueAs (s : State) (v p : Nat) (st : Stream) (op : IsaOp) (errs : List BlockErr) :
    (s.issueAs v p st op errs).fixed = s.fixed := by
  unfold State.issueAs; dsimp only
  split <;> next h => simp [fixed_of_tryPerform h]
@[simp] theorem fixed_countStall (s : State) (p : Nat) (lanes : Bool) (cls : StallClass) (cycles : Nat) :
    (s.countStall p lanes cls cycles).fixed = s.fixed := by
  unfold State.countStall; dsimp only; (repeat' split) <;> simp
@[simp] theorem fixed_landHeld (s : State) (v cycles : Nat) : (s.landHeld v cycles).fixed = s.fixed := by
  unfold State.landHeld; split <;> simp
@[simp] theorem fixed_countIssue (s : State) (p : Nat) (i : Iss) (op : IsaOp) : (s.countIssue p i op).fixed = s.fixed := by
  unfold State.countIssue; dsimp only; (repeat' split) <;> simp
@[simp] theorem fixed_illegalOp (s : State) (v p : Nat) (st : Stream) (opc : Nat) :
    (s.illegalOp v p st opc).fixed = s.fixed := by simp [State.illegalOp]
@[simp] theorem fixed_issueOp (s : State) (i : Iss) (op : IsaOp) : (s.issueOp i op).fixed = s.fixed := by
  unfold State.issueOp; dsimp only; (repeat' split) <;> simp

/-! ### Complete -/

@[simp] theorem fixed_cplWrite (s : State) (c : Cpl) : (s.cplWrite c).fixed = s.fixed := by simp [State.cplWrite]
@[simp] theorem fixed_pushCpl (s : State) (c : Cpl) : (s.pushCpl c).fixed = s.fixed := by
  unfold State.pushCpl; split <;> simp
@[simp] theorem fixed_flushList (x0 : List Cpl) (x1 : State) : (flushList x0 x1).2.fixed = x1.fixed := by
  induction x0 generalizing x1 with
  | nil => rfl
  | cons c cs ih => unfold flushList; split <;> simp [ih]
@[simp] theorem fixed_flushCpls (s : State) : (s.flushCpls).fixed = s.fixed := by simp [State.flushCpls]
@[simp] theorem fixed_reply (s : State) (c : CmdRef) (phase status : Nat) (result : DWord) :
    (s.reply c phase status result).fixed = s.fixed := by simp [State.reply]
@[simp] theorem fixed_endOp (s : State) (cmd : Option CmdRef) (status : Nat) (result : DWord) :
    (s.endOp cmd status result).fixed = s.fixed := by
  unfold State.endOp; split <;> simp
@[simp] theorem fixed_endNow (s : State) (cmd : Option CmdRef) (status : Nat) (result : DWord) :
    (s.endNow cmd status result).fixed = s.fixed := by
  unfold State.endNow; split <;> simp
@[simp] theorem fixed_markEnded (s : State) : (s.markEnded).2.fixed = s.fixed := by simp [State.markEnded]
@[simp] theorem fixed_newHallmark (s : State) : (s.newHallmark).fixed = s.fixed := by simp [State.newHallmark]
@[simp] theorem fixed_keepHallmark (s : State) : (s.keepHallmark).fixed = s.fixed := by simp [State.keepHallmark]
@[simp] theorem fixed_sendHellos (s : State) : (s.sendHellos).fixed = s.fixed := by simp [State.sendHellos, fixed_foldl]

/-! ### BrnOps -/

@[simp] theorem fixed_setRoleKind (s : State) (p : Nat) (r : Role) : (s.setRoleKind p r).fixed = s.fixed := by simp [State.setRoleKind]
@[simp] theorem fixed_fenceCore (s : State) (p unit outcome : Nat) : (s.fenceCore p unit outcome).fixed = s.fixed := by
  unfold State.fenceCore; dsimp only; (repeat' split) <;> simp
@[simp] theorem fixed_notePasses (s : State) (p : Nat) (set : List Pack) (packs : List Nat) :
    (s.notePasses p set packs).fixed = s.fixed := by simp [State.notePasses]
@[simp] theorem fixed_raiseRepl (s : State) : (s.raiseRepl).fixed = s.fixed := by simp [State.raiseRepl]
@[simp] theorem fixed_replCheck (s : State) : (s.replCheck).fixed = s.fixed := by
  unfold State.replCheck; dsimp only; (repeat' split) <;> simp
@[simp] theorem fixed_setTest (s : State) (t : TestRun) : (s.setTest t).fixed = s.fixed := by simp [State.setTest]
@[simp] theorem fixed_startTest (s : State) (p : Nat) (kind : TestKind) (pack : Option Nat) (cmd : Option CmdRef) (boot : Bool) :
    (s.startTest p kind pack cmd boot).fixed = s.fixed := by
  unfold State.startTest; split <;> simp
@[simp] theorem fixed_takeProbes (s : State) (p : Nat) (probes : Probes) : (s.takeProbes p probes).fixed = s.fixed := by
  unfold State.takeProbes
  exact fixed_foldl (fun s a => by dsimp only; split <;> simp) _ _
@[simp] theorem fixed_recordRepairs (s : State) (p : Nat) (runs : List PackRun) : (s.recordRepairs p runs).fixed = s.fixed := by
  unfold State.recordRepairs
  exact fixed_foldl (fun s a => by dsimp only; split <;> simp) _ _
@[simp] theorem fixed_setLast (s : State) (p result : Nat) : (s.setLast p result).fixed = s.fixed := by simp [State.setLast]
@[simp] theorem fixed_finishTest (s : State) (p : Nat) (runs : List PackRun) : (s.finishTest p runs).fixed = s.fixed := by
  unfold State.finishTest
  split
  · rfl
  · dsimp only
    split <;> simp [apply_ite State.fixed, fixed_foldl]
@[simp] theorem fixed_copyTables (s : State) (x1 b : Nat) : (s.copyTables x1 b).fixed = s.fixed := by simp [State.copyTables, fixed_foldl]
@[simp] theorem fixed_takeRotation (s : State) (r : Rotation) : (s.takeRotation r).fixed = s.fixed := by
  unfold State.takeRotation
  split
  · simp
  · split
    · rfl
    · extract_lets v a b src d
      have ha : a.fixed = s.fixed := (fixed_copyTables _ _ _).trans (fixed_setCore _ _ _)
      have hb : b.fixed = a.fixed := fixed_setRole _ _ _
      have hd : d.fixed = b.fixed := by simp only [d, fixed_mk, fixed_eta]
      rw [fixed_startTest, hd, hb, ha]
@[simp] theorem fixed_refill (s : State) (v : Nat) : (s.refill v).fixed = s.fixed := by
  unfold State.refill; dsimp only; (repeat' split) <;> simp
@[simp] theorem fixed_takeTests (s : State) : (s.takeTests).fixed = s.fixed := by
  unfold State.takeTests
  exact (fixed_foldl (fun s a => by dsimp only; split_ifs <;> simp) _ _).trans (by simp)
@[simp] theorem fixed_openAssay (s : State) : (s.openAssay).fixed = s.fixed := by
  unfold State.openAssay
  split
  · rfl
  · dsimp only
    simp [fixed_foldl, apply_ite State.fixed]
@[simp] theorem fixed_fenceOutcome (s : State) (r : AssayRec) : (s.fenceOutcome r).fixed = s.fixed := by simp [State.fenceOutcome]
@[simp] theorem fixed_noSpare (s : State) (p : Nat) : (s.noSpare p).fixed = s.fixed := by
  unfold State.noSpare; dsimp only; (repeat' split) <;> simp
@[simp] theorem fixed_burnishField (s : State) (closed : Bool) (f : Nat) : (s.burnishField closed f).fixed = s.fixed := by
  unfold State.burnishField; dsimp only; (repeat' split) <;> simp
@[simp] theorem fixed_burnishStep (s : State) (closed : Bool) : (s.burnishStep closed).fixed = s.fixed := by
  unfold State.burnishStep; dsimp only
  split <;> split <;> simp [fixed_foldl]
@[simp] theorem fixed_roleStep (s : State) (closed : Bool) : (s.roleStep closed).fixed = s.fixed := by
  unfold State.roleStep; split <;> simp [fixed_foldl]
@[simp] theorem fixed_installPacks (s : State) (image : List Byte) : (s.installPacks image).fixed = s.fixed := by
  unfold State.installPacks; dsimp only; (repeat' split) <;> simp
@[simp] theorem fixed_takePacks (s : State) : (s.takePacks).fixed = s.fixed := by
  unfold State.takePacks; split <;> simp
@[simp] theorem fixed_fwUpdate (s : State) (image : List Byte) (cmd : Option CmdRef) : (s.fwUpdate image cmd).fixed = s.fixed := by
  unfold State.fwUpdate; split <;> simp

/-! ### LoadOps -/

@[simp] theorem fixed_pokeBits (s : State) (bulk : Bool) (x2 w v : Nat) :
    (s.pokeBits bulk x2 w v).fixed = s.fixed := by simp [State.pokeBits]
@[simp] theorem fixed_ldFlags (s : State) (f : Flg) : (s.ldFlags f).fixed = s.fixed := by simp [State.ldFlags]
@[simp] theorem fixed_swageOne (s : State) (d : LoadDesc) (pl : PlainChunks) (e : SwageEnt) (k i : Nat) :
    (s.swageOne d pl e k i).fixed = s.fixed := by
  unfold State.swageOne; dsimp only; (repeat' split) <;> simp
@[simp] theorem fixed_swageBlock (s : State) (d : LoadDesc) (pl : PlainChunks) (e : SwageEnt) (k r c : Nat) :
    (s.swageBlock d pl e k r c).fixed = s.fixed := by
  unfold State.swageBlock; dsimp only
  split <;> simp [fixed_foldl]
@[simp] theorem fixed_swagePad (s : State) (e : SwageEnt) : (s.swagePad e).fixed = s.fixed := by
  unfold State.swagePad
  exact fixed_foldl (fun s a => fixed_foldl (fun s a => by split <;> simp) _ _) _ _
@[simp] theorem fixed_swageChunk (s : State) (d : LoadDesc) (pl : PlainChunks) (e : SwageEnt) (k : Nat) :
    (s.swageChunk d pl e k).fixed = s.fixed := by
  unfold State.swageChunk; dsimp only
  split_ifs <;> simp [fixed_foldl]
@[simp] theorem fixed_setLoad (s : State) (r : LoadRun) : (s.setLoad r).fixed = s.fixed := by simp [State.setLoad]
@[simp] theorem fixed_ldState (s : State) (n : Nat) : (s.ldState n).fixed = s.fixed := by simp [State.ldState]
@[simp] theorem fixed_raiseLoad (s : State) (code peer : Nat) (id : Word) (detail : Nat) :
    (s.raiseLoad code peer id detail).fixed = s.fixed := by simp [State.raiseLoad]
@[simp] theorem fixed_failLoad (s : State) (r : LoadRun) (code peer detail : Nat) :
    (s.failLoad r code peer detail).fixed = s.fixed := by simp [State.failLoad]
@[simp] theorem fixed_takeStaged (s : State) (r : LoadRun) : (s.takeStaged r).2.fixed = s.fixed := by
  unfold State.takeStaged
  exact fixed_foldl_snd (fun x a => by simp) _ _
@[simp] theorem fixed_swageReady (s : State) (id : Word) : (s.swageReady id).fixed = s.fixed := by
  unfold State.swageReady
  split
  · rfl
  · dsimp only
    split <;> simp [fixed_foldl, apply_ite State.fixed]
@[simp] theorem fixed_takeChunk (s : State) (id : Word) (k : Nat) (stored : List Byte) : (s.takeChunk id k stored).fixed = s.fixed := by
  unfold State.takeChunk; dsimp only; (repeat' split) <;> simp
@[simp] theorem fixed_feedChildren (s : State) (d : LoadDesc) (k : Nat) (bs : List Byte) : (s.feedChildren d k bs).fixed = s.fixed := by
  unfold State.feedChildren
  exact fixed_foldl (fun s a => by split <;> simp) _ _
@[simp] theorem fixed_readChunk (s : State) (id : Word) (k : Nat) (host : List Byte) : (s.readChunk id k host).fixed = s.fixed := by
  unfold State.readChunk; dsimp only; (repeat' split) <;> simp
@[simp] theorem fixed_startLoad (s : State) (cmd : Option CmdRef) (refs : HostRefs) : (s.startLoad cmd refs).2.fixed = s.fixed := by
  unfold State.startLoad; dsimp only; (repeat' split) <;> simp
@[simp] theorem fixed_finishLoad (s : State) (id : Word) : (s.finishLoad id).fixed = s.fixed := by
  unfold State.finishLoad; dsimp only; (repeat' split) <;> simp
@[simp] theorem fixed_abortLoad (s : State) (r : LoadRun) : (s.abortLoad r).fixed = s.fixed := by simp [State.abortLoad]
@[simp] theorem fixed_permit (s : State) (n : Nat) : (s.permit n).fixed = s.fixed := by
  unfold State.permit; dsimp only; (repeat' split) <;> simp
@[simp] theorem fixed_topUp (s : State) (limit : Nat) : (s.topUp limit).fixed = s.fixed := by
  unfold State.topUp; dsimp only; (repeat' split) <;> simp
@[simp] theorem fixed_closeFence (s : State) : (s.closeFence).fixed = s.fixed := by
  unfold State.closeFence; dsimp only; (repeat' split) <;> simp
@[simp] theorem fixed_openFence (s : State) (r : LoadRun) : (s.openFence r).fixed = s.fixed := by simp [State.openFence]
@[simp] theorem fixed_fenceStep (s : State) : (s.fenceStep).fixed = s.fixed := by
  unfold State.fenceStep; dsimp only; (repeat' split) <;> simp
@[simp] theorem fixed_unseal (s : State) : (s.unseal).fixed = s.fixed := by simp [State.unseal, fixed_foldl]

/-! ### Windows -/

@[simp] theorem fixed_winNote (s : State) (target x2 n : Nat) : (s.winNote target x2 n).fixed = s.fixed := by
  unfold State.winNote; split <;> simp
@[simp] theorem fixed_winWrite (s : State) (target core x3 : Nat) (bs : List Byte) : (s.winWrite target core x3 bs).fixed = s.fixed := by
  unfold State.winWrite; dsimp only; (repeat' split) <;> simp

/-! ### RingOps -/

@[simp] theorem fixed_reject (s : State) (c : CmdRef) (place off : Nat) : (s.reject c place off).fixed = s.fixed := by simp [State.reject]
@[simp] theorem fixed_putImage (s : State) (m : ImageInfo) : (s.putImage m).fixed = s.fixed := by simp [State.putImage]
@[simp] theorem fixed_startCore (s : State) (m : ImageInfo) (v p : Nat) : (s.startCore m v p).fixed = s.fixed := by simp [State.startCore]
@[simp] theorem fixed_startTags (s : State) (p : Nat) : (s.startTags p).fixed = s.fixed := by simp [State.startTags]
@[simp] theorem fixed_clearSels (s : State) : (s.clearSels).fixed = s.fixed := by simp [State.clearSels, fixed_foldl]
@[simp] theorem rises_startJob (s : State) (e : RingEntry) : Rises s.fixed (s.startJob e).fixed := by
  unfold State.startJob
  extract_lets r prm assay b places hash s1 s2 s3 s4 s5 s6 stroke stp mem fab load pwr s7 s8 st asy s9 mgmt s10
  have h1 : s1.fixed = s.fixed := fixed_putImage _ _
  have h2 : s2.fixed = s.fixed := by simp only [s2, fixed_mk, fixed_eta, h1]
  have h3 : s3.fixed = s.fixed := (fixed_foldl (fun s q => fixed_setRole _ _ _) _ _).trans h2
  have h4 : s4.fixed = s.fixed :=
    (fixed_foldl (fun s q => fixed_startCore _ _ _ _) _ _).trans ((fixed_foldl (fun s p => fixed_startTags _ _) _ _).trans h3)
  have h6 : s6.fixed = s.fixed := by simp only [s6, s5, fixed_rset, fixed_clearSels, fixed_rclear, h4]
  have h7 : Rises s6.fixed s7.fixed := by simp only [s7, stroke, fixed_mk, rises_hold]
  have h8 : s8.fixed = s7.fixed := fixed_foldl (fun s ch => fixed_setPc _ _ _) _ _
  have h9 : s9.fixed = s7.fixed := by simp only [s9, apply_ite State.fixed, fixed_mk, fixed_eta, h8, ite_self]
  have h10 : s10.fixed = s7.fixed := by simp only [s10, apply_ite State.fixed, fixed_mk, fixed_eta, h9, ite_self]
  refine (h7.of_kept h6).then_kept ?_
  simp only [fixed_sendHellos, fixed_newHallmark, fixed_takePacks, fixed_takeTaps, h10]
@[simp] theorem rises_cmdJobStart (s : State) (e : RingEntry) (ok : Nat) : Rises s.fixed (s.cmdJobStart e ok).fixed := by
  unfold State.cmdJobStart
  split
  · simp
  · exact (rises_startJob s e).then_kept (fixed_reply ..)
@[simp] theorem fixed_abortJob (s : State) : (s.abortJob).fixed = s.fixed := by simp [State.abortJob]
theorem fixed_of_abortable {s t : State} {tag : Word} {f : State → State} (h : s.abortable tag = some f) : (f t).fixed = t.fixed := by
  unfold State.abortable at h; dsimp only at h
  (repeat' split at h) <;> cases h <;> simp
@[simp] theorem fixed_cmdAbort (s : State) (e : RingEntry) : (s.cmdAbort e).fixed = s.fixed := by
  unfold State.cmdAbort; dsimp only
  split
  · next h => simp [fixed_of_abortable h]
  · split <;> simp
@[simp] theorem fixed_cmdSetCap (s : State) (e : RingEntry) (ok : Nat) : (s.cmdSetCap e ok).fixed = s.fixed := by
  unfold State.cmdSetCap; dsimp only; (repeat' split) <;> simp
@[simp] theorem fixed_cmdSetSetting (s : State) (e : RingEntry) (ok : Nat) : (s.cmdSetSetting e ok).fixed = s.fixed := by
  unfold State.cmdSetSetting; dsimp only; (repeat' split) <;> simp
@[simp] theorem fixed_cmdEpoch (s : State) (e : RingEntry) (ok : Nat) : (s.cmdEpoch e ok).fixed = s.fixed := by
  unfold State.cmdEpoch; dsimp only; (repeat' split) <;> simp
@[simp] theorem fixed_cmdLoad (s : State) (e : RingEntry) (ok : Nat) : (s.cmdLoad e ok).fixed = s.fixed := by
  unfold State.cmdLoad
  have h := fixed_startLoad s (some (entRef e)) e.refs
  split <;> next hl => simpa [hl] using h
@[simp] theorem fixed_cmdStage (s : State) (e : RingEntry) (ok : Nat) : (s.cmdStage e ok).fixed = s.fixed := by
  unfold State.cmdStage; dsimp only; (repeat' split) <;> simp
@[simp] theorem fixed_cmdRetrain (s : State) (e : RingEntry) (ok : Nat) : (s.cmdRetrain e ok).fixed = s.fixed := by
  unfold State.cmdRetrain; dsimp only; (repeat' split) <;> simp
@[simp] theorem fixed_cmdBurnish (s : State) (e : RingEntry) (ok : Nat) : (s.cmdBurnish e ok).fixed = s.fixed := by
  unfold State.cmdBurnish; dsimp only; (repeat' split) <;> simp
@[simp] theorem fixed_enterStandby (s : State) : (s.enterStandby).fixed = s.fixed := by
  unfold State.enterStandby; split <;> simp
@[simp] theorem fixed_cmdStandby (s : State) (e : RingEntry) (ok : Nat) : (s.cmdStandby e ok).fixed = s.fixed := by simp [State.cmdStandby]
@[simp] theorem fixed_cmdFwUpdate (s : State) (e : RingEntry) (ok : Nat) :
    (s.cmdFwUpdate e ok).fixed = s.fixed := by simp [State.cmdFwUpdate]
@[simp] theorem fixed_noteWall (s : State) (v : DWord) : (s.noteWall v).fixed = s.fixed := by simp [State.noteWall]
@[simp] theorem fixed_cmdWallNote (s : State) (e : RingEntry) (ok : Nat) :
    (s.cmdWallNote e ok).fixed = s.fixed := by simp [State.cmdWallNote]
@[simp] theorem fixed_askEntries (s : State) (prodIdx : Nat) : (s.askEntries prodIdx).fixed = s.fixed := by simp [State.askEntries]

/-! ### StepOps -/

@[simp] theorem fixed_smapNote (s : State) (i : Nat) : (s.smapNote i).fixed = s.fixed := by
  unfold State.smapNote; dsimp only; (repeat' split) <;> simp
@[simp] theorem fixed_digestNote (s : State) : (s.digestNote).fixed = s.fixed := by simp [State.digestNote, fixed_foldl]
@[simp] theorem fixed_setBandRun (s : State) (k n : Nat) : (s.setBandRun k n).fixed = s.fixed := by
  unfold State.setBandRun; split <;> simp
@[simp] theorem fixed_drainSoon (s : State) : (s.drainSoon).fixed = s.fixed := by simp [State.drainSoon]
@[simp] theorem fixed_tryBand (s : State) (x : Band) : (s.tryBand x).2.fixed = s.fixed := by
  unfold State.tryBand; dsimp only; (repeat' split) <;> simp
@[simp] theorem fixed_bandRef (s : State) (x : Band) : (s.bandRef x).fixed = s.fixed := by
  unfold State.bandRef; dsimp only; (repeat' split) <;> simp
@[simp] theorem fixed_formLocal (s : State) : (s.formLocal).fixed = s.fixed := by simp [State.formLocal]
@[simp] theorem fixed_addVote (s : State) (v : VoteRec) : (s.addVote v).fixed = s.fixed := by simp [State.addVote]
@[simp] theorem fixed_sendVote (s : State) : (s.sendVote).fixed = s.fixed := by
  unfold State.sendVote
  split
  · rfl
  · exact (fixed_foldl (fun s a => by split <;> simp) _ _).trans (by simp)
@[simp] theorem fixed_takeVote (s : State) (m : Msg) : (s.takeVote m).fixed = s.fixed := by
  unfold State.takeVote; split <;> simp
@[simp] theorem fixed_settleGroup (s : State) (pos : Nat) (g : List VoteRec) (x : Settled) : (s.settleGroup pos g x).1.fixed = s.fixed := by
  unfold State.settleGroup; dsimp only
  split_ifs <;> simp [fixed_foldl]
@[simp] theorem fixed_settleTwins (s : State) (excl : List Nat) : (s.settleTwins excl).1.fixed = s.fixed := by
  unfold State.settleTwins
  exact fixed_foldl_fst (fun x a => by simp) _ _
@[simp] theorem fixed_formVerdict (s : State) : (s.formVerdict).2.fixed = s.fixed := by simp [State.formVerdict]
@[simp] theorem fixed_takeVerdict (s : State) (m : Msg) : (s.takeVerdict m).fixed = s.fixed := by
  unfold State.takeVerdict; split <;> simp
@[simp] theorem fixed_issueVerdict (s : State) : (s.issueVerdict).fixed = s.fixed := by simp [State.issueVerdict, fixed_foldl]
@[simp] theorem fixed_writePending (s : State) : (s.writePending).fixed = s.fixed := by
  unfold State.writePending; dsimp only; (repeat' split) <;> simp
@[simp] theorem fixed_compareReplay (s : State) (v : JobVerdict) : (s.compareReplay v).fixed = s.fixed := by
  unfold State.compareReplay; dsimp only; (repeat' split) <;> simp
@[simp] theorem fixed_changeSetting (s : State) (off : Nat) (val : Word) : (s.changeSetting off val).fixed = s.fixed := by
  unfold State.changeSetting; dsimp only; (repeat' split) <;> simp
@[simp] theorem fixed_replaySettings (s : State) (r : LedgerRec) : (s.replaySettings r).fixed = s.fixed := by
  unfold State.replaySettings; dsimp only
  split <;> simp [fixed_foldl]
@[simp] theorem fixed_takeReplay (s : State) (r : LedgerRec) : (s.takeReplay r).fixed =
    ⟨s.fuses, s.pending, s.stroke.devStroke, s.stroke.hold,
      s.stp.replayRecs.filter (fun (x : LedgerRec) => x.step != r.step) ++ [r]⟩ := by
  unfold State.takeReplay; dsimp only; (repeat' split) <;> simp
@[simp] theorem fixed_flipSels (s : State) : (s.flipSels).fixed = s.fixed := by simp [State.flipSels, fixed_foldl]
@[simp] theorem fixed_noteExcluded (s : State) (v : JobVerdict) :
    (s.noteExcluded v).fixed = s.fixed := by simp [State.noteExcluded, fixed_foldl]
@[simp] theorem fixed_settleKept (s : State) (commit : Bool) (r : CollRun) : (s.settleKept commit r).fixed = s.fixed := by
  unfold State.settleKept
  split
  · simp
  · dsimp only
    (repeat' split) <;> simp [fixed_foldl]
@[simp] theorem fixed_stallReport (s : State) (p : Nat) : (s.stallReport p).fixed = s.fixed := by
  unfold State.stallReport; dsimp only; (repeat' split) <;> simp
@[simp] theorem fixed_openStep (s : State) : (s.openStep).fixed = s.fixed := by simp [State.openStep]
@[simp] theorem fixed_closeStep (s : State) (v : JobVerdict) : (s.closeStep v).fixed = s.fixed := by
  unfold State.closeStep; dsimp only
  split
  · simp [fixed_foldl, apply_ite State.fixed]
  · split <;> simp [fixed_foldl, apply_ite State.fixed]
@[simp] theorem fixed_commitCheck (s : State) : (s.commitCheck).fixed = s.fixed := by
  unfold State.commitCheck; dsimp only; (repeat' split) <;> simp
@[simp] theorem fixed_applySetting (s : State) (x : Setting) : (s.applySetting x).fixed = s.fixed := by
  unfold State.applySetting; split <;> simp
@[simp] theorem fixed_takeSettings (s : State) : (s.takeSettings).fixed = s.fixed := by
  unfold State.takeSettings
  split
  · cases s.replayRec s.stroke.step <;> simp
  · dsimp only
    split <;> simp [fixed_foldl]

/-! ### PktOps -/

@[simp] theorem fixed_handOver (s : State) (c : CollCfg) (step : DWord) (stage group lane seg mask : Nat) :
    (s.handOver c step stage group lane seg mask).fixed = s.fixed := by
  unfold State.handOver; dsimp only; (repeat' split) <;> simp
@[simp] theorem fixed_tellStageOne (s : State) (c : CollCfg) (step : DWord) (b : Nat) : (s.tellStageOne c step b).fixed = s.fixed := by
  unfold State.tellStageOne
  split
  · rfl
  · exact fixed_foldl (fun s a => fixed_foldl (fun s a => by split <;> simp) _ _) _ _
@[simp] theorem fixed_handResult (s : State) (c : CollCfg) (step : DWord) (seg : Nat) : (s.handResult c step seg).fixed = s.fixed := by
  unfold State.handResult
  exact (fixed_foldl (fun s a => by split <;> simp) _ _).trans (by simp)
@[simp] theorem fixed_handDecision (s : State) (c : CollCfg) (peer : Nat) (step : DWord) (stage group lane : Nat) :
    (s.handDecision c peer step stage group lane).fixed = s.fixed := by
  unfold State.handDecision; split <;> simp [fixed_foldl]
@[simp] theorem fixed_afterFailure (s : State) (peer : Nat) (p : Pkt) : (s.afterFailure peer p).fixed = s.fixed := by
  unfold State.afterFailure; dsimp only; (repeat' split) <;> simp
@[simp] theorem fixed_failMessage (s : State) (f : Nat) (r : Retained) : (s.failMessage f r).fixed = s.fixed := by simp [State.failMessage]
@[simp] theorem fixed_resendOrFail (s : State) (f : Nat) (r : Retained) : (s.resendOrFail f r).fixed = s.fixed := by
  unfold State.resendOrFail; split <;> simp
@[simp] theorem fixed_takeRefusal (s : State) (f : Nat) (r : Retained) : (s.takeRefusal f r).fixed = s.fixed := by
  unfold State.takeRefusal; dsimp only; (repeat' split) <;> simp
@[simp] theorem fixed_takeNack (s : State) (f : Nat) (seq : Word) (reason : Nat) : (s.takeNack f seq reason).fixed = s.fixed := by
  unfold State.takeNack; dsimp only; (repeat' split) <;> simp
@[simp] theorem fixed_onAck (s : State) (f : Nat) (p : Pkt) : (s.onAck f p).fixed = s.fixed := by
  unfold State.onAck; dsimp only; (repeat' split) <;> simp
@[simp] theorem fixed_onHello (s : State) (src : Nat) (h : List Byte) : (s.onHello src h).fixed = s.fixed := by
  unfold State.onHello; split <;> simp [fixed_foldl]
@[simp] theorem fixed_onPace (s : State) (b : List Byte) : (s.onPace b).fixed = s.fixed := by simp [State.onPace]
@[simp] theorem fixed_onBlame (s : State) (b : List Byte) : (s.onBlame b).fixed = s.fixed := by
  unfold State.onBlame; split <;> simp
@[simp] theorem fixed_onData (s : State) (m : Msg) : (s.onData m).fixed = s.fixed := by
  unfold State.onData; dsimp only; (repeat' split) <;> simp
@[simp] theorem fixed_forward (s : State) (d : LoadDesc) (p : Pkt) : (s.forward d p).fixed = s.fixed := by
  unfold State.forward
  exact fixed_foldl (fun s a => by split <;> simp) _ _
@[simp] theorem fixed_placeChunk (s : State) (id : Word) (p : Pkt) : (s.placeChunk id p).fixed = s.fixed := by
  unfold State.placeChunk; dsimp only; (repeat' split) <;> simp
@[simp] theorem fixed_loadPacket (f : Nat) (p : Pkt) (checked : Bool × Option Refusal323 × State) (r : LoadRun) :
    (State.loadPacket f p checked r).fixed = checked.2.2.fixed := by
  unfold State.loadPacket; dsimp only
  (repeat' split) <;> simp
@[simp] theorem fixed_onAgree (s : State) (m : Msg) : (s.onAgree m).fixed = s.fixed := by
  unfold State.onAgree; split <;> simp
@[simp] theorem fixed_onMsg (s : State) (p : Pkt) (m : Msg) : (s.onMsg p m).fixed = s.fixed := by
  unfold State.onMsg; split <;> simp
@[simp] theorem fixed_onFrame (s : State) (x : Rx) : (s.onFrame x).fixed = s.fixed := by
  unfold State.onFrame; dsimp only
  split
  · rfl
  · split <;> simp [fixed_foldl]

/-! ### PowerOps -/

@[simp] theorem fixed_commandVolt (s : State) (k : Nat) : (s.commandVolt k).fixed = s.fixed := by simp [State.commandVolt]
@[simp] theorem fixed_retrim (s : State) : (s.retrim).fixed = s.fixed := by
  unfold State.retrim; split <;> simp
@[simp] theorem fixed_takeShadows (s : State) : (s.takeShadows).fixed = s.fixed := by
  unfold State.takeShadows; split <;> simp
@[simp] theorem fixed_takeCap (s : State) (pm : Nat × Nat) : (s.takeCap pm).fixed = s.fixed := by
  unfold State.takeCap
  extract_lets k kc src u
  have hu : u.fixed = s.fixed := by simp only [u, fixed_mk, fixed_eta]
  split
  · rw [fixed_raiseM, fixed_mk, fixed_eta, hu]
  · exact hu
@[simp] theorem fixed_takeHintPair (s : State) : (s.takeHintPair).fixed = s.fixed := by
  unfold State.takeHintPair; dsimp only; (repeat' split) <;> simp
@[simp] theorem fixed_takeStretch (s : State) (durNs stretchNs : Nat) : (s.takeStretch durNs stretchNs).fixed = s.fixed := by
  unfold State.takeStretch; dsimp only; (repeat' split) <;> simp
@[simp] theorem fixed_takeJunction (s : State) : (s.takeJunction).fixed = s.fixed := by
  unfold State.takeJunction; dsimp only; (repeat' split) <;> simp
@[simp] theorem fixed_setTarget (s : State) : (s.setTarget).fixed = s.fixed := by simp [State.setTarget]
@[simp] theorem fixed_moveStep (s : State) : (s.moveStep).fixed = s.fixed := by
  unfold State.moveStep; dsimp only; (repeat' split) <;> simp
@[simp] theorem fixed_sendPace (s : State) : (s.sendPace).fixed = s.fixed := by
  unfold State.sendPace
  exact (fixed_foldl (fun s a => by split <;> simp) _ _).trans (by simp)
@[simp] theorem fixed_tellPace (s : State) : (s.tellPace).fixed = s.fixed := by
  unfold State.tellPace; split <;> simp
@[simp] theorem fixed_powerStep (s : State) (durNs stretchNs : Nat) (releases : List Nat) :
    (s.powerStep durNs stretchNs releases).fixed = s.fixed := by simp [State.powerStep]
@[simp] theorem fixed_energyStep (s : State) : (s.energyStep).fixed = s.fixed := by
  unfold State.energyStep; dsimp only; (repeat' split) <;> simp

/-! ### Boundary -/

@[simp] theorem fixed_giveUp (s : State) (code : Nat) : (s.giveUp code).fixed = s.fixed := by
  unfold State.giveUp; split <;> simp
@[simp] theorem fixed_noteOverrun (s : State) (b : BoundaryObs) : (s.noteOverrun b).fixed = s.fixed := by
  unfold State.noteOverrun; split <;> simp
@[simp] theorem fixed_orderOne (s : State) (b : BoundaryObs) : (s.orderOne b).fixed = s.fixed := by
  unfold State.orderOne; dsimp only
  split_ifs <;> simp [fixed_foldl]
@[simp] theorem fixed_orderTwo (s : State) : (s.orderTwo).2.fixed = s.fixed := by
  unfold State.orderTwo; split <;> simp
@[simp] theorem fixed_orderThree (s : State) : (s.orderThree).fixed =
    ⟨s.fuses, s.pending, s.stroke.devStroke + 1, s.stroke.hold, s.stp.replayRecs⟩ := by simp [State.orderThree]
@[simp] theorem fixed_enterDrain (s : State) : (s.enterDrain).fixed = s.fixed := by
  unfold State.enterDrain; dsimp only; (repeat' split) <;> simp
@[simp] theorem fixed_takeDrain (s : State) : (s.takeDrain).fixed = s.fixed := by
  unfold State.takeDrain; split <;> simp
@[simp] theorem fixed_abandonWork (s : State) : (s.abandonWork).fixed = s.fixed := by simp [State.abandonWork]
@[simp] theorem fixed_releaseCores (s : State) : (s.releaseCores).fixed = s.fixed := by simp [State.releaseCores, fixed_foldl]
@[simp] theorem fixed_leaveDrain (s : State) : (s.leaveDrain).fixed = s.fixed := by
  unfold State.leaveDrain; dsimp only; (repeat' split) <;> simp
@[simp] theorem fixed_decideAssay (s : State) : (s.decideAssay).fixed = s.fixed := by simp [State.decideAssay, fixed_foldl]
@[simp] theorem fixed_endAssay (s : State) : (s.endAssay).fixed = s.fixed := by
  unfold State.endAssay; dsimp only; (repeat' split) <;> simp
@[simp] theorem fixed_cutAssay (s : State) : (s.cutAssay).fixed = s.fixed := by
  unfold State.cutAssay; split <;> simp
@[simp] theorem fixed_dropKept (s : State) (cfg : Option CollCfg) (r : CollRun) : (s.dropKept cfg r).fixed = s.fixed := by
  unfold State.dropKept; split <;> simp [fixed_foldl]
@[simp] theorem fixed_abandonLoad (s : State) : (s.abandonLoad).fixed = s.fixed := by
  unfold State.abandonLoad; split <;> simp
theorem fixed_imageRecord {s t : State} {tgt vpos off : Nat} {data : List Byte} (h : s.imageRecord tgt vpos off data = some t) :
    t.fixed = s.fixed := by
  unfold State.imageRecord at h; dsimp only at h
  (repeat' split at h) <;> cases h
  · exact fixed_foldl (fun s a => by split <;> simp) _ _
  all_goals simp
@[simp] theorem fixed_writeImage (x0 : Nat) (x1 : List Byte) (x2 : State) : (State.writeImage x0 x1 x2).2.fixed = x2.fixed := by
  induction x0 generalizing x1 x2 with
  | zero => rfl
  | succ n ih =>
    unfold State.writeImage; dsimp only
    split
    · rfl
    · split
      · rfl
      · split
        · rfl
        · next h => rw [ih, fixed_imageRecord h]
@[simp] theorem fixed_renumber (s : State) : (s.renumber).fixed = s.fixed := by
  unfold State.renumber; dsimp only; (repeat' split) <;> simp
@[simp] theorem fixed_newMembers (s : State) (r : HostRefs) : (s.newMembers r).fixed = s.fixed := by simp [State.newMembers]
@[simp] theorem fixed_epochSettings (s : State) (r : HostRefs) :
    (s.epochSettings r).fixed = s.fixed := by simp [State.epochSettings, fixed_foldl]
@[simp] theorem fixed_epochImage (s : State) (r : HostRefs) : (s.epochImage r).2.fixed = s.fixed := by
  unfold State.epochImage; dsimp only; (repeat' split) <;> simp
@[simp] theorem fixed_epochFails (s : State) (e : Word) : (s.epochFails e).fixed = s.fixed := by simp [State.epochFails]
@[simp] theorem fixed_takeEarly (s : State) : (s.takeEarly).fixed = s.fixed := by
  unfold State.takeEarly; dsimp only
  exact (fixed_foldl (fun s a => by split <;> simp [fixed_foldl]) _ _).trans (by simp)
@[simp] theorem fixed_serveTwin (s : State) (m : Nat) : (s.serveTwin m).fixed = s.fixed := by
  unfold State.serveTwin
  split
  · simp
  · dsimp only
    simp [fixed_foldl]
@[simp] theorem fixed_openRestore (s : State) (twins : List (Nat × Nat × Nat)) :
    (s.openRestore twins).fixed = s.fixed := by simp [State.openRestore, fixed_foldl]
@[simp] theorem fixed_beginEpoch (s old : State) (q : EpochReq) : (s.beginEpoch old q).fixed = s.fixed := by
  simp [State.beginEpoch, fixed_foldl]
@[simp] theorem fixed_memoryStep (s : State) : (s.memoryStep).fixed = s.fixed := by simp [State.memoryStep, fixed_foldl]
@[simp] theorem fixed_restartCals (s : State) : (s.restartCals).fixed = s.fixed := by simp [State.restartCals, fixed_foldl]
@[simp] theorem fixed_orderNine (s : State) : (s.orderNine).fixed = s.fixed := by
  unfold State.orderNine; dsimp only
  split <;> simp [fixed_foldl]
@[simp] theorem fixed_orderTen (s : State) (b : BoundaryObs) : (s.orderTen b).fixed = s.fixed := by
  unfold State.orderTen; dsimp only; (repeat' split) <;> simp
@[simp] theorem fixed_takeMeas (s : State) : (s.takeMeas).fixed = s.fixed := by simp [State.takeMeas]
@[simp] theorem rises_ordersToTen (s : State) (b : BoundaryObs) : Rises s.fixed (s.ordersToTen b).fixed := by
  unfold State.ordersToTen
  extract_lets u v w x y
  have hy : y.fixed = s.fixed := by simp [y, x, w, v, u, apply_ite State.fixed]
  clear_value y
  refine Rises.of_kept hy ?_
  rw [fixed_takeMeas]
  exact rises_hold y .no _
@[simp] theorem rises_endRestore (s : State) : Rises s.fixed (s.endRestore).fixed := by
  unfold State.endRestore
  split
  · exact Rises.trans (by simp) (rises_ordersToTen _ _)
  · simp
@[simp] theorem fixed_tellRestore (s : State) (m : Nat) (tree : Word) : (s.tellRestore m tree).fixed = s.fixed := by
  unfold State.tellRestore; (repeat' split) <;> simp
@[simp] theorem rises_restoreGoes (s : State) : Rises s.fixed (s.restoreGoes).fixed := by
  unfold State.restoreGoes
  split_ifs
  · simp
  · simp
  · exact .of_kept (fixed_foldl (fun _ _ => fixed_tellRestore ..) _ _) (rises_endRestore _)
  · simp
@[simp] theorem rises_afterEpoch (s : State) (q : EpochReq) (b : BoundaryObs) : Rises s.fixed (s.afterEpoch q b).fixed := by
  unfold State.afterEpoch
  extract_lets u
  have hu : u.fixed = s.fixed := fixed_bumpPair ..
  clear_value u
  split
  · refine .of_kept hu (Rises.trans (y := State.fixed { u with stroke := { u.stroke with hold := .restore, obs := some b } }) (by simp) ?_)
    exact .of_kept (by rw [fixed_takeEarly, fixed_openRestore]) (rises_restoreGoes _)
  · exact .of_kept ((fixed_takeEarly u).trans hu) (rises_ordersToTen _ _)
@[simp] theorem rises_orderSix (s : State) (b : BoundaryObs) : Rises s.fixed (s.orderSix b).fixed := by
  unfold State.orderSix
  split
  · simp
  · split
    · simp
    · exact .of_kept (by simp) (rises_ordersToTen _ _)
/-- An epoch that fails drains the device, and the boundary goes on. -/
theorem rises_epochFails {s t : State} (h : Rises s.fixed t.fixed) (e : Word) (b : BoundaryObs) :
    Rises s.fixed (((t.epochFails e).takeDrain).ordersToTen b).fixed :=
  h.trans (.of_kept (by rw [fixed_takeDrain, fixed_epochFails]) (rises_ordersToTen _ _))
@[simp] theorem rises_epochDrained (s : State) : Rises s.fixed (s.epochDrained).fixed := by
  unfold State.epochDrained
  split
  · extract_lets st u
    have hu : Rises s.fixed u.fixed := by simp [u, st]
    split
    next q _ _ _ ok t ht =>
    have ht : t.fixed = u.fixed := (congrArg (fun x => x.2.fixed) ht).symm.trans (fixed_epochImage ..)
    clear_value u
    split
    · exact (hu.then_kept ((fixed_beginEpoch ..).trans ht)).trans (rises_afterEpoch ..)
    · exact rises_epochFails (hu.then_kept (by simp [ht])) _ _
  · simp
@[simp] theorem rises_epochStuck (s : State) : Rises s.fixed (s.epochStuck).fixed := by
  unfold State.epochStuck
  split
  · refine rises_epochFails ?_ _ _
    simp
  · simp
@[simp] theorem fixed_putRestored (s : State) (k : Nat) : (s.putRestored k).fixed = s.fixed := by simp [State.putRestored, fixed_foldl]
@[simp] theorem rises_reportRestore (s : State) : Rises s.fixed (s.reportRestore).fixed := by
  unfold State.reportRestore
  dsimp only
  split
  · exact .of_kept (by simp) (rises_restoreGoes _)
  · simp
@[simp] theorem rises_restoreDone (s : State) (digest : List Byte) : Rises s.fixed (s.restoreDone digest).fixed := by
  unfold State.restoreDone
  split
  · dsimp only
    split
    · exact .of_kept (by simp) (rises_reportRestore _)
    · split
      · simp
      · exact .of_kept (by simp) (rises_reportRestore _)
  · simp
@[simp] theorem rises_holdAt (s : State) (h : HoldAt) : Rises s.fixed (s.holdAt h).fixed := by simp [State.holdAt]

/-! ### Burnish -/

@[simp] theorem fixed_bootTested (s : State) : (s.bootTested).fixed = s.fixed := by
  unfold State.bootTested; split <;> simp

/-! ### Fabric -/

@[simp] theorem fixed_relink (s : State) (q n : Nat) : (s.relink q n).fixed = s.fixed := by
  unfold State.relink; dsimp only; (repeat' split) <;> simp
@[simp] theorem fixed_resendPort (s : State) (q : Nat) : (s.resendPort q).fixed = s.fixed := by simp [State.resendPort, fixed_foldl]
@[simp] theorem fixed_failLane (s : State) (lane : Nat) : (s.failLane lane).fixed = s.fixed := by
  unfold State.failLane; dsimp only; (repeat' split) <;> simp
@[simp] theorem fixed_bootPorts (s : State) : (s.bootPorts).fixed = s.fixed := by
  unfold State.bootPorts; split <;> simp [fixed_foldl]

/-! ### Memory -/

@[simp] theorem fixed_holdSlot (s : State) (ch v : Nat) (cls : StallClass) (held : Nat) : (s.holdSlot ch v cls held).fixed = s.fixed := by
  unfold State.holdSlot; dsimp only; (repeat' split) <;> simp
@[simp] theorem fixed_readSlot (s : State) (ch v t : Nat) (d : TicketDef) (u : SlotUnit) (err : ReadErr) :
    (s.readSlot ch v t d u err).fixed = s.fixed := by
  unfold State.readSlot; dsimp only; (repeat' split) <;> simp
theorem fixed_slotBytes {s t : State} {v p : Nat} {k : Ticket} {d : TicketDef} {u : SlotUnit} {bs : List Byte}
    (h : s.slotBytes v p k d u = some (bs, t)) : t.fixed = s.fixed := by
  unfold State.slotBytes at h; dsimp only at h
  split at h
  · cases h; rfl
  · obtain ⟨q, -, hq⟩ := Option.map_eq_some_iff.1 h
    cases hq
    exact (fixed_foldl (fun s a => by split <;> simp) _ _).trans (by simp)
@[simp] theorem fixed_writeUnit (s : State) (d : TicketDef) (u : SlotUnit) (run : Nat) (bs : List Byte) :
    (s.writeUnit d u run bs).fixed = s.fixed := by
  unfold State.writeUnit; split <;> simp [fixed_foldl]
theorem fixed_landGrains {s t : State} {v p : Nat} {k : Ticket} {gs : List (Nat × List Byte)} (h : State.landGrains v p k gs s = some t) :
    t.fixed = s.fixed := by
  induction gs generalizing s with
  | nil => cases h; rfl
  | cons g gs ih =>
    obtain ⟨u, hu, ht⟩ := Option.bind_eq_some_iff.1 h
    rw [ih ht, fixed_landGrain hu]
@[simp] theorem fixed_scrubRead (s : State) (l k : Nat) (err : ReadErr) : (s.scrubRead l k err).fixed = s.fixed := by simp [State.scrubRead]
@[simp] theorem fixed_badRows (s : State) (v : Nat) (r : NarrowReq) (d : NarrowDef) : (s.badRows v r d).2.fixed = s.fixed := by
  unfold State.badRows
  exact fixed_foldl_snd (fun x a => by split <;> simp) _ _
@[simp] theorem fixed_serveGrain (s : State) (r : NarrowReq) (k x3 : Nat) (err : ReadErr) :
    (s.serveGrain r k x3 err).2.fixed = s.fixed := by
  unfold State.serveGrain; split <;> simp
@[simp] theorem fixed_endNarrow (s : State) (v p : Nat) (r : NarrowReq) (n : Nat) :
    (s.endNarrow v p r n).fixed = s.fixed := by simp [State.endNarrow]
@[simp] theorem fixed_holdAll (s : State) (v held : Nat) : (s.holdAll v held).fixed = s.fixed := by simp [State.holdAll, fixed_foldl]
@[simp] theorem fixed_stopJob (s : State) : (s.stopJob).fixed = s.fixed := by
  unfold State.stopJob; split <;> simp
@[simp] theorem fixed_stackOut (s : State) (k : Nat) : (s.stackOut k).fixed = s.fixed := by
  unfold State.stackOut
  exact (fixed_foldl (fun s a => by dsimp only; split <;> simp) _ _).trans (by simp)
@[simp] theorem fixed_trainHbm (s : State) (bad : List Nat) : (s.trainHbm bad).fixed = s.fixed := by
  unfold State.trainHbm; dsimp only
  split <;> simp [fixed_foldl]
@[simp] theorem fixed_trainBulk (s : State) (bad : List Nat) : (s.trainBulk bad).fixed = s.fixed := by
  unfold State.trainBulk; split <;> simp [fixed_foldl]
@[simp] theorem fixed_retrained (s : State) (bad : List Nat) : (s.retrained bad).fixed = s.fixed := by simp [State.retrained, fixed_foldl]
@[simp] theorem fixed_storeTraining (s : State) (found : List Byte) : (s.storeTraining found).fixed = s.fixed := by
  unfold State.storeTraining; split <;> simp

/-! ### Power -/

@[simp] theorem fixed_vrFault (s : State) (status : Nat) : (s.vrFault status).fixed = s.fixed := by simp [State.vrFault]
@[simp] theorem fixed_recallGasp (s : State) : (s.recallGasp).fixed = s.fixed := by simp [State.recallGasp]
@[simp] theorem fixed_gaspOnce (s : State) (reason detail : Nat) : (s.gaspOnce reason detail).fixed = s.fixed := by
  unfold State.gaspOnce; dsimp only; (repeat' split) <;> simp
@[simp] theorem fixed_stretchOn (s : State) : (s.stretchOn).fixed = s.fixed := by
  unfold State.stretchOn; split <;> simp
@[simp] theorem fixed_stretchOff (s : State) : (s.stretchOff).fixed = s.fixed := by
  unfold State.stretchOff; dsimp only; (repeat' split) <;> simp
@[simp] theorem fixed_setStretch (s : State) (x : StretchSrc) : (s.setStretch x).fixed = s.fixed := by simp [State.setStretch]
@[simp] theorem fixed_vrWarn (s : State) (amps : Nat) : (s.vrWarn amps).fixed = s.fixed := by
  unfold State.vrWarn; dsimp only; (repeat' split) <;> simp

/-! ### Ring -/

@[simp] theorem fixed_moveStage (s : State) (x : StageOp) (host : List Byte) : (s.moveStage x host).fixed = s.fixed := by
  unfold State.moveStage; split <;> simp

/-! ### BootOps -/

@[simp] theorem fixed_cleared (s : State) : (s.cleared).fixed = ⟨s.fuses, s.pending, 0, .no, []⟩ := by
  simp [State.cleared, show State.reset.stroke.devStroke = 0 from rfl, show State.reset.stroke.hold = .no from rfl,
    show StepSt.reset.replayRecs = [] from rfl]
@[simp] theorem fixed_holdReset (s : State) (pwrgood : Bool) : (s.holdReset pwrgood).fixed = ⟨s.fuses, s.pending, 0, .no, []⟩ := by
  simp [State.holdReset]
@[simp] theorem fixed_setDev (s : State) (d : DevState) : (s.setDev d).fixed = s.fixed := by simp [State.setDev]
@[simp] theorem fixed_setStage (s : State) (n : Nat) : (s.setStage n).fixed = s.fixed := by simp [State.setStage]
@[simp] theorem fixed_bootFails (s : State) (k : Nat) : (s.bootFails k).fixed = s.fixed := by simp [State.bootFails]
@[simp] theorem fixed_bootRoles (s : State) : (s.bootRoles).fixed = s.fixed := by
  unfold State.bootRoles
  exact fixed_foldl (fun s a => by split_ifs <;> simp) _ _
@[simp] theorem fixed_boardBulk (s : State) : (s.boardBulk).fixed = s.fixed := by
  unfold State.boardBulk; dsimp only; (repeat' split) <;> simp
@[simp] theorem fixed_bootClock (s : State) (rail : Option Word) : (s.bootClock rail).fixed = s.fixed := by
  unfold State.bootClock; dsimp only; (repeat' split) <;> simp
@[simp] theorem fixed_bootImage (s : State) (rail : Option Word) : (s.bootImage rail).fixed = s.fixed := by
  unfold State.bootImage; dsimp only; (repeat' split) <;> simp
@[simp] theorem fixed_powerOn (s : State) (b : BootObs) : (s.powerOn b).fixed = ⟨s.fuses, s.pending, 0, .no, []⟩ := by
  unfold State.powerOn; dsimp only; (repeat' split) <;> simp
@[simp] theorem fixed_recoveryGo (s : State) : (s.recoveryGo).fixed = s.fixed := by
  unfold State.recoveryGo; dsimp only; (repeat' split) <;> simp
@[simp] theorem fixed_pciReset (s : State) (why : Nat) : (s.pciReset why).fixed = s.fixed := by
  unfold State.pciReset; split <;> simp
@[simp] theorem fixed_wakeUp (s : State) : (s.wakeUp).fixed = s.fixed := by
  unfold State.wakeUp; split <;> simp
@[simp] theorem fixed_standbyEntered (s : State) : (s.standbyEntered).fixed = s.fixed := by
  unfold State.standbyEntered
  split
  · rfl
  · simp [fixed_foldl, apply_ite State.fixed]
@[simp] theorem fixed_woken (s : State) : (s.woken).fixed = s.fixed := by
  unfold State.woken; split <;> simp [fixed_foldl]

/-! ### Manage -/

@[simp] theorem fixed_clearAssay (s : State) : (s.clearAssay).fixed = s.fixed := by
  unfold State.clearAssay; split <;> simp
@[simp] theorem fixed_clearCe (s : State) (k : Nat) (bits : Word) : (s.clearCe k bits).fixed = s.fixed := by
  unfold State.clearCe
  exact fixed_foldl (fun s a => by split <;> simp) _ _
@[simp] theorem fixed_tellDrop (s : State) : (s.tellDrop).fixed = s.fixed := by
  unfold State.tellDrop; split <;> simp
@[simp] theorem fixed_writeLogCfg (s : State) (path : Path) (pg : Page) (v : Word) : (s.writeLogCfg path pg v).fixed = s.fixed := by
  unfold State.writeLogCfg; dsimp only; (repeat' split) <;> simp
@[simp] theorem fixed_writeWall (s : State) (path : Path) (pg : Page) (v : Word) :
    (s.writeWall path pg v).fixed = s.fixed := by simp [State.writeWall]
@[simp] theorem fixed_writePortCfg (s : State) (path : Path) (pg : Page) (off : Nat) (v : Word) :
    (s.writePortCfg path pg off v).fixed = s.fixed := by
  unfold State.writePortCfg; dsimp only; (repeat' split) <;> simp
@[simp] theorem fixed_bar2Write (s : State) (off : Nat) (data : List Byte) : (s.bar2Write off data).fixed = s.fixed := by
  unfold State.bar2Write; dsimp only; (repeat' split) <;> simp
@[simp] theorem fixed_sealNote (s : State) (off len : Nat) : (s.sealNote off len).fixed = s.fixed := by
  unfold State.sealNote; dsimp only; (repeat' split) <;> simp
@[simp] theorem fixed_bar2Note (s : State) (off len : Nat) : (s.bar2Note off len).fixed = s.fixed := by
  unfold State.bar2Note; split <;> simp

/-! ### Attest -/

@[simp] theorem fixed_answer (s : State) (r : SpdmResp) : (s.answer r).fixed = s.fixed := by
  unfold State.answer; split <;> simp
@[simp] theorem fixed_refuseSpdm (s : State) : (s.refuseSpdm).fixed = s.fixed := by simp [State.refuseSpdm]
@[simp] theorem fixed_noteCerts (s : State) (bs : List Byte) : (s.noteCerts bs).fixed = s.fixed := by simp [State.noteCerts]
@[simp] theorem fixed_nonce (s : State) : (s.nonce).2.fixed = s.fixed := by simp [State.nonce]

/-! ### Collective -/

@[simp] theorem fixed_coordTakeover (s : State) (c : CollCfg) (stage group lane seg : Nat) :
    (s.coordTakeover c stage group lane seg).fixed = s.fixed := by
  unfold State.coordTakeover; dsimp only; (repeat' split) <;> simp
@[simp] theorem fixed_backupTakeover (s : State) (c : CollCfg) (stage group lane seg : Nat) :
    (s.backupTakeover c stage group lane seg).fixed = s.fixed := by
  unfold State.backupTakeover; dsimp only
  split
  · rfl
  · split_ifs <;> simp [fixed_foldl]
@[simp] theorem fixed_contribTakeover (s : State) (c : CollCfg) (stage group seg : Nat) :
    (s.contribTakeover c stage group seg).fixed = s.fixed := by
  unfold State.contribTakeover; dsimp only
  split
  · rfl
  · simp [fixed_foldl, apply_ite State.fixed]

/-! ### Landing -/

@[simp] theorem fixed_placeColl (s : State) (coll : Word) (step : DWord) (k : Nat) : (s.placeColl coll step k).fixed = s.fixed := by
  unfold State.placeColl; split <;> simp
@[simp] theorem fixed_afterBitmaps (s : State) (coll : Word) (step : DWord) (k : Nat) : (s.afterBitmaps coll step k).fixed = s.fixed := by
  unfold State.afterBitmaps
  (repeat' split) <;> simp
theorem fixed_landItem {s t : State} {v : Nat} {i : Item} (h : s.landItem v i = some t) : t.fixed = s.fixed := by
  cases i with
  | granule off bytes =>
    simp only [State.landItem] at h
    split at h
    · cases h; rfl
    · obtain ⟨c, -, rfl⟩ := Option.map_eq_some_iff.1 h
      rfl
  | counter ctr d =>
    simp only [State.landItem] at h
    split at h <;> cases h <;> simp
  | done u ctr | written coll step k | mapped coll step k =>
    simp only [State.landItem, Option.some.injEq] at h
    rw [← h]; simp
@[simp] theorem fixed_landItems (v : Nat) (x1 : List Item) (x2 : State) : (landItems v x1 x2).2.fixed = x2.fixed := by
  induction x1 generalizing x2 with
  | nil => rfl
  | cons i l ih =>
    unfold landItems
    split
    · rfl
    · next h => rw [ih, fixed_landItem h]
@[simp] theorem fixed_landUpset (s : State) (v : Nat) (u : Option Upset) : (s.landUpset v u).fixed = s.fixed := by
  unfold State.landUpset; split <;> simp

/-! ### Movement -/

@[simp] theorem fixed_lateCheck (s : State) (v p : Nat) (i : Issue) (u : Option Upset) : (s.lateCheck v p i u).fixed = s.fixed := by
  unfold State.lateCheck
  split <;> (try split) <;> simp

/-! ### Pins -/

@[simp] theorem fixed_freeBits (x0 : Nat) (x1 : State) : (State.freeBits x0 x1).2.fixed = x1.fixed := by
  induction x0 generalizing x1 with
  | zero => rfl
  | succ n ih => unfold State.freeBits; simp [ih]
@[simp] theorem fixed_captureDr (s : State) : (s.captureDr).2.fixed = s.fixed := by
  unfold State.captureDr; split <;> simp
@[simp] theorem fixed_captureIr (s : State) : (s.captureIr).2.fixed = s.fixed := by simp [State.captureIr]
@[simp] theorem fixed_jtagLatch (s : State) (t : Tap) : (s.jtagLatch t).fixed = s.fixed := by simp [State.jtagLatch]
@[simp] theorem fixed_setIr (s : State) (l : List Bool) : (s.setIr l).fixed = s.fixed := by simp [State.setIr]
@[simp] theorem fixed_setDr (s : State) (l : List Bool) : (s.setDr l).fixed = s.fixed := by simp [State.setDr]
@[simp] theorem fixed_tck (s : State) (tms tdi : Bool) : (s.tck tms tdi).fixed = s.fixed := by
  unfold State.tck; dsimp only; (repeat' split) <;> simp

/-! ### Sync -/

@[simp] theorem fixed_waitCheck (s : State) (v p : Nat) (st : Stream) (u : Option Upset) : (s.waitCheck v p st u).fixed = s.fixed := by
  unfold State.waitCheck
  split
  · split <;> simp
  · rfl

@[simp] theorem fixed_tick (s : State) : s.tick.fixed = s.fixed := by
  unfold State.tick
  split <;> simp

theorem rises_foldl {α : Type} {f : State → α → State} (h : ∀ s a, Rises s.fixed (f s a).fixed) (l : List α) (s : State) :
    Rises s.fixed (l.foldl f s).fixed := by
  induction l generalizing s with
  | nil => exact .refl _
  | cons a l ih => exact (h s a).trans (ih _)

@[simp] theorem rises_cmdSvn (s : State) (e : RingEntry) (ok : Nat) : Rises s.fixed (s.cmdSvn e ok).fixed := by
  have h : (s.cmdSvn e ok).fixed = ⟨{ s.fuses with minSvn := min 64 (max s.fuses.minSvn s.mgmt.fwSvn) }, s.pending, s.stroke.devStroke,
      s.stroke.hold, s.stp.replayRecs⟩ := by
    simp [State.cmdSvn]
  rw [h]
  exact ⟨⟨rfl, rfl, fun hs => ⟨le_min hs (le_max_left _ _), min_le_left _ _⟩⟩, rfl⟩

@[simp] theorem rises_carryOut (s : State) (e : RingEntry) (op ok : Nat) : Rises s.fixed (s.carryOut e op ok).fixed := by
  unfold State.carryOut
  split <;> simp

@[simp] theorem rises_applyEntry (s : State) (e : RingEntry) (idx : Nat) (late : Bool) :
    Rises s.fixed (s.applyEntry e idx late).fixed := by
  unfold State.applyEntry
  extract_lets late' u
  have hu : u.fixed = s.fixed := by simp only [u, apply_ite State.fixed, fixed_raiseM, ite_self]
  rw [← hu]
  (repeat' split) <;> simp

theorem rises_applyDue (l : List (RingEntry × Bool)) (s : State) : Rises s.fixed (applyDue l s).2.fixed := by
  induction l generalizing s with
  | nil => exact .refl _
  | cons x l ih =>
    unfold applyDue
    split
    · exact (rises_applyEntry ..).trans (ih _)
    · exact .refl _

@[simp] theorem rises_applyRing (s : State) : Rises s.fixed s.applyRing.fixed :=
  rises_applyDue s.ring.entries { s with ring := { s.ring with entries := [] } }

@[simp] theorem rises_applyNow (s : State) (op : Nat) (e : RingEntry) : Rises s.fixed (s.applyNow op e).fixed := by
  simp only [State.applyNow]
  split
  · exact rises_applyEntry ..
  · exact .refl _

@[simp] theorem rises_orderFive (s : State) (b : BoundaryObs) : Rises s.fixed (s.orderFive b).fixed := by
  unfold State.orderFive
  extract_lets c st u st' v w
  have hu : Rises s.fixed u.fixed :=
    (rises_applyRing { s with stroke := { s.stroke with closing := none } }).then_kept (fixed_enterStandby _)
  have hv : v.fixed = u.fixed := fixed_takeDrain _
  have hw : w.fixed = v.fixed := by simp only [w, apply_ite State.fixed, fixed_fenceStep, ite_self]
  exact (hu.then_kept (hw.trans hv)).trans (rises_orderSix _ _)

@[simp] theorem rises_afterFour (s : State) : Rises s.fixed s.afterFour.fixed := by
  unfold State.afterFour
  split
  · exact Rises.trans (by simp) (rises_orderFive { s with stroke := { s.stroke with hold := .no } } _)
  · exact .refl _

@[simp] theorem rises_stepCloses (s : State) (v : JobVerdict) : Rises s.fixed (s.stepCloses v).fixed := by
  unfold State.stepCloses
  extract_lets u
  have hu : (u.closeStep v).fixed = s.fixed := (fixed_closeStep _ _).trans (fixed_bumpPair _ _ _)
  exact hu ▸ rises_afterFour _

@[simp] theorem rises_orderFourC (s : State) : Rises s.fixed s.orderFourC.fixed := by
  have hi : s.issueVerdict.fixed = s.fixed := fixed_issueVerdict s
  unfold State.orderFourC
  split
  · split
    · exact fixed_compareReplay s _ ▸ rises_stepCloses _ _
    · simp
  · split
    · exact rises_stepCloses _ _
    · split
      · dsimp only
        split
        · exact hi ▸ rises_stepCloses _ _
        · simp
      · simp

@[simp] theorem rises_orderFourB (s : State) : Rises s.fixed s.orderFourB.fixed := by
  have h : s.formLocal.sendVote.fixed = s.fixed := by simp
  unfold State.orderFourB
  split
  · simp
  · exact h ▸ rises_orderFourC _

@[simp] theorem rises_orderFourA (s : State) : Rises s.fixed s.orderFourA.fixed := by
  have h : s.writePending.fixed = s.fixed := by simp
  unfold State.orderFourA
  dsimp only
  split
  · exact .of_kept h (rises_holdAt _ _)
  · exact h ▸ rises_orderFourB _

@[simp] theorem rises_orderFour (s : State) : Rises s.fixed s.orderFour.fixed := by
  unfold State.orderFour
  split
  · exact rises_orderFourA { s with stroke := { s.stroke with closes := true } }
  · exact rises_afterFour s

@[simp] theorem rises_resume (s : State) : Rises s.fixed s.resume.fixed := by
  unfold State.resume
  split <;> simp

/-- Before the work that was held goes on, the queue and the fuses are as they were. -/
theorem rises_resume_of_kept {s t : State} (h : t.fixed = s.fixed) : Rises s.fixed t.resume.fixed := h ▸ rises_resume t

/-- A boundary raises the device stroke number by 1 at order 3, and changes it nowhere else. -/
theorem rises_boundary (s : State) (b : BoundaryObs) :
    Rises ⟨s.fuses, s.pending, s.stroke.devStroke + 1, s.stroke.hold, s.stp.replayRecs⟩ (s.boundary b).fixed := by
  unfold State.boundary
  extract_lets st u
  split
  next newly v hv =>
  extract_lets w x y z
  have hv : v.fixed = u.fixed := by
    have := congrArg (fun p => p.2.fixed) hv
    simpa using this.symm
  have hv : v.fixed = s.fixed := hv
  have hw : w.fixed = ⟨s.fuses, s.pending, s.stroke.devStroke + 1, s.stroke.hold, s.stp.replayRecs⟩ :=
    (fixed_orderThree v).trans (congrArg (fun x : Fixed => { x with devStroke := x.devStroke + 1 }) hv)
  have hx : x.fixed = w.fixed := fixed_foldl (fun _ _ => by simp) _ _
  have hz : z.fixed = ⟨s.fuses, s.pending, s.stroke.devStroke + 1, s.stroke.hold, s.stp.replayRecs⟩ := (hx : z.fixed = w.fixed).trans hw
  exact hz ▸ rises_orderFour z

@[simp] theorem rises_frameOf (s : State) (fits : Bool) (r : Rx) : Rises s.fixed (s.frameOf fits r).fixed := by
  unfold State.frameOf
  split
  · exact rises_resume_of_kept (fixed_onFrame s r)
  · exact .refl _

@[simp] theorem rises_writeOwn (s : State) (path : Path) (pg : Page) (off : Nat) (v : Word) :
    Rises s.fixed (s.writeOwn path pg off v).fixed := by
  have h : Rises s.fixed ((s.writeWord path pg off v).writePending.resume).fixed := rises_resume_of_kept (by simp)
  unfold State.writeOwn
  simp only [apply_ite State.fixed, apply_ite (Rises s.fixed), h]
  simp

@[simp] theorem rises_writeReg (s : State) (path : Path) (off : Nat) (v : Word) :
    Rises s.fixed (s.writeReg path off v).fixed := by
  unfold State.writeReg
  (repeat' split) <;> simp

@[simp] theorem rises_mctpDo (s : State) (m : MctpMsg) : Rises s.fixed (s.mctpDo m).fixed := by
  cases m with
  | regRead off =>
    simp only [State.mctpDo]
    split <;> simp
  | regWrite off v =>
    simp only [State.mctpDo]
    split
    · simp
    · exact (rises_writeReg ..).then_kept (fixed_send ..)
  | fwUpdate image => simp [State.mctpDo]
  | other => simp [State.mctpDo]

theorem rises_regWrite {s t : State} {path : Path} {off : Nat} {v : Word} (h : s.regWrite path off v = .next t) :
    Rises s.fixed t.fixed := by
  unfold State.regWrite at h
  split at h
  · cases h
  · cases h
    exact rises_writeReg ..

theorem rises_execRegisterWrite {s t : State} {p : Path} {off : Nat} {v : Word} {enables : BitVec 4}
    (h : execRegisterWrite p off v enables s = .next t) : Rises s.fixed t.fixed := by
  unfold execRegisterWrite at h
  split at h
  · exact rises_regWrite h
  · split at h
    · cases h
    · cases h
      exact .refl _

theorem rises_execRegisterLoRead {s t : State} {p : Path} {off : Nat} (h : execRegisterLoRead p off s = .next t) :
    Rises s.fixed t.fixed := by
  unfold execRegisterLoRead at h
  split at h
  · cases h
  · cases h
    exact (Rises.refl _).then_kept (fixed_readReg s p _)

theorem rises_execBar2Write {s t : State} {off : Nat} {data : List Byte} (h : execBar2Write off data s = .next t) :
    Rises s.fixed t.fixed := by
  unfold execBar2Write at h
  split at h
  · cases h
  · cases h
    simp

theorem rises_execBar2Read {s t : State} {off len : Nat} (h : execBar2Read off len s = .next t) : Rises s.fixed t.fixed := by
  unfold execBar2Read at h
  split at h
  · cases h
  · cases h
    exact (Rises.refl _).then_kept (s := s) (by simp)

theorem rises_execMctpPacket {s t : State} {via : MctpVia} {m : MctpMsg} (h : execMctpPacket via m s = .next t) :
    Rises s.fixed t.fixed := by
  cases h
  split <;> simp

theorem advances_execStrokeBoundary {s t : State} {b : BoundaryObs} (h : execStrokeBoundary b s = .next t) :
    Advances s.fixed t.fixed := by
  cases h
  split
  · exact (advances_stroke s _ _ _).trans (rises_boundary s b).toAdvances
  · exact .refl _

theorem rises_execWaitTimeout {s t : State} {v : Fin 128} {st : Stream} (h : execWaitTimeout v st s = .next t) :
    Rises s.fixed t.fixed := by
  injection h with h
  subst h
  split
  · exact .refl _
  next p _ =>
  extract_lets c
  split
  · exact .refl _
  next w _ =>
  extract_lets x u y z
  split
  · exact .refl _
  · have hu : u.fixed = s.fixed := (fixed_bumpPair ..).trans (fixed_setCore ..)
    have hy : y.fixed = u.fixed := fixed_coreRaise ..
    have hz : z = y.stroke := rfl
    clear_value z
    subst hz
    clear_value y
    exact (Rises.refl _).then_kept (s := s) ((fixed_drainNext y).trans (hy.trans hu))

theorem advances_execPowerOnReset {s t : State} {b : BootObs} (h : execPowerOnReset b s = .next t) : Advances s.fixed t.fixed := by
  cases h
  simp

theorem advances_execResetAssert {s t : State} {pwrgood : Bool} {lowNs : Nat} (h : execResetAssert pwrgood lowNs s = .next t) :
    Advances s.fixed t.fixed := by
  cases h
  split <;> simp

theorem rises_execVoteDeadline {s t : State} (h : execVoteDeadline s = .next t) : Rises s.fixed t.fixed := by
  cases h
  split
  · exact rises_resume_of_kept (fixed_issueVerdict s)
  · exact .refl _

theorem rises_execVerdictTakeover {s t : State} (h : execVerdictTakeover s = .next t) : Rises s.fixed t.fixed := by
  cases h
  split
  · exact rises_resume_of_kept (fixed_issueVerdict s)
  · exact .refl _

theorem rises_execResendTimeout {s t : State} {fl : Fin 4096} {seq : Word} (h : execResendTimeout fl seq s = .next t) :
    Rises s.fixed t.fixed := by
  cases h
  split
  · exact .refl _
  · exact rises_resume_of_kept (fixed_resendOrFail ..)

theorem rises_execReplayRecordArrival {s t : State} {record : List Byte} (h : execReplayRecordArrival record s = .next t) :
    Rises s.fixed t.fixed := by
  cases h
  split
  · exact .refl _
  · dsimp only
    split
    · exact Rises.trans (by simp [fixed_takeReplay]) (rises_resume _)
    · exact .refl _

theorem rises_execOndieTransferLanding {s t : State} {k : Nat} {x : HoldObs} (h : execOndieTransferLanding k x s = .next t) :
    Rises s.fixed t.fixed := by
  cases h
  split
  · exact .refl _
  · split
    · exact .refl _
    · exact rises_resume_of_kept (s := s) (by simp [apply_ite State.fixed])

theorem rises_execCollectiveDeadline {s t : State} {coll : Word} {seg : Nat} {late : Bool}
    (h : execCollectiveDeadline coll seg late s = .next t) : Rises s.fixed t.fixed := by
  unfold execCollectiveDeadline at h
  injection h with h
  subst h
  cases s.collCfg coll with
  | none => exact .refl _
  | some c => exact rises_resume_of_kept (fixed_foldl (fun _ _ => by simp) _ _)

theorem rises_execBackupTakeover {s t : State} {coll : Word} {seg : Nat} (h : execBackupTakeover coll seg s = .next t) :
    Rises s.fixed t.fixed := by
  unfold execBackupTakeover at h
  injection h with h
  subst h
  cases s.collCfg coll with
  | none => exact .refl _
  | some c =>
    dsimp -zeta only
    extract_lets o
    split
    · exact .refl _
    · exact rises_resume_of_kept (fixed_foldl (fun _ _ => by simp) _ _)

theorem rises_execResultSegmentTimeout {s t : State} {coll : Word} {seg : Nat} (h : execResultSegmentTimeout coll seg s = .next t) :
    Rises s.fixed t.fixed := by
  unfold execResultSegmentTimeout at h
  injection h with h
  subst h
  cases s.collCfg coll with
  | none => exact .refl _
  | some c =>
    cases s.collRun? coll s.stroke.step with
    | none => exact .refl _
    | some r =>
      dsimp only
      split
      · exact .refl _
      · exact rises_resume_of_kept ((fixed_collGo _ _).trans (fixed_raisePeer ..))

theorem rises_execInterlockRelease {s t : State} {v : Fin 128} {k : Nat} {x : HoldObs} {cls : StallClass}
    (h : execInterlockRelease v k x cls s = .next t) : Rises s.fixed t.fixed := by
  cases h
  split
  · exact .refl _
  split
  · exact .refl _
  next _ p _ _ i _ =>
  have hp : (s.tryPerform v p 0 i).1.fixed = s.fixed := by simp
  dsimp only
  generalize s.tryPerform v p 0 i = q at hp
  obtain ⟨u, _ | g⟩ := q
  · exact (Rises.refl _).then_kept (by simp [hp])
  · dsimp only
    split
    · exact (Rises.refl _).then_kept (by simp [hp])
    · exact .refl _

theorem rises_execCalendarReadDelivery {s t : State} {k : Nat} {x : HoldObs} (h : execCalendarReadDelivery k x s = .next t) :
    Rises s.fixed t.fixed := by
  injection h with h
  subst h
  split
  · exact .refl _
  split
  · exact .refl _
  extract_lets m off
  have ho : off.fixed = s.fixed := by simp only [off, fixed_mk, fixed_eta]
  split
  · exact (Rises.refl _).then_kept ho
  next p _ =>
  extract_lets hit
  have hh : hit.fixed = s.fixed := by
    simp only [hit]
    split
    · exact (fixed_onDataPath ..).trans ho
    · exact ho
  split
  · split
    · exact .refl _
    · next u hu =>
      have hu := fixed_landGrains hu
      exact (Rises.refl _).then_kept (by simp [hu, hh])
  · split
    · exact .refl _
    · exact (Rises.refl _).then_kept ((fixed_setCore ..).trans hh)

theorem rises_execCalendarDataSlot {s t : State} {ch : Fin 396} {x : SlotObs} (h : execCalendarDataSlot ch x s = .next t) :
    Rises s.fixed t.fixed := by
  injection h with h
  subst h
  extract_lets ch
  split
  · exact .refl _
  split
  · exact .refl _
  extract_lets u
  split
  next kind t v count he =>
  have hu : u.fixed = s.fixed := fixed_setPc ..
  extract_lets next idle
  have hn : ∀ w : State, (next w).fixed = w.fixed := fun w => fixed_setPc ..
  have hi : idle.fixed = s.fixed := by simp only [idle, hn, fixed_setPc, hu]
  clear_value next idle u
  have hidle : Rises s.fixed idle.fixed := (Rises.refl _).then_kept hi
  have hhold : ∀ cls, Rises s.fixed (u.holdSlot ch v cls x.held).fixed := fun _ => (Rises.refl _).then_kept (by simp [hu])
  have hread : ∀ d w, Rises s.fixed (next (u.readSlot ch v t d w x.err)).fixed := fun _ _ =>
    (Rises.refl _).then_kept (by simp [hn, hu])
  split
  · split
    · exact hidle
    split
    · exact hhold _
    · split
      · exact hread _ _
      · exact hhold _
    · split
      · exact hread _ _
      · split
        · exact hhold _
        · next hb => exact (Rises.refl _).then_kept (by simp [hn, fixed_slotBytes hb, hu])
  · exact hidle

/-- Whatever a command does, it leaves the queue and every fuse but the SVN, which does not fall. -/
theorem advances_exec {i : Instr} {s t : State} (h : exec i s = .next t) : Advances s.fixed t.fixed := by
  cases i with
  | nop | stend | jobend | commit | slotpat | loop | rdspec | add | sub | mul | and | or | xor | shl | shr | sra | min | max | minu | maxu
  | cmp | sel | li | lih | lds | sts | pand | por | pxor | pandn | pfirst | pcnt | scadd | scsub | wait | signal | hint | mcopy | calarm
  | gather | scatter | nsend | nrecv | ncoll | mload | mstr | mstrt | mdrain | mew | vadd | vsub | vmul | vfma | vmin | vmax | vcmp | vsel
  | vand | vor | vxor | vshl | vshr | vsra | vsgn | vcvt | vrnd | vtr | vred | vcpr | vxpd | vcpst | vxpld | vld | vst | flags | vstat =>
    injection h with h
    exact ((Rises.refl _).then_kept (h ▸ fixed_issueOp ..)).toAdvances
  | jobStart | setCap | setSetting | epoch | loadWeights | stage | retrain | burnishRun | standby | fwUpdate | svnAdvance
  | wallNote | burnishTestComplete | pauseSliceEnd | rotationCopyComplete | epochDrainTimeout | twinRestoreComplete | igsumDataPacket
  | contribPacket | resultPacket | ack | nack | report | decision | vote | verdict | withdraw | reportAgain | hello | heartbeat | pace
  | blame | loadChunkPacket | loadComplete | linkRetryRequest | linkReplayTimeout | paceHoldExpiry | laneFailure | stretchRelease
  | perst | pcieHotReset | functionLevelReset | wakeComplete | pciWake | pciRecoveryGo | asyClr | hbmPcClr | mssWallHiWrite
  | pwrCapWrite | stkLedgerCiWrite | pciCplCiWrite | pciRingCfgWrite | logCfgWrite | logCiWrite | standbyEntryComplete =>
    injection h with h
    subst h
    exact Rises.toAdvances (by simp)
  | strokeEndReached | stretchMaxExpiry | commandFetchArrival | stageComplete | deferMaxExpiry | packImageInstall | assayLimitReached
  | drainComplete | drainLimitExpiry | epochDrainComplete | loadStallTimeout | ackTimer | peerSilentTimeout | blameTallyTimer | paceResend
  | arpRequest | bulkChannelFailure | powerSample | pmbusPoll | avsbusTelemetryTimeout | droopDetect | annealHoldExpiry | thermtripTimeout
  | sensorTimeout | mctpWakeCommand | getVersion | getCapabilities | getDigests | getCertificate | memoryTrainingComplete
  | firmwareWriteComplete | sendRateRise | nackBackoffExpiry | jtagTck | storedChunkRead =>
    injection h with h
    subst h
    refine Rises.toAdvances ?_
    (repeat' split) <;> simp
  | waitSatisfied | fetchBeyondStore | abort | burnishDue | pfcPauseFrame | laneFecCheck | laneRetrainDone | portLinkUp
  | refreshReserveSlot | narrowSlot | migrationComplete | hbmTemperatureRead | vrAlertN | slackCritical | annealWindow | junctionSensorRead
  | pgWarnN | negotiateAlgorithms | challenge | getMeasurements | fillerResidueMismatch =>
    injection h with h
    subst h
    refine Rises.toAdvances ?_
    dsimp only
    (repeat' split) <;> simp
  | heartbeatTimer | verdictResend | pseudoChannelLoss =>
    injection h with h
    subst h
    refine Rises.toAdvances ?_
    (repeat' split) <;> simp [fixed_foldl, apply_ite State.fixed]
  | evtClear | cntClr | evtForce | lockSet | lockClear =>
    exact (rises_regWrite h).toAdvances
  | ondieTransferLanding k h => exact (rises_execOndieTransferLanding h).toAdvances
  | interlockRelease v k h cls => exact (rises_execInterlockRelease h).toAdvances
  | strokeBoundary b => exact advances_execStrokeBoundary h
  | waitTimeout v st => exact (rises_execWaitTimeout h).toAdvances
  | powerOnReset b => exact advances_execPowerOnReset h
  | resetAssert pwrgood lowNs => exact advances_execResetAssert h
  | resendTimeout fl seq => exact (rises_execResendTimeout h).toAdvances
  | collectiveDeadline coll seg late =>
    rw [exec] at h
    exact (rises_execCollectiveDeadline h).toAdvances
  | backupTakeover coll seg =>
    rw [exec] at h
    exact (rises_execBackupTakeover h).toAdvances
  | resultSegmentTimeout coll seg =>
    rw [exec] at h
    exact (rises_execResultSegmentTimeout h).toAdvances
  | voteDeadline => exact (rises_execVoteDeadline h).toAdvances
  | verdictTakeover => exact (rises_execVerdictTakeover h).toAdvances
  | calendarDataSlot ch x => exact (rises_execCalendarDataSlot h).toAdvances
  | calendarReadDelivery k h => exact (rises_execCalendarReadDelivery h).toAdvances
  | mctpPacket via m => exact (rises_execMctpPacket h).toAdvances
  | bar2Write off data => exact (rises_execBar2Write h).toAdvances
  | bar2Read off len => exact (rises_execBar2Read h).toAdvances
  | registerLoRead p off => exact (rises_execRegisterLoRead h).toAdvances
  | registerWrite p off v enables => exact (rises_execRegisterWrite h).toAdvances
  | replayRecordArrival record => exact (rises_execReplayRecordArrival h).toAdvances
  | _ => -- UNSEAL, whose name is a word of Lean's own
    injection h with h
    subst h
    exact Rises.toAdvances (by simp)

/-- Settles O60: a command's effect rises (`advances_exec`), and the time that passes on an empty queue changes neither. -/
theorem fusesOnlyRise : Obligations.FusesOnlyRise := by
  unfold Obligations.FusesOnlyRise
  intro s t hs h
  unfold step at h
  split at h
  next hq =>
    have ht : t.fixed = s.fixed := Host.Outcome.next.inj h ▸ fixed_tick s
    have hf : t.fuses = s.fuses := congrArg Fixed.fuses ht
    have hp : t.pending = s.pending := congrArg Fixed.queue ht
    exact ⟨hf ▸ hs, hf ▸ le_rfl, by rw [hf], by rw [hp, hq, List.tail_nil]⟩
  next c cs hq =>
    obtain ⟨hp, hf, hr⟩ := advances_exec h
    obtain ⟨hle, hmax⟩ := hr hs
    exact ⟨hmax, hle, hf, hp.trans (by rw [hq]; rfl)⟩

end Sys2Proof.Machine
end

section
/-!
PROOFS. Every command is carried out, and what a step takes; the state after reset.
-/

namespace Sys2Proof.Machine

open Sys2Proof

/-- A register write is carried out, or lies beyond BAR0. -/
theorem regWrite_next_or_fault (s : State) (path : Path) (off : Nat) (v : Word) :
    (∃ u, s.regWrite path off v = .next u) ∨ (s.regWrite path off v = .fault .outsideBar0 ∧ 0x2000000 ≤ off) := by
  unfold State.regWrite
  split
  next h => exact .inr ⟨rfl, h⟩
  · exact .inl ⟨_, rfl⟩

/-- A write of a page's word at an offset in the page, beyond BAR0, is one of that page. -/
theorem regWrite_page (s : State) (path : Path) (page o : Nat) (v : Word) (ho : o < 0x1000) :
    (∃ u, s.regWrite path (0x1000 * page + o) v = .next u) ∨
    (s.regWrite path (0x1000 * page + o) v = .fault .outsideBar0 ∧
      ∃ q, 0x2000000 ≤ q ∧ q / 0x1000 = page) := by
  refine (regWrite_next_or_fault s path (0x1000 * page + o) v).imp_right fun ⟨h, hq⟩ => ⟨h, _, hq, ?_⟩
  omega

/-- Settles O57: only the accesses of BAR0 and BAR2 have an answer that is not the next state. -/
theorem commandsComplete : Obligations.CommandsComplete := by
  unfold Obligations.CommandsComplete
  intro c s
  cases c with
  | nop | stend | jobend | commit | slotpat | loop | rdspec | add | sub | mul | and | or | xor | shl | shr | sra | min | max | minu | maxu
  | cmp | sel | li | lih | lds | sts | pand | por | pxor | pandn | pfirst | pcnt | scadd | scsub | wait | waitSatisfied | waitTimeout
  | signal | hint | mcopy | ondieTransferLanding | calarm | gather | scatter | nsend | nrecv | ncoll | mload | mstr | mstrt | mdrain | mew
  | vadd | vsub | vmul | vfma | vmin | vmax | vcmp | vsel | vand | vor | vxor | vshl | vshr | vsra | vsgn | vcvt | vrnd | vtr | vred | vcpr
  | vxpd | vcpst | vxpld | vld | vst | flags | vstat | fetchBeyondStore | interlockRelease | strokeEndReached | stretchMaxExpiry
  | strokeBoundary | jobStart | abort | setCap | setSetting | epoch | loadWeights | stage | retrain | burnishRun | standby
  | fwUpdate | svnAdvance | wallNote | commandFetchArrival | stageComplete | burnishTestComplete | burnishDue | deferMaxExpiry
  | pauseSliceEnd | rotationCopyComplete | packImageInstall | assayLimitReached | drainComplete | drainLimitExpiry | epochDrainComplete
  | epochDrainTimeout | twinRestoreComplete | igsumDataPacket | contribPacket | resultPacket | ack | nack | report | decision | vote
  | verdict | withdraw | reportAgain | hello | heartbeat | pace | blame | loadChunkPacket | loadComplete | loadStallTimeout
  | linkRetryRequest | linkReplayTimeout | resendTimeout | ackTimer | heartbeatTimer | peerSilentTimeout | collectiveDeadline
  | backupTakeover | resultSegmentTimeout | voteDeadline | verdictTakeover | verdictResend | blameTallyTimer | paceResend | paceHoldExpiry
  | arpRequest | pfcPauseFrame | laneFailure | laneFecCheck | laneRetrainDone | portLinkUp | calendarDataSlot | calendarReadDelivery
  | refreshReserveSlot | narrowSlot | migrationComplete | pseudoChannelLoss | bulkChannelFailure | hbmTemperatureRead | powerSample
  | pmbusPoll | avsbusTelemetryTimeout | droopDetect | vrAlertN | stretchRelease | slackCritical | annealWindow | annealHoldExpiry
  | junctionSensorRead | thermtripTimeout | pgWarnN | powerOnReset | resetAssert | perst | pcieHotReset | functionLevelReset | sensorTimeout
  | wakeComplete | mctpWakeCommand | mctpPacket | getVersion | getCapabilities | negotiateAlgorithms | getDigests | getCertificate
  | challenge | getMeasurements | pciWake | pciRecoveryGo | asyClr | hbmPcClr | mssWallHiWrite | pwrCapWrite | stkLedgerCiWrite
  | pciCplCiWrite | pciRingCfgWrite | logCfgWrite | logCiWrite | memoryTrainingComplete | firmwareWriteComplete | standbyEntryComplete
  | sendRateRise | nackBackoffExpiry | fillerResidueMismatch | jtagTck | replayRecordArrival | storedChunkRead =>
    exact .inl ⟨_, rfl⟩
  | registerWrite p off v en =>
    change (∃ u, execRegisterWrite p off v en s = _) ∨ (execRegisterWrite p off v en s = _ ∧ _) ∨ _
    unfold execRegisterWrite
    split
    · refine (regWrite_next_or_fault s p off v).imp_right fun ⟨h, ho⟩ => .inl ⟨h, p, off, ho, .inl ⟨v, en, rfl⟩⟩
    · split
      next ho => exact .inr (.inl ⟨rfl, p, off, ho, .inl ⟨v, en, rfl⟩⟩)
      · exact .inl ⟨_, rfl⟩
  | registerLoRead p off =>
    change (∃ u, execRegisterLoRead p off s = _) ∨ (execRegisterLoRead p off s = _ ∧ _) ∨ _
    unfold execRegisterLoRead
    split
    next ho => exact .inr (.inl ⟨rfl, p, off, ho, .inr (.inl rfl)⟩)
    · exact .inl ⟨_, rfl⟩
  | evtClear p page b =>
    exact (regWrite_page s p page oEvt b (by decide)).imp_right fun ⟨h, q, hq, hp⟩ =>
      .inl ⟨h, p, q, hq, .inr (.inr ⟨page, hp, .inl ⟨b, rfl⟩⟩)⟩
  | cntClr p page =>
    exact (regWrite_page s p page oCtl _ (by decide)).imp_right fun ⟨h, q, hq, hp⟩ =>
      .inl ⟨h, p, q, hq, .inr (.inr ⟨page, hp, .inr (.inl rfl)⟩)⟩
  | evtForce p page b =>
    exact (regWrite_page s p page oEvtForce b (by decide)).imp_right fun ⟨h, q, hq, hp⟩ =>
      .inl ⟨h, p, q, hq, .inr (.inr ⟨page, hp, .inr (.inr (.inl ⟨b, rfl⟩))⟩)⟩
  | lockSet p page =>
    exact (regWrite_page s p page oLock _ (by decide)).imp_right fun ⟨h, q, hq, hp⟩ =>
      .inl ⟨h, p, q, hq, .inr (.inr ⟨page, hp, .inr (.inr (.inr (.inl rfl)))⟩)⟩
  | lockClear p page =>
    exact (regWrite_page s p page oLock _ (by decide)).imp_right fun ⟨h, q, hq, hp⟩ =>
      .inl ⟨h, p, q, hq, .inr (.inr ⟨page, hp, .inr (.inr (.inr (.inr rfl)))⟩)⟩
  | bar2Write off data =>
    change (∃ u, execBar2Write off data s = _) ∨ _ ∨ (execBar2Write off data s = _ ∧ _)
    unfold execBar2Write
    split
    next ho => exact .inr (.inr ⟨rfl, .inl ⟨off, data, rfl, ho⟩⟩)
    · exact .inl ⟨_, rfl⟩
  | bar2Read off len =>
    change (∃ u, execBar2Read off len s = _) ∨ _ ∨ (execBar2Read off len s = _ ∧ _)
    unfold execBar2Read
    split
    next ho => exact .inr (.inr ⟨rfl, .inr ⟨off, len, rfl, ho⟩⟩)
    · exact .inl ⟨_, rfl⟩
  | _ => exact .inl ⟨_, rfl⟩ -- UNSEAL, whose name is a word of Lean's own

/-- Settles O55: by the queue's front, or, where it is empty, by what a tick does. -/
theorem stepTakesFront : Obligations.StepTakesFront := by
  unfold Obligations.StepTakesFront
  refine ⟨fun s c cs h => by unfold step; rw [h], fun s h => ⟨s.tick, by unfold step; rw [h], ?_⟩⟩
  unfold State.tick
  by_cases hg : s.mgmt.pwrgood = true ∧ s.mgmt.resetN = true
  · simp [hg]
  · simp [hg]

/-- Settles O58: each word is decoded. -/
theorem decodedWords : Obligations.DecodedWords := by
  unfold Obligations.DecodedWords
  decide

/-- Settles O56: every table is empty, so that every word reads its reset value. -/
theorem resetState : Obligations.ResetState := by
  unfold Obligations.ResetState
  refine ⟨rfl, fun _ => rfl, rfl, rfl, fun _ => rfl, rfl, rfl, ?_, ?_⟩
  · decide
  · decide

end Sys2Proof.Machine
end

section
/-!
PROOFS. Instructions that concern their core alone: the scalar, the predicate and the control instructions, and CALARM.
-/

namespace Sys2Proof.Machine

open Sys2Proof

/-- An operation of no engine, that reads no granules for the network and waits for no room outside its core. -/
def quietOp : IsaOp → Bool
  | .mcopy _ | .gather _ | .scatter _ | .nsend _ | .nrecv _ | .ncoll _ | .mload _ | .mstr _ | .mstrt _ | .mdrain _ | .mew _ => false
  | _ => true

theorem engineOf_of_quiet {op : IsaOp} (h : quietOp op = true) : engineOf op = none := by
  cases op with
  | mload | mstr | mstrt | mdrain | mew => cases h
  | _ => rfl

theorem portGranules_of_quiet {i : Issue} (h : quietOp i.op = true) (rows : Nat → Nat) : portGranules rows i = 0 := by
  obtain ⟨_, op, _⟩ := i
  cases op with
  | mcopy | gather | scatter | nsend | nrecv | ncoll => cases h
  | _ => rfl

theorem devHold_of_quiet {i : Issue} (h : quietOp i.op = true) (s : State) (v p : Nat) : s.devHold v p i = false := by
  obtain ⟨_, op, _⟩ := i
  cases op with
  | mcopy | gather | scatter | nsend | nrecv | ncoll => cases h
  | _ => rfl

/-- The issue of an operation whose whole work is on its core. -/
theorem issue_quiet {s : State} {i : Iss} {op : IsaOp} {p : Nat} (c : Core) (h : s.canIssue i op p = true) (hq : quietOp op = true)
    (hp : ∀ lim fin, ∃ r, perform (s.ctxOf i.v p) (s.rowBytes i.v) (s.streamOf i p).pc.toNat (s.issueOf p i.st op)
      (.again (s.core p).took prog0 lim fin) = .ok r ∧ r.c = c.took ∧ r.fx = []) :
    ∃ t, exec (cmdOf i op) s = .next t ∧ t.core p = c.goOn i.st ∧ OnlyCore s t p := by
  obtain ⟨hc, ho⟩ := issue_alone c h (engineOf_of_quiet hq) (portGranules_of_quiet hq)
    (fun _ _ => by rw [devHold_of_quiet hq, devHold_of_quiet hq]) hp
  exact ⟨_, exec_cmd i op s, hc, ho⟩

/-! ### Writes of one register of the stream -/

/-- The issue of an operation that writes one scalar. -/
theorem issue_scalar {s : State} {i : Iss} {op : IsaOp} {p n : Nat} {v : DWord} (h : s.canIssue i op p = true) (hq : quietOp op = true)
    (hp : ∀ r, perform (s.ctxOf i.v p) (s.rowBytes i.v) (s.streamOf i p).pc.toNat (s.issueOf p i.st op) r = .ok (r.setS i.st n v)) :
    ∃ t, exec (cmdOf i op) s = .next t ∧ t.core p = ((s.core p).setStream i.st ((s.streamOf i p).setS n v)).goOn i.st ∧
      OnlyCore s t p :=
  issue_quiet _ h hq fun _ _ => ⟨_, hp _, by simp [State.streamOf, Run.again, Run.setS], rfl⟩

/-- The issue of an operation that writes one predicate. -/
theorem issue_predicate {s : State} {i : Iss} {op : IsaOp} {p n : Nat} {v : BitVec 1024} (h : s.canIssue i op p = true)
    (hq : quietOp op = true)
    (hp : ∀ r, perform (s.ctxOf i.v p) (s.rowBytes i.v) (s.streamOf i p).pc.toNat (s.issueOf p i.st op) r = .ok (r.setP i.st n v)) :
    ∃ t, exec (cmdOf i op) s = .next t ∧ t.core p = ((s.core p).setStream i.st ((s.streamOf i p).setP n v)).goOn i.st ∧
      OnlyCore s t p :=
  issue_quiet _ h hq fun _ _ => ⟨_, hp _, by simp [State.streamOf, Run.again, Run.setP], rfl⟩

/-! ### The operations of the tables, on the numbers that the words stand for (R192, R193) -/

theorem opShr_eq (a b : DWord) : opShr a b = BitVec.ofNat 64 (a.toNat / 2 ^ (b.toNat % 64)) := by
  apply BitVec.eq_of_toNat_eq
  rw [opShr, BitVec.toNat_ushiftRight, Nat.shiftRight_eq_div_pow, BitVec.toNat_ofNat,
    Nat.mod_eq_of_lt ((Nat.div_le_self _ _).trans_lt a.isLt)]

theorem opSra_eq (a b : DWord) : opSra a b = BitVec.ofInt 64 (a.toInt / 2 ^ (b.toNat % 64)) := by
  rw [opSra, BitVec.sshiftRight, Int.shiftRight_eq_div_pow]
  norm_cast

theorem opMin_eq (a b : DWord) : opMin a b = if b.toInt < a.toInt then b else a := by
  simp [opMin, BitVec.slt_iff_toInt_lt]

theorem opMax_eq (a b : DWord) : opMax a b = if a.toInt < b.toInt then b else a := by
  simp [opMax, BitVec.slt_iff_toInt_lt]

theorem opMinu_eq (a b : DWord) : opMinu a b = if b.toNat < a.toNat then b else a := by
  simp [opMinu, BitVec.ult_iff_lt, BitVec.lt_def]

theorem opMaxu_eq (a b : DWord) : opMaxu a b = if a.toNat < b.toNat then b else a := by
  simp [opMaxu, BitVec.ult_iff_lt, BitVec.lt_def]

theorem cmpHolds_eq (sc : Nat) (a b : DWord) : cmpHolds sc a b = condHolds sc a b := by
  unfold cmpHolds condHolds
  split
  · rw [Bool.eq_iff_iff]; simp
  · rw [Bool.eq_iff_iff]; simp
  · rfl
  · rw [Bool.eq_iff_iff]; simp [BitVec.slt]
  · rfl
  · rw [Bool.eq_iff_iff]; simp [BitVec.ult]

theorem lihVal_eq (x : FmtI) (a : DWord) :
    lihVal x a = BitVec.ofNat 64 (x.imm.toNat % 2 ^ 20 * 2 ^ 44 + a.toNat % 2 ^ 44) := by
  apply BitVec.eq_of_toNat_eq
  have h : a.toNat % 2 ^ 44 < 2 ^ 44 := Nat.mod_lt _ (by decide)
  simp only [lihVal, BitVec.toNat_append, BitVec.extractLsb'_toNat, Nat.shiftRight_zero, BitVec.toNat_ofNat]
  rw [← Nat.shiftLeft_add_eq_or_of_lt h, Nat.shiftLeft_eq, Nat.mod_eq_of_lt (a := x.imm.toNat % 2 ^ 20 * 2 ^ 44 + a.toNat % 2 ^ 44)]
  omega

theorem pfirst_eq (a : DWord) (imm : Word) :
    firstBits (pfirstCount a imm) = BitVec.ofNat 1024 (2 ^ (max 0 (min 1024 (a + imm.signExtend 64).toInt)).toNat - 1) := by
  have h : pfirstCount a imm = (max 0 (min 1024 (a + imm.signExtend 64).toInt)).toNat := by
    unfold pfirstCount
    dsimp only
    split <;> omega
  rw [firstBits, h]

/-- Settles O1: each operation writes one register of its stream, with the value of its table. -/
theorem scalarResults : Obligations.ScalarResults := by
  unfold Obligations.ScalarResults
  constructor
  · intro s i op p y h hy
    cases op with
    | add f | sub f | mul f | and f | or f | xor f | shl f | sel f | li f =>
      cases hy
      exact issue_scalar h rfl fun _ => rfl
    | shr f => cases hy; exact issue_scalar h rfl fun _ => by rw [← opShr_eq]; rfl
    | sra f => cases hy; exact issue_scalar h rfl fun _ => by rw [← opSra_eq]; rfl
    | min f => cases hy; exact issue_scalar h rfl fun _ => by rw [← opMin_eq]; rfl
    | max f => cases hy; exact issue_scalar h rfl fun _ => by rw [← opMax_eq]; rfl
    | minu f => cases hy; exact issue_scalar h rfl fun _ => by rw [← opMinu_eq]; rfl
    | maxu f => cases hy; exact issue_scalar h rfl fun _ => by rw [← opMaxu_eq]; rfl
    | cmp f => cases hy; exact issue_scalar h rfl fun _ => by rw [← cmpHolds_eq]; rfl
    | lih f => cases hy; exact issue_scalar h rfl fun _ => by rw [← lihVal_eq]; rfl
    | _ => cases hy
  · intro s i op p y h hy
    cases op with
    | pand f | por f | pxor f | pandn f => cases hy; exact issue_predicate h rfl fun _ => rfl
    | pfirst f => cases hy; exact issue_predicate h rfl fun _ => by rw [← pfirst_eq]; rfl
    | pcnt f => cases hy; exact issue_scalar h rfl fun _ => rfl
    | _ => cases hy

/-! ### RDSPEC (R191) -/

/-- The value of RDSPEC, from what an instruction sees of the device. -/
theorem rdspecVal_ctxOf (s : State) (v p : Nat) (x : FmtI) :
    rdspecVal (s.ctxOf v p) x = specValue s p v (x.imm.toNat % 2 ^ 8) (x.imm.toNat / 2 ^ 8 % 2 ^ 4) := by
  have hk : x.imm.toNat / 256 % 16 < 16 := Nat.mod_lt _ (by decide)
  have hs : (s.ctxOf v p).shards.getD (x.imm.toNat / 256 % 16) (BitVec.allOnes 64) =
      BitVec.ofNat 64 (s.rpair (Reg.coreShardLo p (x.imm.toNat / 256 % 16))) := by
    simp [State.ctxOf, List.getD_eq_getElem?_getD, hk]
  unfold rdspecVal specValue
  rw [hs]
  rfl

/-- Settles O3: RDSPEC writes one scalar. -/
theorem specValues : Obligations.SpecValues := by
  unfold Obligations.SpecValues
  intro s i x p h
  obtain ⟨t, ht, hc, ho⟩ := issue_scalar (v := specValue s p i.v (x.imm.toNat % 2 ^ 8) (x.imm.toNat / 2 ^ 8 % 2 ^ 4)) (n := x.sd.toNat)
    h rfl fun r => by rw [← rdspecVal_ctxOf]; rfl
  exact ⟨t, ht, ho, hc⟩

/-! ### CALARM (R202) -/

/-- A bulk ticket of two granules, which are one unit of the tier, when that unit has been moved. -/
def bulkMoved : State := { Tests.live with
  mem := { MemSt.reset with ticketDefs := [(3, some ⟨true, false, 0, 2⟩)], moved := [(512 * 3, 1)] } }

/-- Refutes O12: the two granules of a bulk ticket are one unit of 256 bytes. Where that unit has been moved, fewer units have been moved
than the ticket has granules, and yet the run ends as soon as the ticket is armed, so that the ticket is free behind CALARM. -/
theorem not_ticketArmed : ¬ Obligations.TicketArmed := by
  unfold Obligations.TicketArmed
  intro h
  have hi : bulkMoved.canIssue Tests.iss (.calarm ⟨0, 0, 0, 2, false, true, 3⟩) 0 = true := by decide +kernel
  have hok : cmOk (bulkMoved.ctxOf 0 0) (bulkMoved.scalarOf Tests.iss 0 0) (64 * 2) true 64 = true := by decide +kernel
  obtain ⟨t, ht, -, hc⟩ := h bulkMoved Tests.iss ⟨0, 0, 0, 2, false, true, 3⟩ 0 ⟨true, false, 0, 2⟩ hi rfl rfl (by decide +kernel)
    (fun e he => by cases he) hok
  have ht : t = bulkMoved.issueOp Tests.iss (.calarm ⟨0, 0, 0, 2, false, true, 3⟩) := (Host.Outcome.next.inj ht).symm
  have hfree : ((bulkMoved.issueOp Tests.iss (.calarm ⟨0, 0, 0, 2, false, true, 3⟩)).core 0).tickets = [] := by decide +kernel
  rw [← ht, hc] at hfree
  cases hfree

end Sys2Proof.Machine
end

section
/-!
PROOFS. Issues with effects outside their core: the core's part and the frame of the rest.
-/

namespace Sys2Proof.Machine

open Sys2Proof

/-! ### What the end of an issue does -/

/-- The state behind the work of an instruction of no engine: its core and its effects, the cycles of the read port, the stream's next
word, the ordinal. -/
def State.behind (s : State) (i : Iss) (q : Issue) (p : Nat) (r : Run) : State :=
  ((((s.setCore p r.c).applyAll p i.v r.fx).bumpPair (Reg.muBusyCycLo p)
    (portGranules (((s.setCore p r.c).applyAll p i.v r.fx).rowBytes i.v) q)).stepPc p i.st).bumpOrdinal p
      (4 + i.st.codeNat)

/-- What an instruction of no engine answers when nothing holds it. -/
theorem exec_behind {s : State} {i : Iss} {op : IsaOp} {p : Nat} (h : s.canIssue i op p = true) (he : engineOf op = none)
    (hn : ∀ a f, (s.atIssue p a f).devHold i.v p (s.issueOf p i.st op) = s.devHold i.v p (s.issueOf p i.st op)) :
    ∃ a f lim fin, (s.assaying = false → a = s.asy ∧ f = s.free) ∧
      ∀ r, perform (s.ctxOf i.v p) (s.rowBytes i.v) (s.streamOf i p).pc.toNat (s.issueOf p i.st op)
        (.again (s.core p).took prog0 lim fin) = .ok r → exec (cmdOf i op) s = .next ((s.atIssue p a f).behind i (s.issueOf p i.st op) p r) := by
  obtain ⟨-, -, -, -, -, -, -, -, -, hb, -, -, hd⟩ := (canIssue_iff s i op p).mp h
  obtain ⟨a, f, haf, e⟩ := issueOp_eq h
  refine ⟨a, f, rowLimit ((s.atIssue p a f).core p) (s.issueOf p i.st op), mayFinish ((s.atIssue p a f).core p) (s.issueOf p i.st op),
    haf, fun r hr => ?_⟩
  have ht := tryPerform_ok (s := s.atIssue p a f) (v := i.v) (p := p) (pc := (s.streamOf i p).pc.toNat)
    (i := s.issueOf p i.st op) (r := r) (by rw [core_atIssue]; exact hb) ((hn a f).trans hd) he
    (by rw [← hr, core_atIssue]; rfl)
  rw [exec_cmd, e, ht, State.behind]

/-- What an instruction answers that is of no engine, reads no granules for the network and waits for no room outside its core. -/
theorem exec_quiet {s : State} {i : Iss} {op : IsaOp} {p : Nat} (h : s.canIssue i op p = true) (hq : quietOp op = true) :
    ∃ a f lim fin, (s.assaying = false → a = s.asy ∧ f = s.free) ∧
      ∀ r, perform (s.ctxOf i.v p) (s.rowBytes i.v) (s.streamOf i p).pc.toNat (s.issueOf p i.st op)
        (.again (s.core p).took prog0 lim fin) = .ok r →
        exec (cmdOf i op) s = .next (((((s.atIssue p a f).setCore p r.c).applyAll p i.v r.fx).stepPc p i.st).bumpOrdinal p
          (4 + i.st.codeNat)) := by
  obtain ⟨a, f, lim, fin, haf, e⟩ := exec_behind h (engineOf_of_quiet hq)
    (fun _ _ => by rw [devHold_of_quiet hq, devHold_of_quiet hq])
  refine ⟨a, f, lim, fin, haf, fun r hr => (e r hr).trans ?_⟩
  rw [State.behind, portGranules_of_quiet hq]
  rfl

@[simp] theorem st_issueOf (s : State) (p : Nat) (st : Stream) (op : IsaOp) : (s.issueOf p st op).st = st := rfl
@[simp] theorem c_again (c : Core) (g : Progress) (lim : Option Nat) (fin : Bool) : (Run.again c g lim fin).c = c := rfl
theorem stream_eq_streamOf (s : State) (i : Iss) (p : Nat) : (s.core p).stream i.st = s.streamOf i p := rfl

/-! ### The issuing core and the frame -/

theorem stepPc_eq (s : State) (p : Nat) (st : Stream) :
    s.stepPc p st = s.setCore p ((s.core p).setStream st ((s.core p).stream st).advance) := rfl

/-- The issuing core, where the work has left it as `c`. -/
theorem core_next {u : State} {p k : Nat} {c : Core} {st : Stream} (h : u.core p = c.took) :
    ((u.stepPc p st).bumpOrdinal p k).core p = c.goOn st := by
  rw [core_bumpOrdinal, stepPc_eq, core_setCore_self, h, stream_took, Core.goOn]

theorem onlyCore_atIssue {s : State} {p : Nat} {a : AsySt} {f : Nat} (haf : s.assaying = false → a = s.asy ∧ f = s.free) (c : Core) :
    OnlyCore s ((s.atIssue p a f).setCore p c) p := by
  refine ⟨fun q hq => ?_, rfl, haf⟩
  rw [core_setCore_ne _ _ hq, core_atIssue_ne _ _ _ hq]

theorem OnlyCore.setCore {s t : State} {p : Nat} (h : OnlyCore s t p) (c : Core) : OnlyCore s (t.setCore p c) p := by
  obtain ⟨hc, ht, hf⟩ := h
  refine ⟨fun q hq => (core_setCore_ne _ _ hq).trans (hc q hq), ?_, hf⟩
  unfold State.setCore
  rw [ht]

/-- The next word and the ordinal concern the issuing core alone. -/
theorem OnlyCore.next {s t : State} {p k : Nat} {st : Stream} (h : OnlyCore s t p) :
    OnlyCore s ((t.stepPc p st).bumpOrdinal p k) p := by
  obtain ⟨hc, ht, hf⟩ := h.setCore ((t.core p).setStream st ((t.core p).stream st).advance)
  refine ⟨hc, ?_, hf⟩
  unfold State.bumpOrdinal
  rw [stepPc_eq, ht]

/-! ### Control instructions (R180, R186 to R190) -/

/-- A stroke-end. -/
theorem issue_stend {s : State} {i : Iss} {p : Nat} (h : s.canIssue i .stend p = true) :
    ∃ t, exec (.stend i) s = .next t ∧ t.core p = ((s.core p).setStream i.st { s.streamOf i p with phase := .ended }).goOn i.st ∧
      OnlyCore (s.endSeen i .stend) t p := by
  obtain ⟨a, f, lim, fin, haf, e⟩ := exec_quiet h rfl
  refine ⟨_, e _ rfl, core_next ?_, OnlyCore.next ?_⟩
  · change (((s.atIssue p a f).setCore p _).core p) = _
    rw [core_setCore_self]
    simp [doStend, Run.emit, Run.setPhase, State.streamOf]
  · obtain ⟨hc, ht, hf⟩ := onlyCore_atIssue haf (doStend (s.issueOf p i.st .stend) (.again (s.core p).took prog0 lim fin)).c
    exact ⟨hc, rfl, hf⟩

/-- LOOP, below four nested loops. -/
theorem issue_loop {s : State} {i : Iss} {p : Nat} {f : FmtL} (h : s.canIssue i (.loop f) p = true)
    (hl : (s.streamOf i p).loops.length < 4) :
    ∃ t, exec (.loop i f) s = .next t ∧ t.core p = ((s.core p).setStream i.st ({ s.streamOf i p with
        loops := ⟨(s.streamOf i p).pc.toNat + 1, (s.streamOf i p).pc.toNat + f.body.toNat, f.count.toNat, 0, f.sd.toNat⟩ ::
          (s.streamOf i p).loops }.setS f.sd.toNat 0)).goOn i.st ∧ OnlyCore s t p := by
  have hroom : ∀ c q, loopRoom c q (s.streamOf i p) = true := fun _ _ => by simp [loopRoom, hl]
  refine issue_quiet (op := .loop f) _ h rfl fun lim fin => ⟨_, rfl, ?_, ?_⟩
  · simp [doLoop, stream_eq_streamOf, hroom]
  · simp [doLoop, stream_eq_streamOf, hroom, Run.again]

/-- The next word of a stream that stands on no loop's last word, or goes round, or leaves one loop. -/
theorem advance_round {x : StreamSt} {fr : LoopFrame} {frs : List LoopFrame} (hl : x.loops = fr :: frs) (hp : x.pc.toNat = fr.last)
    (h : fr.iter + 1 < fr.count) :
    x.advance = { x with pc := BitVec.ofNat 32 fr.first, loops := { fr with iter := fr.iter + 1 } :: frs }.setS fr.sd
      (BitVec.ofNat 64 (fr.iter + 1)) := by
  simp [StreamSt.advance, hl, hp, advanceLoops, h]

theorem advance_leave {x : StreamSt} {fr : LoopFrame} {frs : List LoopFrame} (hl : x.loops = fr :: frs) (hp : x.pc.toNat = fr.last)
    (h : fr.count ≤ fr.iter + 1) (hne : ∀ f ∈ frs, f.last ≠ fr.last) :
    x.advance = { x with pc := BitVec.ofNat 32 (fr.last + 1), loops := frs } := by
  have ha : advanceLoops frs fr.last = (fr.last + 1, frs, none) := by
    cases frs with
    | nil => rfl
    | cons g gs => simp [advanceLoops, (hne g (List.mem_cons_self ..)).symm]
  simp [StreamSt.advance, hl, hp, advanceLoops, Nat.not_lt.2 h, ha]

/-- Settles O2: a control instruction changes its stream or its core, and behind it the loops of the stream go on. -/
theorem controlResults : Obligations.ControlResults := by
  unfold Obligations.ControlResults
  constructor
  · intro s i op p c h hc
    cases op with
    | nop => cases hc; exact issue_quiet (op := .nop) _ h rfl fun _ _ => ⟨_, rfl, rfl, rfl⟩
    | stend => cases hc; exact issue_stend h
    | jobend =>
      cases hc
      refine issue_quiet (op := .jobend) _ h rfl fun _ _ => ⟨_, rfl, ?_, rfl⟩
      simp [doJobend, Run.setPhase, Run.again]
    | commit => cases hc; exact issue_quiet (op := .commit) _ h rfl fun _ _ => ⟨_, rfl, rfl, rfl⟩
    | slotpat f => cases hc; exact issue_quiet (op := .slotpat f) _ h rfl fun _ _ => ⟨_, rfl, rfl, rfl⟩
    | loop f =>
      obtain ⟨hl, hc⟩ := Option.ite_none_right_eq_some.1 hc
      cases hc
      exact issue_loop h hl
    | _ => cases hc
  · intro s i p fr frs h hl hp
    obtain ⟨t, ht, hc, ho⟩ := issue_quiet (op := .nop) (s.core p) h rfl fun _ _ => ⟨_, rfl, rfl, rfl⟩
    have hx : t.streamOf i p = (s.streamOf i p).advance := by
      rw [State.streamOf, hc, Core.goOn]
      simp [State.streamOf]
    exact ⟨t, ht, ho, fun hr => hx.trans (advance_round hl hp hr), fun hr hne => hx.trans (advance_leave hl hp hr hne)⟩

end Sys2Proof.Machine
end

section
/-!
PROOFS. Events of a core: what raising one leaves, and the issues that raise one.
-/

namespace Sys2Proof.Machine

open Sys2Proof

/-! ### Frames -/

theorem OnlyCore.rget {s t : State} {p : Nat} (h : OnlyCore s t p) (o : Nat) : t.rget o = s.rget o := by
  rw [h.2.1]; rfl

theorem OnlyCore.regsKept {s t : State} {p : Nat} (h : OnlyCore s t p) {b : Nat → Prop} : RegsKept s t b := fun o _ => h.rget o

theorem RegsKept.mono {s t : State} {b d : Nat → Prop} (h : RegsKept s t b) (hb : ∀ o, b o → d o) : RegsKept s t d :=
  fun o ho => h o (mt (hb o) ho)

/-- What events write behind a core's work can as well stand before it. -/
theorem OnlyCore.logged {s w t : State} {p : Nat} (h : OnlyCore s w p) (hl : Logged w t) : ∃ u, Logged s u ∧ OnlyCore u t p := by
  obtain ⟨hc, hw, hf⟩ := h
  obtain ⟨regs, ring, host, dropped, log, out, hm, se, told, rfl⟩ := hl
  refine ⟨_, ⟨regs, ring, host, dropped, log, out, hm, se, told, rfl⟩, hc, ?_, hf⟩
  rw [hw]

theorem CoreAndLog.of_logged {s w t : State} {p : Nat} {b : Nat → Prop} (h : OnlyCore s w p) (hl : Logged w t) (hk : RegsKept w t b) :
    CoreAndLog s t p b := ⟨h.regsKept.trans hk, h.logged hl⟩

theorem CoreAndLog.next {s t : State} {p k : Nat} {st : Stream} {b : Nat → Prop} (h : CoreAndLog s t p b) :
    CoreAndLog s ((t.stepPc p st).bumpOrdinal p k) p b := by
  obtain ⟨hk, u, hl, ho⟩ := h
  exact ⟨hk, u, hl, ho.next⟩

/-! ### Events that a core raises -/

/-- The events of a core that an EVT bit of one of its pages stands for, with capture words within the page. -/
structure CoreEvent (s : State) (p code id waiter detail : Nat) (caps : List Nat) (page k : Nat) : Prop where
  counted : code ≠ 0x0901
  onPage : (s.corePage p code id waiter detail caps).1 = page
  words : ∀ c ∈ (s.corePage p code id waiter detail caps).2, c.1 < 0x1000 ∧ c.1 ≠ oEvt
  bit : ∃ pg, pageAt page = some pg ∧ pg.base = page ∧ page % 0x1000 = 0 ∧ evtBit pg code (sevOf code) = some k

/-- What such an event leaves: its bit, and registers written only on its page, in the host log's words and in the misuse count. -/
theorem CoreEvent.raised {s : State} {p v code id waiter detail : Nat} {caps : List Nat} {page k : Nat}
    (h : CoreEvent s p code id waiter detail caps page k) :
    Logged s (s.coreRaise p v code id waiter detail caps) ∧
    RegsKept s (s.coreRaise p v code id waiter detail caps) (fun o => eventRegs page o ∨ misuseReg p code = some o) ∧
    (s.coreRaise p v code id waiter detail caps).evtSet page k = true := by
  obtain ⟨hc, hpage, hw, pg, hp, hb, h0, hk⟩ := h
  refine ⟨logged_coreRaise .., ?_⟩
  unfold State.coreRaise
  generalize s.corePage p code id waiter detail caps = cp at hpage hw
  obtain ⟨page', words⟩ := cp
  obtain rfl : page' = page := hpage
  dsimp -zeta only
  extract_lets u base e
  have hu : RegsKept s u (fun o => eventRegs page' o ∨ misuseReg p code = some o) := by
    simp only [u]
    split
    · exact fun _ _ => rfl
    next r hr => exact kept_bump _ _ _ (.inr hr)
  obtain ⟨-, hkept, hset⟩ : Raised (u.once (e.code, p)).2 (u.raiseOnce e p) page' k :=
    raised_raise (e := { e with quiet := (u.once (e.code, p)).1 }) rfl hp hk hb h0 hw
  have ho : RegsKept u (u.once (e.code, p)).2 (eventRegs page') := fun o _ => by unfold State.once; split <;> rfl
  rw [if_neg hc]
  exact ⟨hu.trans ((ho.trans hkept).mono fun o => .inl), hset⟩

section
variable (s : State) {p : Nat} (hp : p < 144) (id waiter detail : Nat)
include hp

/-- A reference out of range (R207). -/
theorem coreEvent_addr : CoreEvent s p 0x0910 id waiter detail [] (pgMu p) 0 := by
  refine ⟨by decide, rfl, ?_, _, pageAt_core (b := 3) hp (by decide), rfl, ?_, rfl⟩
  · simp [State.corePage, oEvt]
  · unfold pgMu coreWin; omega

/-- A counter above or below its range, and a wait that times out (R76, R78). -/
theorem coreEvent_sync {code : Nat} (k : Nat) (hk : k < 3) (hc : code = 0x0201 + k) :
    CoreEvent s p code id waiter detail [] (pgSyn p) k := by
  have hb : evtBit ⟨.syn, p, 0, pgSyn p⟩ code (sevOf code) = some k := by
    subst hc
    match k, hk with
    | 0, _ => rfl
    | 1, _ => rfl
    | 2, _ => rfl
  have hs : s.corePage p code id waiter detail [] = (pgSyn p, [(0x28, id % 4096 + 4096 * synSource code waiter + 32768 * synKind code +
      2 ^ 31), (0x2C, detail), (0x30, jobLo s)]) := by
    unfold State.corePage
    rw [if_pos (by omega)]
  refine ⟨by omega, by rw [hs], ?_, _, pageAt_core (b := 5) hp (by decide), rfl, ?_, hb⟩
  · simp [hs, oEvt]
  · unfold pgSyn coreWin; omega

/-- An illegal operation (R207). -/
theorem coreEvent_illegal : CoreEvent s p 0x0911 id waiter detail [] (pgCc p) 2 := by
  refine ⟨by decide, rfl, ?_, _, pageAt_core (b := 1) hp (by decide), rfl, ?_, rfl⟩
  · simp [State.corePage]
  · unfold pgCc coreWin; omega

end

/-- An issue whose work raises one event of its core. -/
theorem issue_event {s : State} {i : Iss} {op : IsaOp} {p page k code id waiter detail : Nat} (c : Core) (h : s.canIssue i op p = true)
    (hq : quietOp op = true) (he : ∀ u, CoreEvent u p code id waiter detail [] page k)
    (hp : ∀ lim fin, ∃ r, perform (s.ctxOf i.v p) (s.rowBytes i.v) (s.streamOf i p).pc.toNat (s.issueOf p i.st op)
      (.again (s.core p).took prog0 lim fin) = .ok r ∧ r.c = c.took ∧ r.fx = [.ev code id waiter detail []]) :
    ∃ t, exec (cmdOf i op) s = .next t ∧ t.core p = c.goOn i.st ∧ t.evtSet page k = true ∧
      CoreAndLog s t p (fun o => eventRegs page o ∨ misuseReg p code = some o) := by
  obtain ⟨a, f, lim, fin, haf, e⟩ := exec_quiet h hq
  obtain ⟨r, hr, hc, hf⟩ := hp lim fin
  obtain ⟨hl, hk, hs⟩ := (he ((s.atIssue p a f).setCore p r.c)).raised (v := i.v)
  rw [e r hr, hf]
  refine ⟨_, rfl, core_next ?_, hs, (CoreAndLog.of_logged (onlyCore_atIssue haf r.c) hl hk).next⟩
  exact (hl.core p).trans ((core_setCore_self _ _ _).trans hc)

/-! ### SCADD and SCSUB (R76, R194) -/

/-- The operand that an instruction takes is that of the field map (R182). -/
theorem ctrOperand_issueOf (s : State) (i : Iss) (p : Nat) (op : IsaOp) (immf : Bool) (val : BitVec 24) :
    ctrOperand (s.issueOf p i.st op) immf val = syncOperand (s.streamOf i p) immf val := by
  cases immf <;> exact BitVec.eq_of_toNat_eq (by simp [ctrOperand, syncOperand, State.issueOf, State.streamOf])

section
variable {r : Run} {k : Nat} {d : Word}

/-- A core whose counter `k` is `v`, `n` having been added to it. -/
def Core.counted (c : Core) (k : Nat) (v : Word) (n : Nat) : Core :=
  { c with ctr := tset 0 c.ctr k v, added := tset 0 c.added k (tget 0 c.added k + n) }

theorem ctrAdd_within (h : (tget 0 r.c.ctr k).toNat + d.toNat ≤ 0xFFFFFFFF) (w : Nat) :
    r.ctrAdd k d w = { r with c := r.c.counted k (addSat (tget 0 r.c.ctr k) d) d.toNat } := by
  unfold Run.ctrAdd
  rw [addSat, Nat.min_eq_right h]
  exact if_neg (Nat.not_lt.2 h)

theorem ctrAdd_above (h : 0xFFFFFFFF < (tget 0 r.c.ctr k).toNat + d.toNat) (w : Nat) :
    r.ctrAdd k d w = Run.emit { r with c := r.c.counted k 0xFFFFFFFF d.toNat } (.ev 0x0201 k w (tget 0 r.c.ctr k).toNat []) :=
  if_pos h

theorem ctrSub_within (h : d.toNat ≤ (tget 0 r.c.ctr k).toNat) (w : Nat) :
    r.ctrSub k d w = { r with c := { r.c with ctr := tset 0 r.c.ctr k (subSat (tget 0 r.c.ctr k) d) } } := by
  have hv : subSat (tget 0 r.c.ctr k) d = tget 0 r.c.ctr k - d := by
    refine BitVec.eq_of_toNat_eq ?_
    rw [BitVec.toNat_sub_of_le h, subSat, BitVec.toNat_ofNat, Nat.mod_eq_of_lt (by omega)]
  rw [hv]
  exact if_neg (Nat.not_lt.2 h)

theorem ctrSub_below (h : (tget 0 r.c.ctr k).toNat < d.toNat) (w : Nat) :
    r.ctrSub k d w = Run.emit { r with c := { r.c with ctr := tset 0 r.c.ctr k 0 } } (.ev 0x0202 k w (tget 0 r.c.ctr k).toNat []) :=
  if_pos h

end

/-- Settles O5: the four cases of the two saturating operations, the first two with no effect outside the core, the last two with one
event. -/
theorem counterUpdates : Obligations.CounterUpdates := by
  unfold Obligations.CounterUpdates
  constructor
  · intro s i x p k v d
    have hd : ctrOperand (s.issueOf p i.st (.scadd x)) x.immf x.val = d := ctrOperand_issueOf ..
    have hd' : ctrOperand (s.issueOf p i.st (.scsub x)) x.immf x.val = d := ctrOperand_issueOf ..
    refine ⟨fun h hle => ?_, fun h hle => ?_⟩
    · obtain ⟨t, ht, hc, ho⟩ := issue_quiet (op := .scadd x) ((s.core p).counted k (addSat v d) d.toNat) h rfl fun lim fin =>
        ⟨_, rfl, by rw [doScadd, hd, ctrAdd_within hle]; rfl, by rw [doScadd, hd, ctrAdd_within hle]; rfl⟩
      exact ⟨t, ht, ho, hc⟩
    · obtain ⟨t, ht, hc, ho⟩ := issue_quiet (op := .scsub x) { s.core p with ctr := tset 0 (s.core p).ctr k (subSat v d) } h rfl
        fun lim fin => ⟨_, rfl, by rw [doScsub, hd', ctrSub_within hle]; rfl, by rw [doScsub, hd', ctrSub_within hle]; rfl⟩
      exact ⟨t, ht, ho, hc⟩
  · intro s i x p hp k v d
    have hd : ctrOperand (s.issueOf p i.st (.scadd x)) x.immf x.val = d := ctrOperand_issueOf ..
    have hd' : ctrOperand (s.issueOf p i.st (.scsub x)) x.immf x.val = d := ctrOperand_issueOf ..
    have hctr : ∀ c : Core, (c.goOn i.st).ctr = c.ctr := fun c => by rw [Core.goOn, setStream_ctr]; rfl
    refine ⟨fun h hlt => ?_, fun h hlt => ?_⟩
    · obtain ⟨t, ht, hc, he, hl⟩ := issue_event (op := .scadd x) ((s.core p).counted k 0xFFFFFFFF d.toNat) h rfl
        (fun u => coreEvent_sync u hp k i.st.codeNat v.toNat 0 (by decide) rfl) fun lim fin =>
        ⟨_, rfl, by rw [doScadd, hd, ctrAdd_above hlt]; rfl, by rw [doScadd, hd, ctrAdd_above hlt]; rfl⟩
      refine ⟨t, ht, ?_, fun j hj => ?_, he, ?_⟩
      · simp only [hc, hctr, Core.counted, tget_tset_self]
      · simp only [hc, hctr, Core.counted, tget_tset_ne _ _ _ hj]
      · simpa [misuseReg, eq_comm] using hl
    · obtain ⟨t, ht, hc, he, hl⟩ := issue_event (op := .scsub x) { s.core p with ctr := tset 0 (s.core p).ctr k 0 } h rfl
        (fun u => coreEvent_sync u hp k i.st.codeNat v.toNat 1 (by decide) rfl) fun lim fin =>
        ⟨_, rfl, by rw [doScsub, hd', ctrSub_below hlt]; rfl, by rw [doScsub, hd', ctrSub_below hlt]; rfl⟩
      refine ⟨t, ht, ?_, fun j hj => ?_, he, ?_⟩
      · simp only [hc, hctr, tget_tset_self]
      · simp only [hc, hctr, tget_tset_ne _ _ _ hj]
      · simpa [misuseReg, eq_comm] using hl

end Sys2Proof.Machine
end

section
/-!
PROOFS. LDS and STS: own memory, eight bytes at a time.
-/

namespace Sys2Proof.Machine

open Sys2Proof

/-! ### Bytes in a row -/

theorem bytesAt_eq_map (m : List Host.Cell) : ∀ (n a : Nat), bytesAt m a n = (List.range n).map (fun k => byteAt m (a + k))
  | 0, _ => rfl
  | n + 1, a => by
    rw [bytesAt, bytesAt_eq_map m n (a + 1), List.range_succ_eq_map, List.map_cons, List.map_map]
    exact congrArg _ (List.map_congr_left fun k _ => congrArg _ (by simp only [Nat.succ_eq_add_one]; omega))

/-- Written bytes are read back. -/
theorem bytesAt_setBytes_self (m : List Host.Cell) (a : Nat) (bs : List Byte) : bytesAt (setBytes m a bs) a bs.length = bs := by
  rw [bytesAt_eq_map]
  refine List.ext_getElem (by simp) fun k hk _ => ?_
  have hk' : k < bs.length := by simpa using hk
  simp [byteAt_setBytes, hk', List.getD_eq_getElem?_getD]

/-- Bytes beside a write stand. -/
theorem byteAt_setBytes_of_outside {m : List Host.Cell} {a k : Nat} {bs : List Byte} (h : k < a ∨ a + bs.length ≤ k) :
    byteAt (setBytes m a bs) k = byteAt m k := by
  rw [byteAt_setBytes, if_neg (by omega)]

@[simp] theorem cm_took (c : Core) : c.took.cm = c.cm := rfl

section
variable {s : State} {i : Iss} {x : FmtI} {p : Nat}

/-- A load of own memory that meets no HANDOFF region. -/
theorem lds_plain (h : s.canIssue i (.lds x) p = true) (hc : cmOk (s.ctxOf i.v p) (refI (s.issueOf p i.st (.lds x)) x) 8 true 8 = true)
    (hp : Plain (s.ctxOf i.v p) (refOff (refI (s.issueOf p i.st (.lds x)) x)) 8) :
    ∃ t, exec (.lds i x) s = .next t ∧ t.core p = ((s.core p).setStream i.st ((s.streamOf i p).setS x.sd.toNat
      (BitVec.ofNat 64 (leNat (bytesAt (s.core p).cm (refOff (refI (s.issueOf p i.st (.lds x)) x)) 8))))).goOn i.st ∧ OnlyCore s t p := by
  have hd : ∀ lim fin, doLds (s.ctxOf i.v p) (s.issueOf p i.st (.lds x)) x (.again (s.core p).took prog0 lim fin) = _ :=
    fun lim fin => by rw [doLds, if_pos hc, read_plain _ rfl hp]
  exact issue_quiet (op := .lds x) _ h rfl fun lim fin => ⟨_, hd lim fin, by simp [Run.setS, State.streamOf], rfl⟩

/-- A store to own memory that meets no HANDOFF region. -/
theorem sts_plain (h : s.canIssue i (.sts x) p = true) (hc : cmOk (s.ctxOf i.v p) (refI (s.issueOf p i.st (.sts x)) x) 8 true 8 = true)
    (hp : Plain (s.ctxOf i.v p) (refOff (refI (s.issueOf p i.st (.sts x)) x)) 8) :
    ∃ t, exec (.sts i x) s = .next t ∧ t.core p = { s.core p with
        cm := setBytes (s.core p).cm (refOff (refI (s.issueOf p i.st (.sts x)) x))
          (leBytes 8 (sget (s.streamOf i p).sreg x.sd.toNat).toNat) }.goOn i.st ∧ OnlyCore s t p := by
  have hd : ∀ lim fin, doSts (s.ctxOf i.v p) (s.issueOf p i.st (.sts x)) x (.again (s.core p).took prog0 lim fin) = _ :=
    fun lim fin => by
      rw [doSts, if_pos hc, write_plain _ rfl (by simpa [length_leBytes] using hp), writeBytes_some]
  exact issue_quiet (op := .sts x) _ h rfl fun lim fin => ⟨_, hd lim fin, rfl, rfl⟩

end

/-- Settles O4: the reference decides between the access and the event. -/
theorem scalarMemory : Obligations.ScalarMemory := by
  unfold Obligations.ScalarMemory
  refine ⟨?_, ?_, ?_⟩
  · intro s i x p h a hc hp
    obtain ⟨t, ht, hcore, ho⟩ := lds_plain h hc hp
    exact ⟨t, ht, ho, hcore⟩
  · intro s i x p h a hc hp
    obtain ⟨t, ht, hcore, ho⟩ := sts_plain h hc hp
    refine ⟨t, _, ht, ho, hcore, ?_, fun k hk => byteAt_setBytes_of_outside (by rw [length_leBytes]; exact hk)⟩
    have hr := bytesAt_setBytes_self (s.core p).cm (refOff a) (leBytes 8 (sget (s.streamOf i p).sreg x.sd.toNat).toNat)
    rwa [length_leBytes] at hr
  · intro s i x p hp a hc
    have hbad : ¬ cmOk (s.ctxOf i.v p) a 8 true 8 = true := by rw [hc]; decide
    constructor
    · intro h
      obtain ⟨t, ht, hcore, he, hl⟩ := issue_event (op := .lds x) ((s.core p).setStream i.st ((s.streamOf i p).setS x.sd.toNat 0)) h rfl
        (fun u => coreEvent_addr u hp _ _ _) fun lim fin =>
        ⟨_, if_neg hbad, by simp [Run.setS, Run.addrRange, Run.emit, State.streamOf], rfl⟩
      exact ⟨t, ht, hcore, he, by simpa [misuseReg, eq_comm] using hl⟩
    · intro h
      obtain ⟨t, ht, hcore, he, hl⟩ := issue_event (op := .sts x) (s.core p) h rfl
        (fun u => coreEvent_addr u hp _ _ _) fun lim fin => ⟨_, if_neg hbad, rfl, rfl⟩
      exact ⟨t, ht, hcore, he, by simpa [misuseReg, eq_comm] using hl⟩

end Sys2Proof.Machine
end

section
/-!
PROOFS. Waits: what a WAIT does when it is issued, and how a wait ends by its condition, by its timeout, and a stream by its store's end.
-/

namespace Sys2Proof.Machine

open Sys2Proof

/-! ### A 64-bit counter in two words -/

theorem rpair_lt (s : State) (lo : Nat) : s.rpair lo < 2 ^ 64 := by
  have h := (s.rget lo).isLt
  have h' := (s.rget (lo + 4)).isLt
  unfold State.rpair
  omega

theorem rpair_setPair {s : State} {lo n : Nat} (h : n < 2 ^ 64) : (s.setPair lo n).rpair lo = n := by
  unfold State.rpair State.setPair
  rw [rget_rset_self, rget_rset_ne _ _ (by omega), rget_rset_self, BitVec.toNat_ofNat, BitVec.toNat_ofNat]
  omega

/-- A counter that saturates at all ones. -/
theorem rose_bumpPair (s : State) (lo n : Nat) : PairRose s (s.bumpPair lo n) lo n := by
  have hlt := rpair_lt s lo
  unfold PairRose State.bumpPair
  split
  next h => subst h; rw [Nat.add_zero, Nat.min_eq_right (by omega)]
  · exact rpair_setPair (by omega)

/-! ### The tests of R195 and R196 -/

theorem waitHolds_iff (cond : Nat) (v k : Word) : waitHolds cond v k = true ↔ waitMet cond v k := by
  unfold waitHolds waitMet
  split <;> simp

/-- A wait whose condition holds goes on, and takes its operand where it consumes (R195). -/
theorem waitTest_of_met {w : WaitRec} {r : Run} (h : waitMet w.cond (tget 0 r.c.ctr w.ctr) w.operand) :
    waitTest w r = some { r with c := passWait r.c w.ctr w.cond w.operand } := by
  unfold waitTest passWait
  dsimp only
  rw [if_pos ((waitHolds_iff ..).2 h)]
  split <;> rfl

theorem waitTest_of_not_met {w : WaitRec} {r : Run} (h : ¬ waitMet w.cond (tget 0 r.c.ctr w.ctr) w.operand) : waitTest w r = none :=
  if_neg (mt (waitHolds_iff ..).1 h)

@[simp] theorem earlierHolds_took (c : Core) (st : Stream) (w : WaitRec) : earlierHolds c.took st w = earlierHolds c st w := by
  unfold earlierHolds
  simp only [stream_took]
  rfl

/-- It is the wait's turn: no earlier stream waits to consume from its counter, or the counter does not satisfy it (R196). -/
theorem earlierHolds_eq_false {c : Core} {st : Stream} {w : WaitRec} : earlierHolds c st w = false ↔
    (w.cond = 2 → ∀ q ∈ before st, ∀ y, (c.stream q).phase = .waiting y → y.ctr = w.ctr → y.cond = 2 →
      (tget 0 c.ctr w.ctr).toNat < y.operand.toNat) := by
  by_cases hw : w.cond = 2
  · rw [← Bool.not_eq_true, earlierHolds_iff hw, Core.EarlierConsumes]
    simp [hw]
  · simp [earlierHolds, hw]

/-- A WAIT that goes on at once. -/
theorem doWait_goes {q : Issue} {x : FmtC} {r : Run} {k : Word} (hk : ctrOperand q x.immf x.val = k)
    (hmet : waitMet x.cond.toNat (tget 0 r.c.ctr x.ctr.toNat) k)
    (hturn : earlierHolds r.c q.st ⟨x.ctr.toNat, x.cond.toNat, k, x.tmo.toNat⟩ = false) :
    doWait q x r = { r with c := passWait r.c x.ctr.toNat x.cond.toNat k } := by
  unfold doWait
  simp only [hk, hturn, Bool.false_eq_true, if_false]
  rw [waitTest_of_met hmet]

/-- A WAIT that holds its stream. -/
theorem doWait_holds {q : Issue} {x : FmtC} {r : Run} {k : Word} (hk : ctrOperand q x.immf x.val = k)
    (h : ¬ waitMet x.cond.toNat (tget 0 r.c.ctr x.ctr.toNat) k ∨
      earlierHolds r.c q.st ⟨x.ctr.toNat, x.cond.toNat, k, x.tmo.toNat⟩ = true) :
    doWait q x r = r.setPhase q.st (.waiting ⟨x.ctr.toNat, x.cond.toNat, k, x.tmo.toNat⟩) := by
  have hn : (if earlierHolds r.c q.st ⟨x.ctr.toNat, x.cond.toNat, k, x.tmo.toNat⟩ = true then none
      else waitTest ⟨x.ctr.toNat, x.cond.toNat, k, x.tmo.toNat⟩ r) = none := by
    rcases h with h | h
    · rw [waitTest_of_not_met h, ite_self]
    · rw [if_pos h]
  unfold doWait
  simp only [hk, hn]

/-- WAIT_SATISFIED of a stream whose condition has come and whose turn it is. -/
theorem exec_waitSatisfied_of_met {s : State} {v : Fin 128} {st : Stream} {p : Nat} {w : WaitRec} (hv : s.holder v = some p)
    (hst : ((s.core p).stream st).phase = .waiting w) (hmet : waitMet w.cond (tget 0 (s.core p).ctr w.ctr) w.operand)
    (hturn : earlierHolds (s.core p) st w = false) (cycles : Nat) :
    exec (.waitSatisfied v st ⟨cycles, none⟩) s = .next ((s.setCore p
      ((passWait (s.core p) w.ctr w.cond w.operand).setStream st { (s.core p).stream st with phase := .run })).bumpPair
        (Reg.synWaitCycLo p) cycles) := by
  have hwait : waitOf ((s.core p).stream st) = some w := waitOf_eq_some.2 hst
  have hs : (passWait (s.core p) w.ctr w.cond w.operand).stream st = (s.core p).stream st := by
    unfold passWait
    split
    · cases st <;> rfl
    · rfl
  change execWaitSatisfied v st ⟨cycles, none⟩ s = _
  simp only [execWaitSatisfied, hv, hwait, hturn, waitTest_of_met (r := .fresh (s.core p)) hmet, Bool.false_eq_true, if_false]
  simp only [Run.setPhase, Run.fresh, hs]
  rfl

/-- Settles O6: by the test and the turn, at the issue and where the condition comes later. -/
theorem waitResults : Obligations.WaitResults := by
  unfold Obligations.WaitResults
  constructor
  · intro s i x p h k v turn
    have hk : ctrOperand (s.issueOf p i.st (.wait x)) x.immf x.val = k := ctrOperand_issueOf ..
    have hturn : earlierHolds (s.core p) i.st ⟨x.ctr.toNat, x.cond.toNat, k, x.tmo.toNat⟩ = false ↔ turn := earlierHolds_eq_false
    by_cases hgo : waitMet x.cond.toNat v k ∧ turn
    · obtain ⟨hm, ht⟩ := hgo
      obtain ⟨t, he, hc, ho⟩ := issue_quiet (op := .wait x) (passWait (s.core p) x.ctr.toNat x.cond.toNat k) h rfl fun lim fin =>
        ⟨_, congrArg Except.ok (doWait_goes hk hm ((earlierHolds_took ..).trans (hturn.2 ht))), by
          simp only [c_again, passWait]; split <;> rfl, rfl⟩
      exact ⟨t, he, ho, fun _ _ => hc, fun hn => absurd hn (by simp [hm, ht])⟩
    · rw [not_and_or] at hgo
      obtain ⟨t, he, hc, ho⟩ := issue_quiet (op := .wait x) ((s.core p).setStream i.st { s.streamOf i p with
          phase := .waiting ⟨x.ctr.toNat, x.cond.toNat, k, x.tmo.toNat⟩ }) h rfl fun lim fin =>
        ⟨_, congrArg Except.ok (doWait_holds hk (hgo.imp_right fun hn => (earlierHolds_took ..).trans (by simpa using mt hturn.1 hn))), by
          simp [Run.setPhase, State.streamOf], rfl⟩
      exact ⟨t, he, ho, fun hm ht => absurd hgo (by simp [hm, ht]), fun _ => hc⟩
  · intro s v st cycles p w hv hst hmet hearlier
    have hturn : earlierHolds (s.core p) st w = false := earlierHolds_eq_false.2 fun hw q hq y hy hk h2 => by
      simpa [waitMet] using hearlier hw q hq y hy hk h2
    refine ⟨_, exec_waitSatisfied_of_met hv hst hmet hturn cycles, by rw [core_bumpPair, core_setCore_self],
      coreAndRegs_setCore_bumpPair .., rose_bumpPair ..⟩

/-! ### Streams that halt (R78, R207) -/

theorem onlyCore_setCore (s : State) (p : Nat) (c : Core) : OnlyCore s (s.setCore p c) p :=
  ⟨fun _ hq => core_setCore_ne _ _ hq, rfl, fun _ => ⟨rfl, rfl⟩⟩

theorem onlyCore_refl (s : State) (p : Nat) : OnlyCore s s p := ⟨fun _ _ => rfl, rfl, fun _ => ⟨rfl, rfl⟩⟩

theorem CoreAndLog.setCore {s t : State} {p : Nat} {b : Nat → Prop} (h : CoreAndLog s t p b) (c : Core) :
    CoreAndLog s (t.setCore p c) p b := by
  obtain ⟨hk, u, hl, ho⟩ := h
  exact ⟨hk, u, hl, ho.setCore c⟩

/-- A request for DRAIN. -/
def State.drainAsked (s : State) : State := { s with stroke := { s.stroke with drainNext := true } }

/-- A stream that halts by an error. -/
def State.haltStream (s : State) (p : Nat) (st : Stream) : State :=
  s.setCore p ((s.core p).setStream st { (s.core p).stream st with phase := .halted false })

@[simp] theorem core_drainAsked (s : State) (p : Nat) : s.drainAsked.core p = s.core p := rfl
@[simp] theorem evtSet_drainAsked (s : State) (page k : Nat) : s.drainAsked.evtSet page k = s.evtSet page k := rfl
@[simp] theorem evtSet_setCore (s : State) (p : Nat) (c : Core) (page k : Nat) :
    (s.setCore p c).evtSet page k = s.evtSet page k := rfl

/-- A request for DRAIN is not touched by what a core and its events change. -/
theorem CoreAndLog.drainAsked {s t : State} {p : Nat} {b : Nat → Prop} (h : CoreAndLog s t p b) :
    CoreAndLog s.drainAsked t.drainAsked p b := by
  obtain ⟨hk, u, hl, hc, ht, hf⟩ := h
  obtain ⟨regs, ring, host, dropped, log, out, hm, se, told, rfl⟩ := hl
  refine ⟨hk, _, ⟨regs, ring, host, dropped, log, out, hm, se, told, rfl⟩, hc, ?_, hf⟩
  unfold State.drainAsked
  rw [ht]

/-- A wait that times out. -/
theorem exec_waitTimeout_of_not_met {s : State} {v : Fin 128} {st : Stream} {p : Nat} {w : WaitRec} (hv : s.holder v = some p)
    (hst : ((s.core p).stream st).phase = .waiting w) (hmet : ¬ waitMet w.cond (tget 0 (s.core p).ctr w.ctr) w.operand) :
    ∃ waiter detail n, exec (.waitTimeout v st) s = .next
      (((s.setCore p ((s.core p).setStream st { (s.core p).stream st with phase := .halted false })).bumpPair
        (Reg.synWaitCycLo p) n).coreRaise p v 0x0203 w.ctr waiter detail []).drainAsked := by
  have hwait : waitOf ((s.core p).stream st) = some w := waitOf_eq_some.2 hst
  have hno : waitHolds w.cond (tget 0 (s.core p).ctr w.ctr) w.operand = false := by simpa using mt (waitHolds_iff ..).1 hmet
  let halted := (s.core p).setStream st { (s.core p).stream st with phase := .halted false }
  refine ⟨waiterWord ((s.setCore p halted).bumpPair (Reg.synWaitCycLo p) (w.tmo * 2 ^ s.stroke.n)).member v st,
    (tget 0 (s.core p).ctr w.ctr).toNat, w.tmo * 2 ^ s.stroke.n, ?_⟩
  change execWaitTimeout v st s = _
  simp only [execWaitTimeout, hv, hwait, hno, Bool.false_eq_true, if_false]
  rfl

/-- A stream that runs beyond its store. -/
theorem exec_fetchBeyondStore_of_runs {s : State} {v : Fin 128} {st : Stream} {p : Nat} (hv : s.holder v = some p)
    (hi : s.issuing p = true) (ho : ownsSlot (s.core p) st = true) (hr : ((s.core p).stream st).phase = .run)
    (hpc : 16384 ≤ ((s.core p).stream st).pc.toNat) :
    exec (.fetchBeyondStore v st) s =
      .next ((s.coreRaise p v 0x0911 0 st.codeNat ((s.core p).stream st).pc.toNat []).haltStream p st) := by
  change execFetchBeyondStore v st s = _
  have hruns : runs ((s.core p).stream st) = true := by simp [runs, hr]
  simp only [execFetchBeyondStore, hv, hi, ho, hruns, hpc, decide_true, Bool.and_self, if_true]
  rfl

/-- Settles O8: both halt their stream and raise an event of their core. -/
theorem streamHalts : Obligations.StreamHalts := by
  unfold Obligations.StreamHalts
  intro s v st p hv hp
  refine ⟨fun w hst hmet => ?_, fun hi ho hr hpc => ?_⟩
  · obtain ⟨waiter, detail, n, he⟩ := exec_waitTimeout_of_not_met hv hst hmet
    let halted := (s.core p).setStream st { (s.core p).stream st with phase := .halted false }
    obtain ⟨hl, hk, hs⟩ := (coreEvent_sync ((s.setCore p halted).bumpPair (Reg.synWaitCycLo p) n) hp w.ctr waiter detail 2 (by decide)
      rfl).raised (v := v)
    have hpair : RegsKept (s.setCore p halted) ((s.setCore p halted).bumpPair (Reg.synWaitCycLo p) n) (eventRegs (pgSyn p)) :=
      (kept_bumpPair _ _ _).mono fun o ho => .inl (by unfold pairAt Reg.synWaitCycLo at ho; unfold pgSyn coreWin at *; omega)
    have hlog := (CoreAndLog.of_logged (onlyCore_setCore s p halted) ((logged_bumpPair ..).trans hl)
      (hpair.trans (hk.mono (d := eventRegs (pgSyn p)) fun o ho => by simpa [misuseReg] using ho))).drainAsked
    refine ⟨_, he, ?_, (evtSet_drainAsked ..).trans hs, hlog⟩
    rw [core_drainAsked, hl.core, core_bumpPair, core_setCore_self]
  · obtain ⟨hl, hk, hs⟩ := (coreEvent_illegal s hp 0 st.codeNat ((s.core p).stream st).pc.toNat).raised (v := v)
    have hlog := CoreAndLog.of_logged (onlyCore_refl s p) hl
      (hk.mono (d := eventRegs (pgCc p)) fun o ho => by simpa [misuseReg] using ho)
    refine ⟨_, exec_fetchBeyondStore_of_runs hv hi ho hr hpc, ?_, (evtSet_setCore ..).trans hs, hlog.setCore _⟩
    rw [State.haltStream, core_setCore_self, hl.core]

end Sys2Proof.Machine
end

section
/-!
PROOFS. SIGNAL, HINT, VSTAT and FLAGS: one effect each.
-/

namespace Sys2Proof.Machine

open Sys2Proof

/-- What a work on core `p` leaves of the rest of the device, and of the core. -/
structure WorkedAs (S w : State) (p : Nat) (c : Core) : Prop where
  only : OnlyCore S w p
  core : w.core p = c.took

/-- An issue with one effect outside its core, from what the effect does to any state that is `s` but for the core. -/
theorem issue_effect {s : State} {i : Iss} {op : IsaOp} {p : Nat} {e : Fx} (c : Core) (S : State) (h : s.canIssue i op p = true)
    (hq : quietOp op = true) (he : ∀ w, WorkedAs s w p c → WorkedAs S (w.applyFx p i.v e) p c)
    (hp : ∀ lim fin, ∃ r, perform (s.ctxOf i.v p) (s.rowBytes i.v) (s.streamOf i p).pc.toNat (s.issueOf p i.st op)
      (.again (s.core p).took prog0 lim fin) = .ok r ∧ r.c = c.took ∧ r.fx = [e]) :
    ∃ t, exec (cmdOf i op) s = .next t ∧ t.core p = c.goOn i.st ∧ OnlyCore S t p := by
  obtain ⟨a, f, lim, fin, haf, ex⟩ := exec_quiet h hq
  obtain ⟨r, hr, hc, hf⟩ := hp lim fin
  obtain ⟨ho, hcore⟩ := he _ ⟨onlyCore_atIssue haf r.c, (core_setCore_self ..).trans hc⟩
  rw [ex r hr, hf]
  exact ⟨_, rfl, core_next hcore, ho.next⟩

/-- The work of an effect that changes one part of the device by its own content. -/
theorem WorkedAs.flights {s w : State} {p : Nat} {c : Core} (h : WorkedAs s w p c) (fs : List Flight) :
    WorkedAs { s with flights := s.flights ++ fs } { w with flights := w.flights ++ fs } p c := by
  obtain ⟨⟨hc, hw, hf⟩, hcore⟩ := h
  refine ⟨⟨hc, ?_, hf⟩, hcore⟩
  rw [hw]

theorem WorkedAs.pwr {s w : State} {p : Nat} {c : Core} (h : WorkedAs s w p c) (g : PwrSt → PwrSt) :
    WorkedAs { s with pwr := g s.pwr } { w with pwr := g w.pwr } p c := by
  obtain ⟨⟨hc, hw, hf⟩, hcore⟩ := h
  refine ⟨⟨hc, ?_, hf⟩, hcore⟩
  rw [hw]

theorem WorkedAs.stp {s w : State} {p : Nat} {c : Core} (h : WorkedAs s w p c) (g : StepSt → StepSt) :
    WorkedAs { s with stp := g s.stp } { w with stp := g w.stp } p c := by
  obtain ⟨⟨hc, hw, hf⟩, hcore⟩ := h
  refine ⟨⟨hc, ?_, hf⟩, hcore⟩
  rw [hw]

/-! ### SIGNAL (R197) -/

section
variable {s : State} {i : Iss} {p : Nat}

/-- The travel time that an instruction sees is that of the device's table (R241). -/
theorem travel_ctxOf (s : State) (v p : Nat) {d : Nat} (hd : d < 128) : (s.ctxOf v p).travel.getD d 0 = travelTime s.ldtSel v d := by
  simp [State.ctxOf, List.getD_eq_getElem?_getD, hd]

theorem issue_signal {x : FmtS} (h : s.canIssue i (.signal x) p = true)
    (hx : x.vx.toNat < s.job.grid.1 ∧ x.vy.toNat < s.job.grid.2) :
    ∃ t, exec (.signal i x) s = .next t ∧ t.core p = (s.core p).goOn i.st ∧
      OnlyCore (s.launched i (x.vy.toNat * 8 + x.vx.toNat) (opcodeOf (.signal x))
        [.counter x.ctr.toNat (syncOperand (s.streamOf i p) x.immf x.val)]) t p := by
  have hin : ¬ ((s.ctxOf i.v p).gridW ≤ x.vx.toNat ∨ (s.ctxOf i.v p).gridH ≤ x.vy.toNat) :=
    not_or.2 ⟨Nat.not_le.2 hx.1, Nat.not_le.2 hx.2⟩
  have hd : x.vy.toNat * 8 + x.vx.toNat < 128 := by
    have := x.vy.isLt
    have := x.vx.isLt
    omega
  rw [← ctrOperand_issueOf s i p (.signal x)]
  refine issue_effect (e := .flight (x.vy.toNat * 8 + x.vx.toNat) ((s.ctxOf i.v p).travel.getD (x.vy.toNat * 8 + x.vx.toNat) 0) i.st
    (opcodeOf (.signal x)) [.counter x.ctr.toNat (ctrOperand (s.issueOf p i.st (.signal x)) x.immf x.val)]) (op := .signal x) (s.core p) _
    h rfl (fun w hw => ?_) fun lim fin => ⟨_, congrArg Except.ok (if_neg hin), rfl, rfl⟩
  rw [travel_ctxOf s i.v p hd]
  exact hw.flights _

/-! ### HINT (R199) -/

/-- The hint of a stroke behind one more. -/
def hintJoined (h : Option (Nat × Nat)) (cls lead : Nat) : Nat × Nat :=
  match h with
  | none => (cls, lead)
  | some (c, l) => if c < cls then (cls, lead) else if c = cls then (c, min l lead) else (c, l)

theorem takeHint_eq (s : State) (cls lead : Nat) :
    s.takeHint cls lead = { s with pwr := { s.pwr with hintIn := some (hintJoined s.pwr.hintIn cls lead) } } := rfl

/-- The highest class, with the smallest of its leads. -/
theorem hintJoined_some (c l cls lead : Nat) : hintJoined (some (c, l)) cls lead =
    (max c cls, if c < cls then lead else if c = cls then min l lead else l) := by
  rcases lt_trichotomy c cls with h | h | h
  · simp [hintJoined, h, h.le]
  · simp [hintJoined, h]
  · simp [hintJoined, h.le, h.not_gt, h.ne']

theorem issue_hint {x : FmtH} (h : s.canIssue i (.hint x) p = true) :
    ∃ t, exec (.hint i x) s = .next t ∧ t.core p = (s.core p).goOn i.st ∧
      OnlyCore { s with pwr := { s.pwr with hintIn := some (hintJoined s.pwr.hintIn x.cls.toNat x.lead.toNat) } } t p :=
  issue_effect (e := .hint x.cls.toNat x.lead.toNat) (op := .hint x) (s.core p) _ h rfl
    (fun _ hw => hw.pwr fun q => { q with hintIn := some (hintJoined q.hintIn x.cls.toNat x.lead.toNat) })
    fun _ _ => ⟨_, rfl, rfl, rfl⟩

/-! ### VSTAT (R230) -/

/-- The loss of a step behind one more: that of the lowest position. -/
def lossJoined (l : Option (Nat × Word)) (v : Nat) (w : Word) : Option (Nat × Word) :=
  match l with
  | some (u, l) => some (if v ≤ u then (v, w) else (u, l))
  | none => some (v, w)

theorem takeStat_loss (s : State) (v : Nat) (w : Word) :
    s.takeStat v 0 w = { s with stp := { s.stp with loss := lossJoined s.stp.loss v w } } := by
  unfold State.takeStat
  rw [if_pos rfl]
  rcases hl : s.stp.loss with _ | ⟨u, l⟩
  · rfl
  · by_cases hv : v ≤ u
    · simp only [lossJoined, if_pos hv]
    · simp only [lossJoined, if_neg hv, ← hl]

theorem takeStat_count {sel : Nat} (hs : sel ≠ 0) (s : State) (v : Nat) (w : Word) :
    s.takeStat v sel w = { s with stp := { s.stp with nfCount := addSat s.stp.nfCount w } } := if_neg hs

theorem issue_vstat {x : FmtVstat} (h : s.canIssue i (.vstat x) p = true) (g : StepSt → StepSt)
    (hg : ∀ w : State, w.takeStat i.v x.sel.toNat ((s.scalarOf i p x.sa).truncate 32) = { w with stp := g w.stp }) :
    ∃ t, exec (.vstat i x) s = .next t ∧ t.core p = (s.core p).goOn i.st ∧ OnlyCore { s with stp := g s.stp } t p :=
  issue_effect (e := .vstat x.sel.toNat ((s.scalarOf i p x.sa).truncate 32)) (op := .vstat x) (s.core p) _ h rfl
    (fun w hw => (show w.applyFx p i.v (.vstat x.sel.toNat ((s.scalarOf i p x.sa).truncate 32)) = _ from hg w) ▸ hw.stp g)
    fun _ _ => ⟨_, rfl, rfl, rfl⟩

/-! ### FLAGS (R229) -/

theorem issue_flags {x : FmtFlags} (h : s.canIssue i (.flags x) p = true) (hl : (s.streamOf i p).lateFlags = []) :
    ∃ t, exec (.flags i x) s = .next t ∧
      t.core p = ((s.core p).setStream i.st { (s.streamOf i p).setS x.sd.toNat ((s.streamOf i p).flags.zeroExtend 64) with
        flags := (s.streamOf i p).flags &&& ~~~x.mask }).goOn i.st ∧ OnlyCore s t p := by
  refine issue_quiet (op := .flags x) _ h rfl fun lim fin => ⟨_, rfl, ?_, rfl⟩
  simp [doFlags, stream_eq_streamOf, hl]

end

/-- Settles O10: SIGNAL sends or raises its event, and the others have one effect each. -/
theorem signalHintStatFlags : Obligations.SignalHintStatFlags := by
  unfold Obligations.SignalHintStatFlags
  intro s i p
  refine ⟨fun x h hx => issue_signal h hx, fun x h hx hp => ?_, fun x h => ?_, fun x h => ?_, fun x h hl => ?_⟩
  · obtain ⟨t, ht, hc, he, ho⟩ := issue_event (op := .signal x) (s.core p) h rfl (fun u => coreEvent_addr u hp _ _ _) fun lim fin =>
      ⟨_, congrArg Except.ok (if_pos hx), rfl, rfl⟩
    exact ⟨t, ht, hc, he, by simpa [misuseReg, eq_comm] using ho⟩
  · obtain ⟨t, ht, hc, ho⟩ := issue_hint h
    refine ⟨t, (hintJoined s.pwr.hintIn x.cls.toNat x.lead.toNat).1, (hintJoined s.pwr.hintIn x.cls.toNat x.lead.toNat).2, ht, hc, ho, fun hn => ?_, fun c l hs => ?_⟩
    · rw [hn]; exact ⟨rfl, rfl⟩
    · rw [hs, hintJoined_some]; exact ⟨rfl, rfl⟩
  · by_cases hs : x.sel.toNat = 0
    · obtain ⟨t, ht, hc, ho⟩ := issue_vstat h (fun q => { q with loss := lossJoined q.loss i.v ((s.scalarOf i p x.sa).truncate 32) })
        fun w => by rw [hs]; exact takeStat_loss ..
      exact ⟨t, ht, hc, fun _ => ho, absurd hs⟩
    · obtain ⟨t, ht, hc, ho⟩ := issue_vstat h (fun q => { q with nfCount := addSat q.nfCount ((s.scalarOf i p x.sa).truncate 32) })
        fun w => takeStat_count hs ..
      exact ⟨t, ht, hc, fun h0 => absurd h0 hs, fun _ => ho⟩
  · obtain ⟨t, ht, hc, ho⟩ := issue_flags h hl
    exact ⟨t, ht, ho, hc⟩

end Sys2Proof.Machine
end

section
/-!
PROOFS. The test access port (R494, R496): the work of a state, then the move by TMS.
-/

namespace Sys2Proof.Machine

open Sys2Proof

/-- The test access port and the count of free values drawn are all that differs. -/
def PortOnly (s u : State) : Prop := u = { s with free := u.free, mgmt := { s.mgmt with jtag := u.mgmt.jtag } }

theorem PortOnly.refl (s : State) : PortOnly s s := rfl
theorem PortOnly.trans {s t u : State} (h : PortOnly s t) (k : PortOnly t u) : PortOnly s u := by
  unfold PortOnly at *
  rw [k, h]

/-! ### The work of a state of the port -/

theorem freeBits_eq : ∀ (n : Nat) (s : State), ∃ l f, State.freeBits n s = (l, { s with free := f })
  | 0, s => ⟨[], s.free, rfl⟩
  | n + 1, s => by
    obtain ⟨l, f, h⟩ := freeBits_eq n s.draw.2
    refine ⟨s.draw.1.getLsbD 0 :: l, f, ?_⟩
    change (s.draw.1.getLsbD 0 :: (State.freeBits n s.draw.2).1, (State.freeBits n s.draw.2).2) = _
    rw [h]
    rfl

theorem captureDr_eq (s : State) : ∃ l f, s.captureDr = (l, { s with free := f }) := by
  unfold State.captureDr
  split
  · exact ⟨_, s.free, rfl⟩
  · exact freeBits_eq ..
  · exact freeBits_eq ..
  all_goals exact ⟨_, s.free, rfl⟩

theorem captureIr_eq (s : State) : ∃ l f, s.captureIr = (l, { s with free := f }) := by
  obtain ⟨l, f, h⟩ := freeBits_eq (Config.jtagIrLen - 2) s
  exact ⟨_, f, by rw [State.captureIr, h]⟩

/-- What the port's state does before it is left: captures and shifts. -/
def State.tapWork (s : State) (tdi : Bool) : State :=
  match s.mgmt.jtag.tap with
  | .capDr => s.captureDr.2.setDr s.captureDr.1
  | .capIr => s.captureIr.2.setIr s.captureIr.1
  | .shDr => s.setDr (shiftIn s.mgmt.jtag.dr tdi)
  | .shIr => s.setIr (shiftIn s.mgmt.jtag.ir tdi)
  | _ => s

theorem tck_eq (s : State) (tms tdi : Bool) : s.tck tms tdi = (s.tapWork tdi).jtagLatch (s.mgmt.jtag.tap.next tms) := by
  cases h : s.mgmt.jtag.tap <;> simp only [State.tck, State.tapWork, h]

theorem tapWork_keeps (s : State) (tdi : Bool) : PortOnly s (s.tapWork tdi) ∧ (s.tapWork tdi).mgmt.jtag.op = s.mgmt.jtag.op := by
  obtain ⟨l, f, hd⟩ := captureDr_eq s
  obtain ⟨l', f', hi⟩ := captureIr_eq s
  unfold State.tapWork
  split
  · rw [hd]; exact ⟨rfl, rfl⟩
  · rw [hi]; exact ⟨rfl, rfl⟩
  all_goals exact ⟨rfl, rfl⟩

/-! ### The move -/

/-- The port in the state that it moves to. -/
theorem jtagLatch_keeps (s : State) (t : Tap) : PortOnly s (s.jtagLatch t) ∧ (s.jtagLatch t).mgmt.jtag.tap = t ∧
    (s.jtagLatch t).mgmt.jtag.dr = s.mgmt.jtag.dr ∧ (s.jtagLatch t).mgmt.jtag.ir = s.mgmt.jtag.ir := by
  refine ⟨rfl, ?_⟩
  unfold State.jtagLatch
  dsimp only
  split
  case h_3 => split <;> exact ⟨rfl, rfl, rfl⟩
  all_goals exact ⟨rfl, rfl, rfl⟩

theorem jtagLatch_op {s : State} {t : Tap} (hr : t ≠ .reset) (hi : t ≠ .updIr) : (s.jtagLatch t).mgmt.jtag.op = s.mgmt.jtag.op := by
  unfold State.jtagLatch
  dsimp only
  split
  case h_1 => exact absurd rfl hr
  case h_2 => exact absurd rfl hi
  case h_3 => split <;> rfl
  all_goals rfl

/-- Settles O54: an edge does the work of the port's state and moves it. -/
theorem testPort : Obligations.TestPort := by
  unfold Obligations.TestPort
  refine ⟨fun s tms tdi hg => ?_, fun s hg => ?_, fun s e hg => ?_, fun t => by cases t <;> rfl⟩
  · have he : exec (.jtagTck (.tck tms tdi)) s = .next ((s.tapWork tdi).jtagLatch (s.mgmt.jtag.tap.next tms)) := by
      rw [← tck_eq, exec, execJtagTck, hg]; rfl
    obtain ⟨hw, hop⟩ := tapWork_keeps s tdi
    obtain ⟨hl, htap, hdr, hir⟩ := jtagLatch_keeps (s.tapWork tdi) (s.mgmt.jtag.tap.next tms)
    refine ⟨_, he, hw.trans hl, htap, fun hs ht => ?_, fun hs ho => ?_, fun hs ho => ?_, fun hn => ?_, fun hr hi => ?_⟩
    · subst ht
      have hwork : s.tapWork tdi = s.setDr (shiftIn s.mgmt.jtag.dr tdi) := by unfold State.tapWork; rw [hs]
      rw [hdr, hir, hs, hwork]
      exact ⟨rfl, rfl, rfl⟩
    · rw [hdr, State.tapWork, hs]
      simp only [State.captureDr, State.jtagEff, ho]
      rfl
    · rw [hdr, State.tapWork, hs]
      simp only [State.captureDr, State.jtagEff, ho]
      rfl
    · rw [hn]; rfl
    · rw [jtagLatch_op hr hi, hop]
  · rw [exec, execJtagTck, hg]; rfl
  · exact congrArg Host.Outcome.next (if_pos (by rw [hg]; rfl))

end Sys2Proof.Machine
end

section
/-!
PROOFS. Events of the device's pages, and the timers of flows and peers.
-/

namespace Sys2Proof.Machine

open Sys2Proof

/-! ### Events with layout M -/

/-- What an event of a page of the device leaves. -/
theorem raised_raiseM {page code k : Nat} {pg : Page} (hp : pageAt page = some pg) (hk : evtBit pg code (sevOf code) = some k)
    (hb : pg.base = page) (h0 : page % 0x1000 = 0) (s : State) (low waiter detail : Nat) :
    Raised s (s.raiseM code page low waiter detail) page k :=
  raised_raise rfl hp hk hb h0 (fun c hc => by cases hc)

/-- What a packet that is sent can change: the fabric's state. -/
def FabricOnly (s t : State) : Prop := t = { s with fab := t.fab }

theorem FabricOnly.trans {s t u : State} (h : FabricOnly s t) (k : FabricOnly t u) : FabricOnly s u := by
  unfold FabricOnly at *
  rw [k, h]

theorem fabricOnly_foldl {α : Type} {f : State → α → State} (h : ∀ s a, FabricOnly s (f s a)) (l : List α) (s : State) :
    FabricOnly s (l.foldl f s) := by
  induction l generalizing s with
  | nil => rfl
  | cons a l ih => exact (h s a).trans (ih _)

theorem fabricOnly_sendPlain (s : State) (f typ flags : Nat) (seq : Word) (payload : List Byte) :
    FabricOnly s (s.sendPlain f typ flags seq payload) := by
  unfold State.sendPlain State.transmit
  split
  · rfl
  · rfl

/-! ### The timers (R306, R308, R327, R398, R413, R414) -/

theorem exec_sendRateRise_of_rate {s : State} {fl : Fin 4096} {g : Nat} (h : (s.flow fl).rate = some g) :
    exec (.sendRateRise fl) s = .next (s.setFlow fl { s.flow fl with
      rate := if s.fullRate fl ≤ g + 4096 then none else some (g + 4096) }) := by
  rw [exec, execSendRateRise, h]
  simp only [Option.isSome_some, if_true, State.riseRate, State.rateOf, h, Option.getD_some]

theorem exec_peerSilentTimeout_of_peer {s : State} {m : Fin 8192} {ms : Nat} (hms : 8 ≤ ms) (hm : m.val ∈ s.peers)
    (hs : m.val ∉ s.fab.silent) : ∃ u, Raised { s with fab := { s.fab with silent := s.fab.silent ++ [m.val] } } u (pgIgs 0) 2 ∧
      exec (.peerSilentTimeout m ms) s = .next (u.blameOnce m 1 ms) := by
  have hc : (decide (8 ≤ ms) && s.peers.contains m.val && !s.fab.silent.contains m.val) = true := by simp [hms, hm, hs]
  refine ⟨State.raisePeer { s with fab := { s.fab with silent := s.fab.silent ++ [m.val] } } 0x050C sevInfo m.val 0 ms, ?_,
    congrArg Host.Outcome.next (if_pos hc)⟩
  exact raised_raise (pg := ⟨.igs, 0, 0, pgIgs 0⟩) rfl rfl rfl rfl rfl (fun c hc => absurd hc List.not_mem_nil)

theorem exec_paceResend_of_value {s : State} (hb : s.rbit Reg.pwrCtl 5 = true) (hv : 0 < s.paceValue) :
    ∃ t, exec .paceResend s = .next t ∧ FabricOnly { s with pwr := { s.pwr with paceSent := s.paceValue } } t := by
  refine ⟨s.sendPace, congrArg Host.Outcome.next (if_pos (by simp [hb, hv])), ?_⟩
  unfold State.sendPace
  refine fabricOnly_foldl (fun u m => ?_) _ _
  split
  · rfl
  · exact fabricOnly_sendPlain ..

/-- Settles O41: each timer does its one thing. -/
theorem fabricTimers : Obligations.FabricTimers := by
  unfold Obligations.FabricTimers
  refine fun s => ⟨fun fl h => ?_, fun fl g h => exec_sendRateRise_of_rate h, rfl, fun m ms hms hm hs => exec_peerSilentTimeout_of_peer hms hm hs,
    fun m x hx => ?_, fun hb hv => ?_, fun m => ?_⟩
  · exact congrArg Host.Outcome.next (if_pos h)
  · refine ⟨s.raiseM 0x0641 (pgAsy 1) (x.member * 64) 0 x.reporters.length, ?_, raised_raiseM (pg := ⟨.asy, 0, 1, pgAsy 1⟩) rfl rfl rfl rfl ..⟩
    rw [exec, execBlameTallyTimer, hx]
  · obtain ⟨t, ht, hf⟩ := exec_paceResend_of_value hb hv
    exact ⟨t, ht, by rw [hf], hf⟩
  · refine ⟨_, rfl, by simp only [tget_tset_self], fun k hk => ?_, rfl⟩
    simp only [tget_tset_ne _ _ _ hk]

end Sys2Proof.Machine
end

section
/-!
PROOFS. Entries of the command ring that are rejected: a late one is told of as well.
-/

namespace Sys2Proof.Machine

open Sys2Proof

/-- A STANDBY entry that was to take effect at stroke 1. -/
def lateStandby : RingEntry := ⟨[11, 0, 0, 0, 0, 0, 0, 0, 1, 0, 0, 0, 0, 0, 0, 0] ++ List.replicate 48 0, Tests.refs0⟩

/-- A device in RUN whose job is at stroke 5. -/
def runAtFive : State := { Tests.live with stroke := { Tests.live.stroke with jobStroke := 5 } }

/-- Refutes O31: where strokes count and the stroke of the entry has passed, the device raises 0x0304 before it rejects the entry, so that
the completion is not all that the command leaves. Here STANDBY, which RUN does not take, was to take effect at stroke 1 and is met at
stroke 5. -/
theorem not_ringCompletions : ¬ Obligations.RingCompletions := by
  unfold Obligations.RingCompletions
  intro h
  have hop : (Instr.standby lateStandby, entOp lateStandby) ∈ [(Instr.jobStart lateStandby, 1), (.setCap lateStandby, 3),
      (.setSetting lateStandby, 4), (.epoch lateStandby, 5), (.loadWeights lateStandby, 6), (.stage lateStandby, 7),
      (.unseal lateStandby, 8), (.retrain lateStandby, 9), (.burnishRun lateStandby, 10), (.standby lateStandby, 11),
      (.fwUpdate lateStandby, 12), (.svnAdvance lateStandby, 13), (.wallNote lateStandby, 14)] := by
    rw [show entOp lateStandby = 11 by decide +kernel]
    simp
  obtain ⟨-, hr⟩ := h.1 runAtFive lateStandby (.standby lateStandby) rfl (.inr (.inl rfl)) hop
  have he := Host.Outcome.next.inj (hr (by decide +kernel) (by decide +kernel))
  have hset : (runAtFive.applyNow 0x0B lateStandby).evtSet (pgStk 1) 3 = true := by decide +kernel
  have hclear : (runAtFive.reply (entRef lateStandby) 0 stRejected 0).evtSet (pgStk 1) 3 = false := by decide +kernel
  rw [← he, hset] at hclear
  cases hclear

end Sys2Proof.Machine
end

section
/-!
PROOFS. The end of an assay job and of a drain (R82, R385, R429).
-/

namespace Sys2Proof.Machine

open Sys2Proof

/-- A change of the stroke's state that leaves the once-per-stroke marks alone can as well stand before an event. -/
theorem Raised.stroke {s t : State} {page k : Nat} (h : Raised s t page k) (g : StrokeSt → StrokeSt)
    (hg : ∀ x told, g { x with told := told } = { g x with told := told }) :
    Raised { s with stroke := g s.stroke } { t with stroke := g t.stroke } page k := by
  obtain ⟨⟨regs, ring, host, dropped, log, out, hm, se, told, rfl⟩, hk, hs⟩ := h
  exact ⟨⟨regs, ring, host, dropped, log, out, hm, se, told, by rw [hg]⟩, hk, hs⟩

/-- An assay job that has run its strokes ends as any operation does, and asks for DRAIN. -/
theorem endAssay_run {s : State} (h : s.mgmt.dev = .run) : s.endAssay = { s with
    job := { s.job with complete := true, cmd := none }
    stroke := { s.stroke with drainNext := true } }.endOp s.job.cmd stOk 0 := by
  unfold State.endAssay State.endOp State.drainSoon
  rw [if_neg (by rw [h]; decide), if_pos h]
  cases s.job.cmd <;> rfl

theorem abandonWork_eq (s : State) : s.abandonWork = { s with
    flights := s.flights.filter (fun f => f.opc != 0x81 && f.opc != 0x82)
    stp := { s.stp with pendingRec := none }
    fab := { s.fab with colls := [], roots := [], coords := [],
                        flows := s.fab.flows.map (fun e => (e.1, { e.2 with retained := [], arms := [], rxq := [] })) } } := by
  simp only [State.abandonWork, Bool.not_or, bne]

/-- Settles O26: each of the three commands is carried out where its rule says, the last with its event behind what it abandons. -/
theorem drainsEnd : Obligations.DrainsEnd := by
  unfold Obligations.DrainsEnd
  refine fun s => ⟨fun ha hh hr => ?_, fun hd hh ho => ?_, fun hd hn => ?_⟩
  · rw [exec, execAssayLimitReached, ha, hh, ← endAssay_run hr]
    rfl
  · rw [exec, execDrainComplete, hd, hh, ho]
    rfl
  · have hr := (raised_raiseM (page := pgMss) (code := 0x0806) (k := 3) (pg := ⟨.mss, 0, 0, pgMss⟩) rfl rfl rfl rfl s.abandonWork 0 0
      s.openOps).stroke (fun x => { x with drained := true }) fun _ _ => rfl
    rw [abandonWork_eq] at hr
    refine ⟨_, ?_, hr⟩
    rw [exec, execDrainLimitExpiry, hd, hn, abandonWork_eq]
    rfl

end Sys2Proof.Machine
end

section
/-!
PROOFS. Lanes and ports: what the failure of a lane leaves, and the other commands of a port.
-/

namespace Sys2Proof.Machine

open Sys2Proof

/-- The registers that an event of a page of the device can write. -/
theorem kept_raiseM {page : Nat} {pg : Page} (hp : pageAt page = some pg) (hb : pg.base = page) (h0 : page % 0x1000 = 0) (s : State)
    (code low waiter detail : Nat) : RegsKept s (s.raiseM code page low waiter detail) (eventRegs page) :=
  kept_raise s (ev code page (s.objM low) waiter detail) hp hb h0 (fun _ hc => absurd hc List.not_mem_nil)

/-- The state of a port's lanes, the spare lanes in use, the device's DEGRADED mark and a port's EVT word are as they were. -/
structure LanesKept (s t : State) (q : Nat) : Prop where
  up : (t.port q).up = (s.port q).up
  retraining : (t.port q).retraining = (s.port q).retraining
  spare : (t.port q).spare = (s.port q).spare
  used : t.fab.spareUsed = s.fab.spareUsed
  degraded : t.mgmt.degraded = s.mgmt.degraded
  evt : t.rget (pgFab q + oEvt) = s.rget (pgFab q + oEvt)

section
variable {s t u : State} {q : Nat}

theorem LanesKept.refl (s : State) (q : Nat) : LanesKept s s q := ⟨rfl, rfl, rfl, rfl, rfl, rfl⟩

theorem LanesKept.trans (h : LanesKept s t q) (k : LanesKept t u q) : LanesKept s u q :=
  ⟨k.up.trans h.up, k.retraining.trans h.retraining, k.spare.trans h.spare, k.used.trans h.used, k.degraded.trans h.degraded,
    k.evt.trans h.evt⟩

theorem lanesKept_foldl {α : Type} {f : State → α → State} (h : ∀ s a, LanesKept s (f s a) q) (l : List α) (s : State) :
    LanesKept s (l.foldl f s) q := by
  induction l generalizing s with
  | nil => exact .refl ..
  | cons a l ih => exact (h s a).trans (ih _)

/-- Logs and registers but the port's EVT word. -/
theorem lanesKept_of_logged (h : Logged s t) {b : Nat → Prop} (hk : RegsKept s t b) (hb : ¬ b (pgFab q + oEvt)) (hd : t.mgmt.degraded =
    s.mgmt.degraded) : LanesKept s t q := by
  have hf := h.fab
  have hp : t.port q = s.port q := by unfold State.port; rw [hf]
  exact ⟨by rw [hp], by rw [hp], by rw [hp], by rw [hf], hd, hk _ hb⟩

theorem Logged.degraded (h : Logged s t) : t.mgmt.degraded = s.mgmt.degraded := by
  obtain ⟨_, _, _, _, _, _, _, _, _, rfl⟩ := h; rfl

/-- A port that is written with its lanes as they are. -/
theorem lanesKept_setPort {r : Nat} {x : PortSt} (hu : x.up = (s.port r).up) (hr : x.retraining = (s.port r).retraining)
    (hs : x.spare = (s.port r).spare) : LanesKept s (s.setPort r x) q := by
  by_cases h : q = r
  · subst h
    exact ⟨by rw [port_setPort_self, hu], by rw [port_setPort_self, hr], by rw [port_setPort_self, hs], rfl, rfl, rfl⟩
  · have hp : (s.setPort r x).port q = s.port q := port_setPort_ne _ _ h
    exact ⟨by rw [hp], by rw [hp], by rw [hp], rfl, rfl, rfl⟩

theorem lanesKept_transmit (s : State) (f : Nat) (p : Pkt) : LanesKept s (s.transmit f p) q := by
  unfold State.transmit
  split
  · exact .refl ..
  next r _ =>
    have hp := lanesKept_setPort (s := s) (q := q) (r := r) (x := { s.port r with txCount := (s.port r).txCount + 1 }) rfl rfl rfl
    exact hp.trans ⟨rfl, rfl, rfl, rfl, rfl, rfl⟩

theorem lanesKept_setFlow (s : State) (f : Nat) (x : FlowSt) : LanesKept s (s.setFlow f x) q := ⟨rfl, rfl, rfl, rfl, rfl, rfl⟩

theorem lanesKept_bumpPair (s : State) {lo : Nat} (n : Nat) (h : ¬ pairAt lo (pgFab q + oEvt)) : LanesKept s (s.bumpPair lo n) q :=
  lanesKept_of_logged (logged_bumpPair ..) (kept_bumpPair s lo n) h (logged_bumpPair ..).degraded

theorem lanesKept_resend (s : State) (f : Nat) (r : Retained) (counted : Bool) : LanesKept s (s.resend f r counted) q := by
  refine ((lanesKept_setFlow s f _).trans (lanesKept_bumpPair _ 1 ?_)).trans (lanesKept_transmit ..)
  unfold pairAt Reg.igsResendLo pgFab oEvt
  omega

theorem lanesKept_resendPort (s : State) (r : Nat) : LanesKept s (s.resendPort r) q :=
  lanesKept_foldl (fun _ _ => lanesKept_foldl (fun _ _ => lanesKept_resend ..) _ _) _ _

theorem pgFab_evt_ne_brn (q : Nat) : ¬ eventRegs pgBrn (pgFab q + oEvt) := by
  unfold eventRegs pgBrn pgFab oEvt Reg.logPi Reg.logDrop
  omega

theorem lanesKept_raiseRepl (s : State) : LanesKept s s.raiseRepl q := by
  have hl : Logged ({ s with brn := { s.brn with replPending := false } } : State) s.raiseRepl := logged_raiseM ..
  refine LanesKept.trans (t := { s with brn := { s.brn with replPending := false } }) ⟨rfl, rfl, rfl, rfl, rfl, rfl⟩
    (lanesKept_of_logged hl ?_ (pgFab_evt_ne_brn q) hl.degraded)
  exact kept_raiseM (pg := ⟨.brn, 0, 0, pgBrn⟩) rfl rfl (by decide) _ _ _ _ _

theorem lanesKept_rsetRepl (s : State) (lsb wid v : Nat) : LanesKept s (s.rsetField Reg.brnRepl lsb wid v) q :=
  lanesKept_of_logged (logged_rset ..) (kept_rset s Reg.brnRepl _ (b := (· = Reg.brnRepl)) rfl)
    (fun h => by unfold Reg.brnRepl pgFab oEvt at h; omega) rfl

theorem lanesKept_replCheck (s : State) : LanesKept s s.replCheck q := by
  unfold State.replCheck
  split
  · exact .refl ..
  extract_lets new old u v
  split
  · exact lanesKept_rsetRepl ..
  · have hv : LanesKept s v q := (lanesKept_rsetRepl ..).trans (lanesKept_rsetRepl ..)
    clear_value v
    split
    · exact hv.trans ⟨rfl, rfl, rfl, rfl, rfl, rfl⟩
    · exact hv.trans (lanesKept_raiseRepl v)

end

/-! ### A lane that fails (R293) -/

theorem pageAt_fab {q : Nat} (hq : q < 64) : pageAt (pgFab q) = some ⟨.fab, q, 0, pgFab q⟩ := by
  have h1 : pgFab q / 0x1000 = 0x200 + q := by unfold pgFab; omega
  have h2 : (0x200 + q) * 0x1000 = pgFab q := by unfold pgFab; omega
  have h3 : ¬ 0x1000 ≤ 0x200 + q := by omega
  have h4 : 0x200 ≤ 0x200 + q ∧ 0x200 + q < 0x240 := by omega
  unfold pageAt
  dsimp only
  rw [h1, h2, if_neg h3, if_pos h4, Nat.add_sub_cancel_left]

/-- The lane of a port that has not used a spare: the port, the spare lane of its field, then 0x0501 and what sends again. -/
theorem failLane_spare {s : State} {lane q : Nat} (hlane : lane < 128) (hq : lane / 2 = q) (hs : (s.port q).spare = none)
    (hu : (s.port q).up = true) (hf : tget false s.fab.spareUsed (q / 16) = false) :
    ∃ u, u = s.setPort q { s.port q with up := false, retraining := true, spare := some (lane % 2) } ∧
      s.failLane lane = (((({ u with fab := { u.fab with spareUsed := tset false u.fab.spareUsed (q / 16) true } }
        : State).setDegraded.raiseM 0x0501 (pgFab q) q 0 lane).resendPort q).replCheck) := by
  have hport : s.lanePort lane = some q := by
    subst hq
    simp [State.lanePort, hlane, hs]
  refine ⟨_, rfl, ?_⟩
  unfold State.failLane
  simp only [hport, hu, hs, hf, hlane, Bool.not_true, Bool.false_and, Bool.false_eq_true, if_false, decide_true, Option.isNone_none,
    Bool.not_false, Bool.and_self, if_true]

theorem laneFailure_spare {s : State} {lane q : Nat} (hlane : lane < 128) (hq : lane / 2 = q) (hs : (s.port q).spare = none)
    (hu : (s.port q).up = true) (hf : tget false s.fab.spareUsed (q / 16) = false) :
    (s.failLane lane).evtSet (pgFab q) 0 = true ∧ (s.failLane lane).mgmt.degraded = true ∧ ((s.failLane lane).port q).up = false ∧
      ((s.failLane lane).port q).retraining = true ∧ ((s.failLane lane).port q).spare = some (lane % 2) ∧
      tget false (s.failLane lane).fab.spareUsed (q / 16) = true := by
  obtain ⟨u, hu', he⟩ := failLane_spare hlane hq hs hu hf
  have hport : u.port q = { s.port q with up := false, retraining := true, spare := some (lane % 2) } := by rw [hu', port_setPort_self]
  let w : State := State.setDegraded { u with fab := { u.fab with spareUsed := tset false u.fab.spareUsed (q / 16) true } }
  obtain ⟨hl, -, hset⟩ : Raised w (w.raiseM 0x0501 (pgFab q) q 0 lane) (pgFab q) 0 :=
    raised_raiseM (pageAt_fab (by omega)) rfl rfl (by unfold pgFab; omega) ..
  have hk : LanesKept (w.raiseM 0x0501 (pgFab q) q 0 lane) (s.failLane lane) q := by
    rw [he]
    exact (lanesKept_resendPort ..).trans (lanesKept_replCheck ..)
  have hp : (w.raiseM 0x0501 (pgFab q) q 0 lane).port q = u.port q := by unfold State.port; rw [hl.fab]; rfl
  refine ⟨?_, ?_, ?_, ?_, ?_, ?_⟩
  · unfold State.evtSet State.rbit at *
    rwa [hk.evt]
  · rw [hk.degraded, hl.degraded]; rfl
  · rw [hk.up, hp, hport]
  · rw [hk.retraining, hp, hport]
  · rw [hk.spare, hp, hport]
  · rw [hk.used, hl.fab]
    simp only [w, State.setDegraded, tget_tset_self]

/-! ### The other commands of a port (R294 to R296, R308) -/

theorem rfield_fecBumped (s : State) (q corr uncorr : Nat) :
    ((s.bumpPair (Reg.fabFecCorrLo q) corr).bump (Reg.fabFecUncorr q) uncorr).rfield (Reg.fabLaneThresh q) 0 16 =
      s.rfield (Reg.fabLaneThresh q) 0 16 := by
  have h : ((s.bumpPair (Reg.fabFecCorrLo q) corr).bump (Reg.fabFecUncorr q) uncorr).rget (Reg.fabLaneThresh q) =
      s.rget (Reg.fabLaneThresh q) := by
    refine ((kept_bump _ _ _ (b := (· = Reg.fabFecUncorr q)) rfl) _ ?_).trans (kept_bumpPair _ _ _ _ ?_)
    · unfold Reg.fabLaneThresh Reg.fabFecUncorr; omega
    · unfold pairAt Reg.fabLaneThresh Reg.fabFecCorrLo; omega
  unfold State.rfield
  rw [h]

theorem exec_laneFecCheck_of_port {s : State} {lane : Fin 132} {q : Nat} (h : s.lanePort lane = some q) (uncorr corr : Nat) :
    exec (.laneFecCheck lane uncorr corr) s = .next (if s.rfield (Reg.fabLaneThresh q) 0 16 < uncorr then
      ((s.bumpPair (Reg.fabFecCorrLo q) corr).bump (Reg.fabFecUncorr q) uncorr).failLane lane.val
      else (s.bumpPair (Reg.fabFecCorrLo q) corr).bump (Reg.fabFecUncorr q) uncorr) := by
  rw [exec, execLaneFecCheck, h]
  simp only [rfield_fecBumped]

/-- Settles O42: the failure of a lane by what is kept behind its event, the rest by the command's own condition. -/
theorem lanesAndPorts : Obligations.LanesAndPorts := by
  unfold Obligations.LanesAndPorts
  refine fun s q => ⟨fun lane hl hq hs hu hf => ⟨_, rfl, laneFailure_spare hl hq hs hu hf⟩, fun lane uncorr corr hp hle => ?_,
    fun lane uncorr corr hp hlt => ?_, fun hr => ⟨_, congrArg Host.Outcome.next (if_pos hr), ?_⟩, fun llr hd hb hu hr => ?_,
    fun a hu ha => congrArg Host.Outcome.next (if_pos (by rw [hu, ha]; rfl)),
    fun a hu ha => congrArg Host.Outcome.next (if_pos (by rw [hu, ha]; rfl)), fun tc pause hu hb => ?_⟩
  · rw [exec_laneFecCheck_of_port hp, if_neg (Nat.not_lt.2 hle)]
  · rw [exec_laneFecCheck_of_port hp, if_pos hlt]; rfl
  · exact raised_raiseM (pageAt_fab q.isLt) rfl rfl (by unfold pgFab; omega) ..
  · have hdev : s.mgmt.dev ≠ .boot := by rcases hd with hd | hd <;> simp [hd]
    have hboot : ∀ x, (s.setPort q x).bootPorts = s.setPort q x := fun x =>
      if_neg (by simp [hdev])
    rw [exec, execPortLinkUp]
    rcases hd with hd | hd <;> simp [hd, hb, hu, hr, hboot]
  · refine ⟨if pause then (s.port q).paused ||| BitVec.ofNat 8 (2 ^ tc.val) else (s.port q).paused &&& ~~~BitVec.ofNat 8 (2 ^ tc.val),
      ?_, ?_, fun k hk => ?_⟩
    · rw [exec, execPfcPauseFrame]
      simp only [hu, hb, Bool.not_true, Bool.or_self, Bool.false_eq_true, if_false]
    · have hbit : (BitVec.ofNat 8 (2 ^ tc.val)).getLsbD tc.val = true := by
        simp only [BitVec.getLsbD_ofNat, Nat.testBit_two_pow_self, Bool.and_true, decide_eq_true_eq]
        omega
      cases pause <;> simp only [Bool.false_eq_true, if_true, if_false, BitVec.getLsbD_or, BitVec.getLsbD_and, BitVec.getLsbD_not, hbit,
        Bool.not_true, Bool.and_false, Bool.or_true]
    · have hbit : (BitVec.ofNat 8 (2 ^ tc.val)).getLsbD k = false := by
        simp only [BitVec.getLsbD_ofNat, Nat.testBit_two_pow, Ne.symm hk, decide_false, Bool.and_false]
      cases pause
      · simp only [Bool.false_eq_true, if_false, BitVec.getLsbD_and, BitVec.getLsbD_not, hbit, Bool.not_false, Bool.and_true]
        by_cases h8 : k < 8
        · simp only [h8, decide_true, Bool.and_true]
        · rw [BitVec.getLsbD_of_ge _ _ (Nat.not_lt.1 h8), Bool.false_and]
      · simp only [if_true, BitVec.getLsbD_or, hbit, Bool.or_false]

end Sys2Proof.Machine
end

section
/-!
PROOFS. The commands of the ring that take effect with their completion (R66, R444, R410, R438, R451, R458).
-/

namespace Sys2Proof.Machine

open Sys2Proof

/-- A change of the ring beside its completions, and of the management beside what it sends, can as well stand before a completion. -/
theorem reply_changed (s : State) (c : CmdRef) (phase status : Nat) (result : DWord) (x : RingSt) (y : MgmtSt)
    (hh : x.held = s.ring.held) (hw : x.written = s.ring.written) (ho : y.out = s.mgmt.out) :
    ({ s with ring := x, mgmt := y } : State).reply c phase status result = { s.reply c phase status result with
      ring := { x with
        written := (s.reply c phase status result).ring.written, held := (s.reply c phase status result).ring.held }
      mgmt := { y with out := (s.reply c phase status result).mgmt.out } } := by
  simp only [State.reply, State.pushCpl, hh, show ({ s with ring := x, mgmt := y } : State).cplRoom = s.cplRoom from rfl]
  split
  · simp only [State.cplWrite, State.send, State.rset, State.rget, State.cplSize, State.rfield, hh, hw, ho]
  · simp only [hw, ← ho]

/-- Eight bytes of an entry, as a doubleword. -/
theorem blk_lt (b : List Byte) (o n : Nat) : blk b o n < 256 ^ n := by
  unfold blk
  have key : ∀ l : List Byte, leNat l < 256 ^ l.length := by
    intro l
    induction l with
    | nil => simp [leNat]
    | cons x xs ih =>
      have := x.isLt
      simp only [leNat, List.length_cons, pow_succ]
      omega
  refine lt_of_lt_of_le (key _) (Nat.pow_le_pow_right (by norm_num) ?_)
  simp

theorem toNat_blk8 (b : List Byte) (o : Nat) : (BitVec.ofNat 64 (blk b o 8)).toNat = blk b o 8 := by
  rw [BitVec.toNat_ofNat, Nat.mod_eq_of_lt (lt_of_lt_of_eq (blk_lt b o 8) (by norm_num))]

theorem fwFault_reply (s : State) (c : CmdRef) (phase status : Nat) (result : DWord) (image : List Byte) :
    (s.reply c phase status result).fwFault image = s.fwFault image := by
  unfold State.fwFault
  rw [reply_fuses]

/-- STANDBY is entered at once where no transfer runs, and waits for them where some do. -/
theorem cmdStandby_eq {s : State} (e : RingEntry) (ok : Nat) (h : s.mgmt.dev = .ready) :
    s.cmdStandby e ok = ({ s with ring := { s.ring with
      standbyWait := !s.ring.stages.isEmpty, standbyEntry := s.ring.standbyEntry || s.ring.stages.isEmpty } } : State).reply
        (entRef e) 0 ok 0 := by
  unfold State.cmdStandby State.enterStandby
  rw [reply_changed s _ _ _ _ { s.ring with standbyWait := true } s.mgmt rfl rfl rfl,
    reply_changed s _ _ _ _ { s.ring with
      standbyWait := !s.ring.stages.isEmpty, standbyEntry := s.ring.standbyEntry || s.ring.stages.isEmpty } s.mgmt rfl rfl rfl]
  cases hst : s.ring.stages.isEmpty <;> simp [h]

/-- Settles O30: each entry is taken, and its own command carried out. -/
theorem ringCommands : Obligations.RingCommands := by
  unfold Obligations.RingCommands
  intro s e ok
  refine ⟨fun h hl hu => ?_, fun h ho => ?_, fun h r pg hf => ?_, fun h h1 h2 h3 h4 => ?_, fun h => ?_, fun h h1 h2 h3 => ?_,
    ?_, fun h => ?_, fun h hf => ?_, fun h => ?_, fun h => ?_⟩
  · rw [show exec (.setCap e) s = .next (s.applyNow 0x03 e) from rfl, applyNow_eq h]
    simp only [State.carryOut, State.cmdSetCap]
    rw [if_neg (by omega)]
  · rw [show exec (.setCap e) s = .next (s.applyNow 0x03 e) from rfl, applyNow_eq h]
    simp only [State.carryOut, State.cmdSetCap]
    rw [if_pos ho]
    rfl
  · rw [show exec (.setSetting e) s = .next (s.applyNow 0x04 e) from rfl, applyNow_eq h]
    simp only [State.carryOut, State.cmdSetSetting, hf]
    rfl
  · rw [show exec (.epoch e) s = .next (s.applyNow 0x05 e) from rfl, applyNow_eq h]
    simp only [State.carryOut, State.cmdEpoch, show ∀ n, wOf n = BitVec.ofNat 32 n from fun _ => rfl, h1, h2, h4]
    rw [if_neg (by simp), if_neg (by omega), if_neg (by simp)]
  · rw [show exec (.unseal e) s = .next (s.applyNow 0x08 e) from rfl, applyNow_eq h]
    rfl
  · rw [show exec (.retrain e) s = .next (s.applyNow 0x09 e) from rfl, applyNow_eq h]
    simp only [State.carryOut, State.cmdRetrain]
    rw [if_neg (by simp [h2]; omega)]
  · intro h p j u hp hj hr
    rw [show exec (.burnishRun e) s = .next (s.applyNow 0x0A e) from rfl, applyNow_eq h]
    simp only [State.carryOut, State.cmdBurnish]
    rw [if_neg (not_or.2 ⟨by omega, by simpa [p, or_iff_not_imp_left] using hr⟩), if_neg (Nat.not_le.2 hj)]
    simp [State.startTest, State.setRoleKind, State.setRole, State.roleOf, u, ok, p, j]
  · have hd : s.mgmt.dev = .ready := by
      obtain ⟨-, -, ho, -, ha, -⟩ := h
      simpa [State.accepts, ho] using ha
    rw [show exec (.standby e) s = .next (s.applyNow 0x0B e) from rfl, applyNow_eq h]
    exact congrArg _ (cmdStandby_eq e stOk hd)
  · rw [show exec (.fwUpdate e) s = .next (s.applyNow 0x0C e) from rfl, applyNow_eq h]
    simp only [State.carryOut, State.cmdFwUpdate, State.fwUpdate, fwFault_reply, hf]
    refine congrArg _ (.trans ?_ (reply_changed s _ _ _ _ { s.ring with fwWrite := s.ring.fwWrite ++
      [(e.refs.data.take (blk e.raw 24 4), some (entRef e))] } { s.mgmt with spiWpN := true } rfl rfl rfl).symm)
    obtain ⟨_, _, _, _, hr⟩ := reply_only s (entRef e) 0 stOk 0
    rw [hr]
  · rw [show exec (.svnAdvance e) s = .next (s.applyNow 0x0D e) from rfl, applyNow_eq h]
    exact ⟨_, rfl, raised_raiseM (pg := ⟨.mss, 0, 0, pgMss⟩) rfl rfl rfl rfl ..⟩
  · rw [show exec (.wallNote e) s = .next (s.applyNow 0x0E e) from rfl, applyNow_eq h]
    refine ⟨_, rfl, ?_⟩
    have hw : ({ s with mgmt := { s.mgmt with wall := s.mgmt.wall ++ [(BitVec.ofNat 64 (blk e.raw 16 8), s.mgmt.elapsed)] } } : State).reply
        (entRef e) 0 stOk 0 = { s.reply (entRef e) 0 stOk 0 with mgmt := { (s.reply (entRef e) 0 stOk 0).mgmt with
          wall := (s.reply (entRef e) 0 stOk 0).mgmt.wall ++
            [(BitVec.ofNat 64 (blk e.raw 16 8), (s.reply (entRef e) 0 stOk 0).mgmt.elapsed)] } } := by
      refine (reply_changed s _ _ _ _ s.ring
        { s.mgmt with wall := s.mgmt.wall ++ [(BitVec.ofNat 64 (blk e.raw 16 8), s.mgmt.elapsed)] } rfl rfl rfl).trans ?_
      obtain ⟨_, _, _, _, hr⟩ := reply_only s (entRef e) 0 stOk 0
      rw [hr]
    simp only [ok, hw, State.carryOut, State.cmdWallNote, State.noteWall, toNat_blk8]
    exact raised_raise (pg := ⟨.mss, 0, 0, pgMss⟩) rfl rfl rfl rfl rfl (fun c hc => by cases hc)

end Sys2Proof.Machine
end

section
/-!
PROOFS. Events without a bit, and the schedule of burnish (R390 to R394).
-/

namespace Sys2Proof.Machine

open Sys2Proof

theorem ring_hostLogRec (s : State) (r : EvtRec) : (s.hostLogRec r).mgmt.ring = s.mgmt.ring := by
  unfold State.hostLogRec
  repeat' split
  all_goals rfl

theorem ring_logRec (s : State) (r : EvtRec) : (s.logRec r false).mgmt.ring = pushMax 8192 s.mgmt.ring r := by
  have h (n : Nat) (t : State) : (if sevStep ≤ r.sev then
      { t with mgmt := { t.mgmt with nor := { t.mgmt.nor with log := pushMax n t.mgmt.nor.log r } } } else t).mgmt.ring = t.mgmt.ring := by
    split <;> rfl
  unfold State.logRec
  refine (h _ _).trans ?_
  generalize pushMax 8192 s.mgmt.ring r = x
  rw [Bool.not_false, Bool.true_or, if_pos rfl]
  exact ring_hostLogRec _ r

theorem mgmt_stepMark (s : State) (e : Ev) : (s.stepMark e).mgmt = s.mgmt := by
  unfold State.stepMark
  repeat' split
  all_goals rfl

/-- An event that has no bit of its own is not masked: its record enters the log. -/
theorem noted_raise {s : State} {e : Ev} {pg : Page} {page : Nat} (he : e.page = page) (hp : pageAt page = some pg)
    (hk : evtBit pg e.code e.sev = none) (hb : pg.base = page) (h0 : page % 0x1000 = 0) (hc : ∀ c ∈ e.caps, c.1 < 0x1000)
    (hq : e.quiet = false) : Noted s (s.raise e) page e.code := by
  subst he
  refine ⟨logged_raise _ _, kept_raise _ _ hp hb h0 hc, ?_⟩
  simp only [State.raise, hp, hk, hq, Bool.false_eq_true, if_false]
  set u : State := (if pg.blk = Blk.me ∧ e.code ≠ 257 then s else s.bump (pg.base + oEvtCnt) e.tally).stepMark e with hu
  have hm : u.mgmt = s.mgmt := by
    rw [hu, mgmt_stepMark]
    split <;> rfl
  rw [ring_logRec, hm]
  exact ⟨_, rfl, rfl⟩

theorem noted_raiseM {page code : Nat} {pg : Page} (hp : pageAt page = some pg) (hk : evtBit pg code (sevOf code) = none)
    (hb : pg.base = page) (h0 : page % 0x1000 = 0) (s : State) (low waiter detail : Nat) :
    Noted s (s.raiseM code page low waiter detail) page code :=
  noted_raise (e := ev code page (s.objM low) waiter detail) rfl hp hk hb h0 (fun _ h => by cases h) rfl

/-- The version that a new image must pass: that of the image installed and not yet taken, or else of the one in use. -/
theorem installPacks_eq (s : State) (image : List Byte) : s.installPacks image =
    if rsaVerify (signedBody image) (signatureOf image) &&
      decide ((s.brn.nextPacks.map (·.version)).getD s.brn.packs.version < (parsePacks image).version) &&
      decide (1 ≤ (parsePacks image).packs.length ∧ (parsePacks image).packs.length ≤ 32) && decide (1408 ≤ image.length) then
      { s with brn := { s.brn with nextPacks := some (parsePacks image) } }
    else s.raiseM 0x0624 pgBrn 0 0 (parsePacks image).version := by
  cases h : s.brn.nextPacks <;> simp only [State.installPacks, h, Option.map, Option.getD]

/-- Settles O35: each command of the schedule does the one thing of its rule. -/
theorem burnishSchedule : Obligations.BurnishSchedule := by
  unfold Obligations.BurnishSchedule
  refine fun s p => ⟨fun hr hd ht => ?_, fun hd ho => ?_, rfl, fun f => ⟨_, rfl, by simp, fun k => by simp⟩, ?_⟩
  · rw [exec, execBurnishDue]
    refine congrArg _ (if_pos ?_)
    simpa [hd] using ⟨hr, ht⟩
  · rw [exec, execDeferMaxExpiry, if_pos (by simp [hd, ho])]
    exact ⟨_, rfl, noted_raiseM (pg := ⟨.brn, 0, 0, pgBrn⟩) rfl rfl rfl rfl _ _ _ _⟩
  · intro image hdev new old ok
    have he : exec (.packImageInstall image) s = .next (s.installPacks image) := by
      rcases hdev with h | h | h | h <;> rw [exec, execPackImageInstall, h]
    have hok : (rsaVerify (signedBody image) (signatureOf image) && decide (old < new.version) &&
        decide (1 ≤ new.packs.length ∧ new.packs.length ≤ 32) && decide (1408 ≤ image.length)) = true ↔ ok := by
      simp [ok, and_assoc]
    rw [he, installPacks_eq]
    exact ⟨fun h => congrArg _ (if_pos (hok.2 h)), fun h => ⟨_, congrArg _ (if_neg (mt hok.1 h)),
      noted_raiseM (pg := ⟨.brn, 0, 0, pgBrn⟩) rfl rfl rfl rfl _ _ _ _⟩⟩

end Sys2Proof.Machine
end

section
/-!
PROOFS. What the memory's own work can change, and the entries that fetch, STAGE and the firmware's writer serve (R64 to R66, R444, R451).
-/

namespace Sys2Proof.Machine

open Sys2Proof

/-- The registers of the endpoint's, the management's and the security's pages, which no memory fault is told in. -/
def BeyondSec (o : Nat) : Prop := 0x3000 ≤ o

/-- The memory's own work changes the memory and the free values, and tells of faults. -/
structure MemWork (s t : State) : Prop where
  logged : Logged { s with mem := t.mem, free := t.free } t
  regs : RegsKept s t BeyondSec

theorem MemWork.refl (s : State) : MemWork s s := ⟨Logged.refl s, fun _ _ => rfl⟩

theorem MemWork.of_logged {s t : State} (h : Logged s t) (hr : RegsKept s t BeyondSec) : MemWork s t := by
  obtain ⟨_, _, _, _, _, _, _, _, _, rfl⟩ := h
  exact ⟨⟨_, _, _, _, _, _, _, _, _, rfl⟩, hr⟩

theorem MemWork.trans {s t u : State} (h : MemWork s t) (k : MemWork t u) : MemWork s u := by
  obtain ⟨⟨_, _, _, _, _, _, _, _, _, ht⟩, hr⟩ := h
  obtain ⟨⟨_, _, _, _, _, _, _, _, _, hu⟩, kr⟩ := k
  rw [ht] at hu
  exact ⟨⟨_, _, _, _, _, _, _, _, _, hu⟩, hr.trans kr⟩

theorem memWork_mem (s : State) (m : MemSt) : MemWork s { s with mem := m } := ⟨Logged.refl _, fun _ _ => rfl⟩

theorem memWork_setPc (s : State) (p : Nat) (x : PcSt) : MemWork s (s.setPc p x) := memWork_mem s _

theorem memWork_setChan (s : State) (l : Nat) (x : Chan) : MemWork s (s.setChan l x) := memWork_mem s _

theorem memWork_free (s : State) (n : Nat) : MemWork s { s with free := n } := ⟨Logged.refl _, fun _ _ => rfl⟩

theorem beyondSec_eventRegs {page : Nat} (hp : 0x3000 ≤ page) (o : Nat) (h : eventRegs page o) : BeyondSec o := by
  unfold BeyondSec
  obtain h | h | h := h
  · omega
  · rw [h]; decide
  · rw [h]; decide

theorem memWork_raise {e : Ev} {pg : Page} {page : Nat} (he : e.page = page) (hp : pageAt page = some pg) (hb : pg.base = page)
    (h0 : page % 0x1000 = 0) (h : 0x3000 ≤ page) (hc : ∀ c ∈ e.caps, c.1 < 0x1000) (s : State) : MemWork s (s.raise e) := by
  subst he
  exact .of_logged (logged_raise s e) ((kept_raise s e hp hb h0 hc).mono (d := BeyondSec) (beyondSec_eventRegs h))

theorem memWork_rset (s : State) {o : Nat} (h : 0x3000 ≤ o) (v : Word) : MemWork s (s.rset o v) :=
  .of_logged (logged_rset s o v) (kept_rset s o v h)

theorem memWork_once (s : State) (key : Nat × Nat) : MemWork s (s.once key).2 :=
  .of_logged (logged_once s key) (by unfold State.once; split <;> exact fun _ _ => rfl)

theorem MemWork.ring {s t : State} (h : MemWork s t) : t.ring = s.ring := by
  obtain ⟨⟨_, _, _, _, _, _, _, _, _, ht⟩, -⟩ := h
  rw [ht]

theorem memWork_foldl {α : Type} (f : State → α → State) (hf : ∀ s x, MemWork s (f s x)) (l : List α) (s : State) :
    MemWork s (l.foldl f s) := by
  induction l generalizing s with
  | nil => exact .refl s
  | cons x xs ih => exact (hf s x).trans (ih _)

theorem memWork_raiseOnce {e : Ev} {pg : Page} {page : Nat} (he : e.page = page) (hp : pageAt page = some pg) (hb : pg.base = page)
    (h0 : page % 0x1000 = 0) (h : 0x3000 ≤ page) (hc : ∀ c ∈ e.caps, c.1 < 0x1000) (s : State) (key : Nat) :
    MemWork s (s.raiseOnce e key) :=
  (memWork_once s (e.code, key)).trans (memWork_raise (e := { e with quiet := (s.once (e.code, key)).1 }) he hp hb h0 h hc _)

/-- An event of the memory's own page. -/
theorem memWork_raiseHbm (code low waiter detail : Nat) (s : State) : MemWork s (s.raiseM code (pgHbm 0) low waiter detail) :=
  memWork_raise (page := pgHbm 0) (pg := ⟨.hbm, 0, 0, pgHbm 0⟩) rfl rfl rfl rfl (by decide) (fun _ h => by cases h) s

theorem memWork_memFail (s : State) (correct : Bool) (kind p l a : Nat) (who : Reader) (syn : Word) :
    MemWork s (s.memFail correct kind p l a who syn) :=
  (memWork_setPc s _ _).trans (memWork_raiseOnce (page := pgHbm 0) (pg := ⟨.hbm, 0, 0, pgHbm 0⟩) rfl rfl rfl rfl (by decide)
    (by simp [State.readCaps]) _ _)

theorem memWork_stackFail (s : State) (p l a : Nat) : MemWork s (s.stackFail p l a) :=
  memWork_raiseHbm ..

theorem memWork_countCe (s : State) (p : Nat) : MemWork s (s.countCe p) := by
  unfold State.countCe
  extract_lets c n u th
  have hu : MemWork s u := memWork_setPc s _ _
  split
  · exact hu
  · dsimp only
    split
    · refine hu.trans (.trans ?_ (memWork_raiseHbm ..))
      split
      · exact memWork_setChan _ _ _
      · exact .refl _
    · exact hu

theorem memWork_cwRead (s : State) (l off a : Nat) (err : List (Nat × Byte)) (who : Reader) :
    MemWork s (s.cwRead l off a err who).2.2 := by
  unfold State.cwRead
  dsimp only
  split
  · exact .refl s
  · exact memWork_countCe s _
  · exact memWork_memFail ..
  · exact (memWork_free s _).trans (memWork_memFail ..)
  · exact memWork_memFail ..
  · exact memWork_stackFail ..
  · exact memWork_free s _

theorem memWork_blkNote (s : State) (k a : Nat) (outs : List ReadOut) : MemWork s (s.blkNote k a outs) := by
  unfold State.blkNote
  extract_lets ce ue w u v x cap
  have hw : 0x3000 ≤ w := by unfold w Reg.blkChStat; omega
  have hv : MemWork s v := .trans (t := u) (memWork_rset s hw _) (memWork_rset u hw _)
  have hx : MemWork s x := by
    refine hv.trans ?_
    unfold x
    split
    · exact memWork_free v _
    · exact .refl v
  split
  · exact hx
  · exact hx.trans (memWork_raise (page := pgBlk) (pg := ⟨.blk, 0, 0, pgBlk⟩) rfl rfl rfl rfl (by decide) (by simp) _)

theorem memWork_peekNote (s : State) (bulk : Bool) (a n : Nat) : MemWork s (s.peekNote bulk a n) := by
  unfold State.peekNote
  refine memWork_foldl _ (fun u x => ?_) _ s
  dsimp only
  split
  · exact memWork_blkNote ..
  · exact memWork_cwRead ..

theorem memWork_cwWrite (s : State) (l off a : Nat) (bs : List Byte) (bad : Bool) : MemWork s (s.cwWrite l off a bs bad) := by
  unfold State.cwWrite
  dsimp only
  split
  · exact .refl s
  · exact memWork_mem s _

theorem memWork_blkWrite (s : State) (k off a : Nat) (bs : List Byte) : MemWork s (s.blkWrite k off a bs) := by
  unfold State.blkWrite
  split
  · exact .refl s
  · exact memWork_mem s _

theorem memWork_pokeCw (s : State) (bulk : Bool) (a : Nat) (bs : List Byte) : MemWork s (s.pokeCw bulk a bs) := by
  unfold State.pokeCw
  dsimp only
  split
  · split
    · exact .refl s
    · exact memWork_blkWrite ..
  · exact memWork_cwWrite ..

theorem memWork_pokeMem (n : Nat) (s : State) (bulk : Bool) (a : Nat) (bs : List Byte) : MemWork s (s.pokeMem bulk a n bs) := by
  induction n generalizing s a bs with
  | zero => exact .refl s
  | succ n ih =>
    unfold State.pokeMem
    split
    · exact .refl s
    · exact (memWork_pokeCw ..).trans (ih ..)

theorem memWork_poke (s : State) (bulk : Bool) (a : Nat) (bs : List Byte) : MemWork s (s.poke bulk a bs) := memWork_pokeMem ..

/-! ### The window's targets (R441) -/

theorem ring_winNote (s : State) (target a n : Nat) : (s.winNote target a n).ring = s.ring := by
  unfold State.winNote
  split
  · exact (memWork_peekNote ..).ring
  · rfl

theorem ring_winWrite (s : State) (target core a : Nat) (bs : List Byte) : (s.winWrite target core a bs).ring = s.ring := by
  unfold State.winWrite
  dsimp only
  split
  · exact (memWork_poke ..).ring
  · exact (memWork_poke ..).ring
  · split <;> rfl
  · split <;> rfl
  all_goals rfl

/-! ### The end of a transfer -/

theorem ring_moveStage (s : State) (x : StageOp) (host : List Byte) : (s.moveStage x host).ring = s.ring := by
  unfold State.moveStage
  dsimp only
  split
  · exact ring_winWrite ..
  · exact ring_winNote ..

/-- The oldest transfer ends: its bytes are moved, it leaves the list, and its completion waits for the boundary. -/
theorem exec_stageComplete_head {s : State} {x : StageOp} {rest : List StageOp} (h : s.ring.stages = x :: rest) (data : List Byte) :
    exec (.stageComplete x.cmd.tag data) s = .next { s.moveStage x data with
      ring := { s.ring with stages := rest, ended := s.ring.ended ++ [⟨x.cmd, stOk, 0, false, false⟩] } } := by
  rw [exec, execStageComplete, h]
  simp only [List.find?_cons, beq_self_eq_true, State.endOp, ring_moveStage, h, List.erase_cons_head]

/-- An event can as well be raised after an operation has ended. -/
theorem Raised.endOp {s t : State} {page k : Nat} (h : Raised s t page k) (cmd : Option CmdRef) (status : Nat) (result : DWord) :
    Raised (s.endOp cmd status result) (t.endOp cmd status result) page k := by
  cases cmd with
  | none => exact h
  | some c =>
    obtain ⟨⟨_, _, _, _, _, _, _, _, _, rfl⟩, hk, hs⟩ := h
    exact ⟨⟨_, _, _, _, _, _, _, _, _, rfl⟩, hk, hs⟩

/-- Settles O34: the arrival, the entry, the two directions of a transfer, and the image that is written. -/
theorem fetchStageFirmware : Obligations.FetchStageFirmware := by
  unfold Obligations.FetchStageFirmware
  refine fun s e => ⟨fun h => ?_, ?_, fun x rest data h hd => ?_, fun x rest data h hd => ?_, fun image cmd rest h => ?_⟩
  · rw [exec, execCommandFetchArrival, h]
    rfl
  · intro h hdir w a n hx hc hn hs x
    rw [show exec (.stage e) s = .next (s.applyNow 0x07 e) from rfl, applyNow_eq h]
    simp only [State.carryOut, State.cmdStage]
    rw [if_neg (by omega), if_neg, if_neg]
    · rfl
    · rintro (ho | ⟨h1, h2⟩)
      · exact absurd hn (Nat.not_le.2 ho)
      · exact absurd (hs h1) (by rw [show s.sealedSpan (selTarget w) a n = true from h2]; decide)
    · rintro (ho | ⟨h1, h2⟩)
      · exact hx ho
      · exact absurd (hc h1) (by rw [Bool.not_eq_true']  at h2; exact Bool.eq_false_iff.1 h2)
  · rw [exec_stageComplete_head h, State.moveStage, hd]
    rfl
  · rw [exec_stageComplete_head h, State.moveStage, hd]
    rfl
  · rw [exec, execFirmwareWriteComplete, h]
    refine ⟨_, rfl, ?_⟩
    exact (raised_raiseM (pg := ⟨.mss, 0, 0, pgMss⟩) rfl rfl rfl rfl _ _ _ _).endOp _ _ _

end Sys2Proof.Machine
end

section
/-!
PROOFS. The BAR2 window (R441, R442, R452, R367).
-/

namespace Sys2Proof.Machine

open Sys2Proof

/-! ### What the window shows -/

theorem length_flipBytes (bs : List Byte) (err : List (Nat × Byte)) : (flipBytes bs err).length = bs.length := by simp [flipBytes]

theorem length_decodeRead (correct : Bool) (data side : List Byte) (cw : Nat) (err : List (Nat × Byte)) :
    (decodeRead correct data side cw err).1.length = data.length := by
  unfold decodeRead
  dsimp only
  repeat' split
  all_goals simp only [length_flipBytes]

theorem length_readMarked (m : CwMark) (correct : Bool) (data : List Byte) (a : Nat) (err : List (Nat × Byte)) :
    (readMarked m correct data a err).1.length = data.length := by
  unfold readMarked
  dsimp only
  repeat' split
  all_goals simp only [length_flipBytes, length_decodeRead]

theorem length_freeWords (n : Nat) : ((List.range 8).flatMap (fun i => freeBytes (n + i))).length = 64 := by
  simp [List.length_flatMap, freeBytes]

theorem length_cwData (s : State) (l k : Nat) : (s.cwData l k).length = 64 := by
  unfold State.cwData
  dsimp only
  split
  · exact length_freeWords _
  · simp

theorem length_lookAt (s : State) (bulk : Bool) (a : Nat) : (s.lookAt bulk a).1.length = 64 := by
  unfold State.lookAt
  dsimp only
  split
  · unfold State.blkLook
    split
    · exact length_freeWords _
    · simp [length_readMarked]
  · unfold State.cwLook
    dsimp only
    repeat' split
    · exact length_freeWords _
    · simp
    · simp
    · simp [length_flipBytes, length_cwData]
    · simp [length_readMarked, length_cwData]

theorem length_peekMem (s : State) (bulk : Bool) (a n : Nat) : (s.peekMem bulk a n).length = n := by
  have h : ((cwSpan a n).flatMap (fun x => (s.lookAt bulk x).1)).length = 64 * (cwSpan a n).length := by
    simp [List.length_flatMap, length_lookAt, mul_comm]
  rw [State.peekMem, List.length_take, List.length_drop, h, cwSpan]
  split
  · simp [*]
  · simp only [List.length_map, List.length_range]
    omega

theorem length_winRead (s : State) (t c a n : Nat) : (s.winRead t c a n).length = n := by
  unfold State.winRead
  split
  · simp only [List.length_append, length_peekMem, List.length_replicate]
    omega
  · simp

/-- A byte of a span that meets no seal meets none. -/
theorem sealMet_byte {s : State} {t a n k : Nat} (h : s.sealMet t a n = none) (hk : k < n) : s.sealMet t (a + k) 1 = none := by
  unfold State.sealMet at *
  rw [List.find?_eq_none] at *
  intro x hx hm
  refine h x hx ?_
  simp only [Bool.and_eq_true, decide_eq_true_eq] at *
  obtain ⟨⟨ht, hb⟩, h1, h2⟩ := hm
  exact ⟨⟨ht, hb⟩, by omega, by omega⟩

/-- A sealed byte of a span that a seal was found for meets one. -/
theorem sealMet_isSome {s : State} {t a n k : Nat} {x : Seal} (h : s.sealMet t a n = some x) (h1 : x.first ≤ a + k)
    (h2 : a + k < x.first + x.len) : (s.sealMet t (a + k) 1).isSome = true := by
  unfold State.sealMet at *
  rw [List.find?_isSome]
  refine ⟨x, List.mem_of_find?_eq_some h, ?_⟩
  have hm := List.find?_some h
  simp only [Bool.and_eq_true, decide_eq_true_eq] at *
  obtain ⟨ht, -⟩ := hm
  exact ⟨ht, by omega, by omega⟩

theorem bar2Bytes_of_unsealed {s : State} {off len : Nat} (hp : s.pcieAnswers = true) (hd : s.mgmt.dev ≠ .recovery)
    (h : s.sealMet (selTarget s.bar2Sel) (selAddr s.bar2Sel off) len = none) :
    s.bar2Bytes off len = s.winRead (selTarget s.bar2Sel) (selCore s.bar2Sel) (selAddr s.bar2Sel off) len := by
  unfold State.bar2Bytes
  rw [hp, if_neg (by simp), if_neg hd]
  dsimp only
  refine List.ext_getElem (by simp) fun k h1 h2 => ?_
  rw [length_winRead] at h2
  simp [sealMet_byte h h2]

theorem bar2Bytes_of_sealed {s : State} {off len : Nat} (hp : s.pcieAnswers = true) (hd : s.mgmt.dev ≠ .recovery) :
    (s.bar2Bytes off len).length = len ∧ ∀ k < len, (s.sealMet (selTarget s.bar2Sel) (selAddr s.bar2Sel off + k) 1).isSome = true →
      (s.bar2Bytes off len)[k]? = some 0 := by
  unfold State.bar2Bytes
  rw [hp, if_neg (by simp), if_neg hd]
  dsimp only
  refine ⟨by simp [length_winRead], fun k hk hs => ?_⟩
  rw [List.getElem?_eq_getElem (by simpa [length_winRead] using hk)]
  simp [hs]

theorem memWork_winNote (s : State) (t a n : Nat) : MemWork s (s.winNote t a n) := by
  unfold State.winNote
  split
  · exact memWork_peekNote ..
  · exact .refl s

theorem winNote_core (s : State) (t a n : Nat) (h : 2 ≤ t) : s.winNote t a n = s := if_neg (by omega)

theorem MemWork.seals {s t : State} (h : MemWork s t) : t.load.seals = s.load.seals := by
  obtain ⟨⟨_, _, _, _, _, _, _, _, _, ht⟩, -⟩ := h
  rw [ht]

theorem MemWork.dev {s t : State} (h : MemWork s t) : t.mgmt.dev = s.mgmt.dev := by
  obtain ⟨⟨_, _, _, _, _, _, _, _, _, ht⟩, -⟩ := h
  rw [ht]

theorem sealMet_core (s : State) {t : Nat} (a n : Nat) (h : 2 ≤ t) : s.sealMet t a n = none := by
  unfold State.sealMet
  rw [List.find?_eq_none]
  intro x _
  simp
  omega

theorem exec_bar2Write_eq (s : State) {off : Nat} {data : List Byte} (h : off + data.length ≤ 0x10000000) :
    exec (.bar2Write off data) s = .next (s.bar2Write off data) := by
  rw [exec, execBar2Write, bar2Size, if_neg (Nat.not_lt.2 h)]

/-- A write in READY goes to the target that is selected, whole where the target holds all of it. -/
theorem bar2Write_ready {s : State} {off t : Nat} {data : List Byte} (hd : s.mgmt.dev = .ready) (ht : selTarget s.bar2Sel = t)
    (h : selAddr s.bar2Sel off + data.length ≤ s.extent t) :
    s.bar2Write off data = s.winWrite t (selCore s.bar2Sel) (selAddr s.bar2Sel off) data ∧
      data.take (s.extent t - selAddr s.bar2Sel off) = data := by
  subst ht
  exact ⟨by simp only [State.bar2Write, State.pcieAnswers, hd, Bool.not_true, Bool.false_eq_true, if_false],
    List.take_of_length_le (by omega)⟩

theorem exec_bar2Read_eq (s : State) {off len : Nat} (h : off + len ≤ 0x10000000) (hp : s.pcieAnswers = true) (hd : s.mgmt.dev ≠ .recovery) :
    exec (.bar2Read off len) s =
      let t := s.winNote (selTarget s.bar2Sel) (selAddr s.bar2Sel off) len
      let u := match s.sealMet (selTarget s.bar2Sel) (selAddr s.bar2Sel off) len with
        | none => t
        | some x => t.raiseLoad 0x0812 0 x.load (off % 2 ^ 32)
      .next { u with mgmt := { u.mgmt with readback := s.bar2Bytes off len } } := by
  have hn : s.bar2Note off len = s.winNote (selTarget s.bar2Sel) (selAddr s.bar2Sel off) len := if_neg (by simp [hp, hd])
  have hm := memWork_winNote s (selTarget s.bar2Sel) (selAddr s.bar2Sel off) len
  have hs : (s.winNote (selTarget s.bar2Sel) (selAddr s.bar2Sel off) len).bar2Sel = s.bar2Sel := hm.regs _ (by unfold BeyondSec; decide)
  have hd' := hm.dev
  have hl := hm.seals
  generalize s.winNote (selTarget s.bar2Sel) (selAddr s.bar2Sel off) len = t at *
  have hb : t.mgmt.bootStage = s.mgmt.bootStage := by
    obtain ⟨⟨_, _, _, _, _, _, _, _, _, ht⟩, -⟩ := hm
    rw [ht]
  have ha : t.pcieAnswers = true := by rw [← hp]; unfold State.pcieAnswers; rw [hd', hb]
  rw [exec, execBar2Read, bar2Size, if_neg (Nat.not_lt.2 h), hn]
  dsimp only
  unfold State.sealNote
  rw [if_neg (by simp [ha, hd', hd]), hs]
  simp only [State.sealMet, hl] <;> rfl

/-- A read that meets a seal tells of it, and gives zero for each sealed byte. -/
theorem bar2Read_of_sealed {s : State} {off len : Nat} {x : Seal} (h : off + len ≤ 0x10000000) (hp : s.pcieAnswers = true)
    (hd : s.mgmt.dev ≠ .recovery) (hx : s.sealMet (selTarget s.bar2Sel) (selAddr s.bar2Sel off) len = some x) :
    ∃ u, exec (.bar2Read off len) s = .next u ∧ u.evtSet (pgIgs 1) 1 = true ∧ u.mgmt.readback = s.bar2Bytes off len := by
  rw [exec_bar2Read_eq s h hp hd, hx]
  refine ⟨_, rfl, ?_, rfl⟩
  obtain ⟨-, -, hs⟩ := raised_raise (s := s.winNote (selTarget s.bar2Sel) (selAddr s.bar2Sel off) len)
    (e := ev 0x0812 (pgIgs 1) (State.objM _ (0 * 64)) x.load.toNat (off % 2 ^ 32)) (page := pgIgs 1) (pg := ⟨.igs, 0, 1, pgIgs 1⟩) (k := 1)
    rfl rfl rfl rfl rfl (fun c hc => by cases hc)
  exact hs

/-- Settles O51: writes by the state and the target, reads by the seal that the span meets first. -/
theorem bar2Window : Obligations.Bar2Window := by
  unfold Obligations.Bar2Window
  intro s off data w
  refine ⟨fun h => ?_, fun len h => ?_, fun h => ?_, fun len h hd => ?_⟩
  · rw [exec, execBar2Write, bar2Size, if_pos h]
  · rw [exec, execBar2Read, bar2Size, if_pos h]
  · rw [exec_bar2Write_eq s h]
    refine ⟨fun hd => ?_, fun hd => ?_, fun hd ht ha => ?_, fun hd ht hc ha => ?_, fun hd ht ha => ?_, fun hd ht ha => ?_⟩
    · simp [State.bar2Write, State.pcieAnswers, hd, recoverySize]
    · simp only [State.bar2Write, State.pcieAnswers, hd]
      exact ⟨_, rfl, raised_raiseM (pg := ⟨.mss, 0, 0, pgMss⟩) rfl rfl rfl rfl _ _ _ _⟩
    · have h2 : selTarget s.bar2Sel = 0 ∨ selTarget s.bar2Sel = 1 := Nat.le_one_iff_eq_zero_or_eq_one.1 ht
      obtain h2 | h2 := h2
      all_goals
        obtain ⟨hw, hb⟩ := bar2Write_ready (data := data) hd h2 (h2 ▸ ha)
        rw [hw]
        unfold State.winWrite
        rw [hb, show selTarget w = _ from h2]
        rfl
    · obtain ⟨hw, hb⟩ := bar2Write_ready (data := data) hd ht ha
      rw [hw]
      unfold State.winWrite
      rw [hb]
      exact congrArg _ (if_pos hc)
    · obtain ⟨hw, hb⟩ := bar2Write_ready (data := data) hd ht ha
      rw [hw]
      unfold State.winWrite
      rw [hb]
      rfl
    · obtain ⟨hw, hb⟩ := bar2Write_ready (data := data) hd ht ha
      rw [hw]
      unfold State.winWrite
      rw [hb]
      rfl
  · have hp : s.pcieAnswers = true := by simp [State.pcieAnswers, hd]
    have hr : s.mgmt.dev ≠ .recovery := by simp [hd]
    intro t
    refine ⟨fun hs => ?_, fun ht => ?_, fun x hs => ?_⟩
    · rw [exec_bar2Read_eq s h hp hr, show s.sealMet (selTarget s.bar2Sel) (selAddr s.bar2Sel off) len = none from hs,
        bar2Bytes_of_unsealed hp hr hs]
      rfl
    · have hs : s.sealMet (selTarget s.bar2Sel) (selAddr s.bar2Sel off) len = none := sealMet_core s _ _ ht
      rw [exec_bar2Read_eq s h hp hr, hs, bar2Bytes_of_unsealed hp hr hs]
      dsimp only
      rw [show s.winNote (selTarget s.bar2Sel) (selAddr s.bar2Sel off) len = s from winNote_core _ _ _ _ ht]
      rfl
    · obtain ⟨u, he, hev, hb⟩ := bar2Read_of_sealed h hp hr hs
      obtain ⟨hlen, hzero⟩ := bar2Bytes_of_sealed (off := off) (len := len) hp hr
      exact ⟨u, he, hev, by rw [hb, hlen], fun k hk h1 h2 => by rw [hb]; exact hzero k hk (sealMet_isSome hs h1 h2)⟩

end Sys2Proof.Machine
end

section
/-!
PROOFS. The power controller's commands and its step change (R400, R405 to R408, R416 to R423, R492).
-/

namespace Sys2Proof.Machine

open Sys2Proof

/-! ### What was sent stays sent when an event is raised -/

theorem out_hostLogRec (s : State) (r : EvtRec) : s.mgmt.out <+: (s.hostLogRec r).mgmt.out := by
  unfold State.hostLogRec
  repeat' split
  · exact List.prefix_append _ _
  · exact List.prefix_refl _
  · exact List.prefix_refl _

theorem out_logRec (s : State) (r : EvtRec) (masked : Bool) : s.mgmt.out <+: (s.logRec r masked).mgmt.out := by
  have h (n : Nat) (t : State) : (if sevStep ≤ r.sev then
      { t with mgmt := { t.mgmt with nor := { t.mgmt.nor with log := pushMax n t.mgmt.nor.log r } } } else t).mgmt.out = t.mgmt.out := by
    split <;> rfl
  have hx (x : List EvtRec) : s.mgmt.out <+: (State.hostLogRec { s with mgmt := { s.mgmt with ring := x } } r).mgmt.out :=
    out_hostLogRec { s with mgmt := { s.mgmt with ring := x } } r
  unfold State.logRec
  extract_lets keep m v u
  have hu : s.mgmt.out <+: u.mgmt.out := by
    unfold u
    split
    · exact hx _
    · exact List.prefix_refl _
  clear_value u
  exact hu.trans (by rw [h])

theorem mgmt_rsetList (f : Nat × Nat → Nat) (g : Nat × Nat → Word) (l : List (Nat × Nat)) (s : State) :
    (l.foldl (fun s c => s.rset (f c) (g c)) s).mgmt = s.mgmt := by
  induction l generalizing s with
  | nil => rfl
  | cons c l ih => exact ih _

theorem mgmt_setEvt (s : State) (pg : Page) (k : Nat) (caps : List (Nat × Nat)) : (s.setEvt pg k caps).mgmt = s.mgmt := by
  unfold State.setEvt
  dsimp only
  split
  · exact mgmt_rsetList _ _ _ _
  · rfl

theorem out_raise (s : State) (e : Ev) : s.mgmt.out <+: (s.raise e).mgmt.out := by
  unfold State.raise
  split
  · exact List.prefix_refl _
  · next pg _ =>
    extract_lets bit u v w masked
    have hu : u.mgmt = s.mgmt := by
      unfold u
      cases bit
      · rfl
      · exact mgmt_setEvt ..
    have hv : v.mgmt = s.mgmt := by
      rw [← hu]
      unfold v
      split <;> rfl
    rw [← hv]
    split
    · exact List.prefix_refl _
    · rw [← mgmt_stepMark v e]
      exact out_logRec ..

/-! ### The commands -/

theorem exec_slackCritical_of_runs {s : State} (f : Fin 4) (h : s.clockRuns = true) :
    exec (.slackCritical f) s =
      let v := ({ s with pwr := { s.pwr with stretch := { s.pwr.stretch with slack := true } } } : State).stretchOn
      let c : State := { v with pwr := { v.pwr with
        trim := tset 0 v.pwr.trim s.voltStep 0, trimHold := v.pwr.trimHold.filter (· != s.voltStep) ++ [s.voltStep] } }
      .next ((if s.pwr.rising then c else c.commandVolt s.voltStep).raiseM 0x0706 pgPwr (f.val * 2 ^ 17) 0 s.voltStep) := by
  rw [exec, execSlackCritical, h]
  rfl

/-- The voltage of a step whose trim is held back. -/
theorem commandVolt_of_hold {s : State} {k : Nat} (h : s.pwr.trimHold ≠ []) :
    s.commandVolt k = s.send (.avs (4 * s.fuses.vfuse.getD k 0)) := by
  unfold State.commandVolt State.trimNow
  rw [if_pos (.inr (.inr h))]
  rfl

/-- What is sent ahead of an event is among what the event may leave. -/
theorem Raised.of_send {s t : State} {m : OutMsg} {page k : Nat} (h : Raised (s.send m) t page k) : Raised s t page k := by
  obtain ⟨hl, hk, hs⟩ := h
  exact ⟨(logged_send s m).trans hl, hk, hs⟩

theorem stretchOff_eq (s : State) (h1 : s.pwr.stretch.droop = []) (h2 : s.pwr.stretch.slack = false) : s.stretchOff =
    { s with pwr := { s.pwr with stretching := s.pwr.stretching && (s.pwr.stretch.vrAlert || s.pwr.stretch.tj) } } := by
  unfold State.stretchOff
  simp only [h1, h2]
  cases s.pwr.stretch.vrAlert <;> cases s.pwr.stretch.tj <;> simp

theorem rfield_thmTjMax (s : State) (v : Word) : (s.rset Reg.thmTj v).rfield Reg.thmTjMax 0 8 = s.rfield Reg.thmTjMax 0 8 := by
  unfold State.rfield
  rw [rget_rset_ne _ _ (by decide)]

/-- The trim of step `k` that a window with least slack code `code` asks for (R421). -/
def State.annealed (s : State) (code : BitVec 6) : Nat :=
  if s.rfield Reg.pwrAnneal 0 6 ≤ code.toNat then min 24 (tget 0 s.pwr.trim s.pwr.k + 1)
  else if code.toNat < s.rfield Reg.pwrAnneal 8 6 then tget 0 s.pwr.trim s.pwr.k - 1 else tget 0 s.pwr.trim s.pwr.k

/-- The trim of the step moves, and the voltage follows. -/
def State.anneal (s : State) (new : Nat) (told : List Nat) : State :=
  ({ s with pwr := { s.pwr with trim := tset 0 s.pwr.trim s.pwr.k new, trimTold := told } } : State).send
    (.avs (4 * s.fuses.vfuse.getD s.pwr.k 0 - 10 * (if s.pwr.trimHold = [] then new else 0)))

theorem commandVolt_anneal {s : State} (new : Nat) (hdev : s.mgmt.dev = .ready ∨ s.mgmt.dev = .run ∨ s.mgmt.dev = .drain) :
    ({ s with pwr := { s.pwr with trim := tset 0 s.pwr.trim s.pwr.k new } } : State).commandVolt s.pwr.k =
      s.anneal new s.pwr.trimTold := by
  have hd : s.mgmt.dev ≠ .boot ∧ s.mgmt.dev ≠ .quarantine := by rcases hdev with h | h | h <;> rw [h] <;> decide
  simp only [State.commandVolt, State.anneal, State.trimNow, State.trimOf, tget_tset_self, hd.1, hd.2, false_or, ite_not]

/-- A window outside the states that keep trims, or without `PWR_CTL.ANNEAL`, or in the hold of the step, does nothing. -/
theorem exec_annealWindow_of_off {s : State} (code : BitVec 6) (h : ¬ ((s.mgmt.dev = .ready ∨ s.mgmt.dev = .run ∨ s.mgmt.dev = .drain) ∧
    s.rbit Reg.pwrCtl 7 = true ∧ s.pwr.k ∉ s.pwr.trimHold)) : exec (.annealWindow code) s = .next s := by
  rw [exec, execAnnealWindow]
  refine congrArg Host.Outcome.next (if_pos ?_)
  cases hb : s.rbit Reg.pwrCtl 7 <;> by_cases hk : s.pwr.k ∈ s.pwr.trimHold <;> cases hd : s.mgmt.dev <;> simp [hb, hk, hd] at h ⊢

theorem exec_annealWindow_of_on {s : State} (code : BitVec 6) (hdev : s.mgmt.dev = .ready ∨ s.mgmt.dev = .run ∨ s.mgmt.dev = .drain)
    (hb : s.rbit Reg.pwrCtl 7 = true) (hk : s.pwr.k ∉ s.pwr.trimHold) :
    exec (.annealWindow code) s = .next (
      if s.annealed code = tget 0 s.pwr.trim s.pwr.k then s
      else if s.annealed code = 24 ∧ s.pwr.k ∉ s.pwr.trimTold then
        (s.anneal (s.annealed code) (s.pwr.trimTold ++ [s.pwr.k])).raise
          { ev 0x0705 pgPwr (s.objM 0) 0 s.pwr.k with sev := sevInfo }
      else s.anneal (s.annealed code) s.pwr.trimTold) := by
  have hon : exec (.annealWindow code) s = .next (
      let v := ({ s with pwr := { s.pwr with trim := tset 0 s.pwr.trim s.pwr.k (s.annealed code) } } : State).commandVolt s.pwr.k
      if (!true || s.annealed code == s.trimOf s.pwr.k) = true then s
      else if s.annealed code = 24 ∧ (!v.pwr.trimTold.contains s.pwr.k) = true then
        ({ v with pwr := { v.pwr with trimTold := v.pwr.trimTold ++ [s.pwr.k] } } : State).raise
          { ev 0x0705 pgPwr (v.objM 0) 0 s.pwr.k with sev := sevInfo }
      else v) := by
    have hc : s.pwr.trimHold.contains s.pwr.k = false := by simp [hk]
    rw [exec, execAnnealWindow]
    rcases hdev with h | h | h
    all_goals
      rw [h]
      dsimp only
      rw [hb, hc]
      rfl
  rw [hon, commandVolt_anneal _ hdev]
  simp only [Bool.not_true, Bool.false_or, beq_iff_eq, Bool.not_eq_true', List.contains_eq_mem, decide_eq_false_iff_not]
  rfl

/-- Settles O48: each command by its own condition, its event by what an event leaves. -/
theorem powerEvents : Obligations.PowerEvents := by
  unfold Obligations.PowerEvents
  intro s hd
  refine ⟨fun a => congrArg _ (if_neg hd), fun mw ns => congrArg _ ((if_neg hd).trans (if_pos rfl)), fun mw ns w hw => ?_, ?_, fun h => ?_, fun h => ?_,
    fun f hc hs => ?_, fun b amps h => ?_, fun amps hc hs ht => ?_, ?_, fun f hc => ?_, fun code => ?_, ?_, fun tj f k => ?_,
    fun h => ?_, fun h => ?_, ?_⟩
  · exact ⟨_, raised_raiseM (page := pgPwr) (code := 0x0704) (k := 2) (pg := ⟨.pwr, 0, 0, pgPwr⟩) rfl rfl rfl rfl _ _ _ _,
      congrArg _ ((if_neg hd).trans (if_neg hw))⟩
  · exact ⟨_, raised_raiseM (page := pgPwr) (code := 0x0704) (k := 2) (pg := ⟨.pwr, 0, 0, pgPwr⟩) rfl rfl rfl rfl _ _ _ _,
      congrArg _ (if_neg hd)⟩
  · refine ⟨_, congrArg Host.Outcome.next (if_neg (by simp [h, hd])), ?_⟩
    exact raised_raise (page := pgPwr) (k := 4) (pg := ⟨.pwr, 0, 0, pgPwr⟩) rfl rfl rfl rfl rfl (fun c hc => by cases hc)
  · exact congrArg Host.Outcome.next (if_pos (by simp [h]))
  · rw [exec, execDroopDetect, hc]
    simp [State.setStretch, State.stretchOn, hs]
  · rw [exec, execVrAlertN]
    refine congrArg Host.Outcome.next (if_neg ?_)
    show ¬ (b && s.clockRuns) = true
    rcases h with h | h <;> simp [h]
  · refine ⟨_, congrArg Host.Outcome.next (if_pos (by rw [Bool.true_and]; exact hc)), ?_⟩
    simp only [State.vrWarn, State.stretchOn, State.setStretch, hs, if_true, ht, Bool.false_eq_true, if_false]
    exact raised_raiseM (pg := ⟨.pwr, 0, 0, pgPwr⟩) rfl rfl rfl rfl _ _ _ _
  · rw [exec, execStretchRelease, stretchOff_eq _ rfl rfl]
    rfl
  · intro v cleared
    have hhold : (cleared s.voltStep).pwr.trimHold ≠ [] := by simp [cleared]
    have hfuses : (cleared s.voltStep).fuses = s.fuses := by
      show State.fuses (State.stretchOn _) = _
      unfold State.stretchOn
      split <;> rfl
    rw [exec_slackCritical_of_runs f hc]
    refine ⟨fun hr => ?_, fun hr => ?_⟩
    · have hk : s.voltStep = s.pwr.k := by simp [State.voltStep, hr]
      rw [hr, ← hk]
      dsimp only
      rw [if_neg (by simp), commandVolt_of_hold (s := cleared s.voltStep) hhold, hfuses]
      refine ⟨_, rfl, .of_send (raised_raiseM (pg := ⟨.pwr, 0, 0, pgPwr⟩) rfl rfl rfl rfl _ _ _ _), ?_⟩
      exact (out_raise _ _).subset (List.mem_append_right _ (List.mem_singleton_self _))
    · have hk : s.voltStep = s.pwr.k - 1 := by simp [State.voltStep, hr]
      rw [hr, ← hk]
      exact ⟨_, rfl, raised_raiseM (pg := ⟨.pwr, 0, 0, pgPwr⟩) rfl rfl rfl rfl _ _ _ _⟩
  · intro k old new v on
    refine ⟨fun h => ?_, fun ho hn hk => ?_, fun ho hn h24 hk => ?_⟩
    · by_cases ho : on
      · obtain ⟨h1, h2, h3⟩ := ho
        exact (exec_annealWindow_of_on code h1 h2 h3).trans
          (congrArg Host.Outcome.next (if_pos (h.resolve_left (not_not_intro ⟨h1, h2, h3⟩))))
      · exact exec_annealWindow_of_off code ho
    · obtain ⟨h1, h2, h3⟩ := ho
      exact (exec_annealWindow_of_on code h1 h2 h3).trans
        (congrArg Host.Outcome.next ((if_neg hn).trans (if_neg (fun h => hk.elim (absurd h.1) h.2))))
    · obtain ⟨h1, h2, h3⟩ := ho
      exact ⟨_, (exec_annealWindow_of_on code h1 h2 h3).trans (congrArg Host.Outcome.next ((if_neg hn).trans (if_pos ⟨h24, hk⟩))),
        noted_raise (page := pgPwr) (pg := ⟨.pwr, 0, 0, pgPwr⟩) rfl rfl rfl rfl rfl (fun _ h => by cases h) rfl⟩
  · intro v k trim
    have hv : v.voltStep = k := rfl
    refine ⟨fun h => ?_, fun hl hc ht => ?_⟩
    · rw [exec, execAnnealHoldExpiry]
      dsimp only
      split
      · next hif =>
        simp only [Bool.and_eq_true, decide_eq_true_eq] at hif
        have ht : trim = 0 := (h.resolve_left (not_not_intro hif.1)).resolve_left (by simp [hif.2])
        exact congrArg _ (if_pos ht)
      · rfl
    · rw [exec, execAnnealHoldExpiry]
      refine congrArg Host.Outcome.next ((if_pos (by simp [hl, hc])).trans ((if_neg ht).trans ?_))
      have hnil : v.pwr.trimHold = [] := List.drop_eq_nil_of_le (by omega)
      show v.commandVolt v.voltStep = _
      unfold State.commandVolt State.trimNow
      simp only [hnil, not_true_eq_false, or_false, ne_eq, hv]
      rfl
  · intro base hot
    have hbase : exec (.junctionSensorRead tj f k) s = .next (
        let u := if 105 ≤ tj.toNat ∧ !s.pwr.stretch.tj then (hot true).stretchOn.raiseM 0x0711 pgThm (f.val * 2 ^ 17) 0 tj.toNat
          else if tj.toNat < 102 ∧ s.pwr.stretch.tj then (hot false).stretchOff else base
        if 110 ≤ tj.toNat ∧ !u.pwr.tripped then
          (State.gaspOnce { u with pwr := { u.pwr with tripped := true }, mgmt := { u.mgmt with thermtripN := false } } 17 tj.toNat).raiseM
            0x0712 pgThm (f.val * 2 ^ 17) 0 tj.toNat
        else u) := by
      rw [exec, execJunctionSensorRead, if_neg hd]
      dsimp only
      rw [rfield_thmTjMax]
      rfl
    rw [hbase]
    refine ⟨fun h1 h2 => ?_, fun h1 h2 => ?_, fun h1 h2 => ?_, fun h1 h2 h3 => ?_, fun h1 h2 h3 => ?_, fun h1 h2 h3 => ?_⟩
    · have hc : ¬ (105 ≤ tj.toNat ∧ (!s.pwr.stretch.tj) = true) := by omega
      have hn : ¬ (tj.toNat < 102 ∧ s.pwr.stretch.tj = true) := by simp [h2]
      rw [if_neg hc, if_neg hn]
      exact congrArg Host.Outcome.next (if_neg (by omega))
    · have hc : ¬ (105 ≤ tj.toNat ∧ (!s.pwr.stretch.tj) = true) := by omega
      rw [if_neg hc, if_pos (And.intro h1 h2)]
      exact congrArg Host.Outcome.next (if_neg (by omega))
    · have hc : ¬ (105 ≤ tj.toNat ∧ (!s.pwr.stretch.tj) = true) := by omega
      have hn : ¬ (tj.toNat < 102 ∧ s.pwr.stretch.tj = true) := by omega
      rw [if_neg hc, if_neg hn]
      exact congrArg Host.Outcome.next (if_neg (by omega))
    · have hc : 105 ≤ tj.toNat ∧ (!s.pwr.stretch.tj) = true := ⟨h1, by simp [h3]⟩
      rw [if_pos hc]
      exact ⟨_, congrArg Host.Outcome.next (if_neg (by omega)), raised_raiseM (pg := ⟨.thm, 0, 0, pgThm⟩) rfl rfl rfl rfl _ _ _ _⟩
    · have hc : ¬ (105 ≤ tj.toNat ∧ (!s.pwr.stretch.tj) = true) := by simp [h2]
      have hn : ¬ (tj.toNat < 102 ∧ s.pwr.stretch.tj = true) := by omega
      rw [if_neg hc, if_neg hn]
      exact ⟨_, congrArg Host.Outcome.next (if_pos ⟨h1, by simp [base, h3]⟩),
        raised_raiseM (pg := ⟨.thm, 0, 0, pgThm⟩) rfl rfl rfl rfl _ _ _ _⟩
    · have hc : ¬ (105 ≤ tj.toNat ∧ (!s.pwr.stretch.tj) = true) := by simp [h3]
      have hn : ¬ (tj.toNat < 102 ∧ s.pwr.stretch.tj = true) := by omega
      rw [if_neg hc, if_neg hn]
      exact congrArg Host.Outcome.next (if_neg (by simp [base, h2]))
  · exact congrArg _ (if_pos h)
  · exact congrArg _ (if_neg (by simp [h]))
  · intro u volt
    refine ⟨fun h => ?_, fun h h1 => ?_, fun h h1 h2 => ?_, fun h h1 h2 => ?_, fun h h1 => ?_⟩
    · exact if_pos h
    · exact (if_neg (by simp [h])).trans (if_pos h1)
    · exact (if_neg (by simp [h])).trans ((if_neg (Nat.not_lt.2 h1.le)).trans ((if_pos h1).trans (if_neg (Nat.not_le.2 h2))))
    · exact (if_neg (by simp [h])).trans ((if_neg (Nat.not_lt.2 h1.le)).trans ((if_pos h1).trans (if_pos h2)))
    · exact (if_neg (by simp [h])).trans ((if_neg (by omega)).trans (if_neg (by omega)))

end Sys2Proof.Machine
end

section
/-!
PROOFS. Writes and reads of registers (R463 to R471).
-/

namespace Sys2Proof.Machine

open Sys2Proof

/-! ### Fields of a word -/

theorem testBit_fieldNat (w : Word) (l d j : Nat) : (fieldNat w l d).testBit j = (decide (j < d) && w.getLsbD (l + j)) := by
  rw [fieldNat, Nat.testBit_mod_two_pow, Nat.testBit_div_two_pow, BitVec.getLsbD, Nat.add_comm]

theorem fieldNat_lt (w : Word) (l d : Nat) : fieldNat w l d < 2 ^ d := Nat.mod_lt _ (Nat.two_pow_pos d)

theorem fieldNat_ext {w x : Word} {l d : Nat} (h : ∀ i, l ≤ i → i < l + d → w.getLsbD i = x.getLsbD i) : fieldNat w l d = fieldNat x l d := by
  refine Nat.eq_of_testBit_eq fun j => ?_
  rw [testBit_fieldNat, testBit_fieldNat]
  by_cases hj : j < d
  · rw [h (l + j) (Nat.le_add_right _ _) (by omega)]
  · simp [hj]

/-- A word with its field taken apart from the bits below it and above it. -/
theorem toNat_eq_parts (w : Word) (l d : Nat) :
    w.toNat = 2 ^ l * (2 ^ d * (w.toNat / 2 ^ l / 2 ^ d) + fieldNat w l d) + w.toNat % 2 ^ l := by
  rw [fieldNat, Nat.div_add_mod, Nat.div_add_mod]

theorem toNat_withField {w : Word} {l d : Nat} (h : l + d ≤ 32) (v : Nat) :
    (withField w l d v).toNat = 2 ^ l * (2 ^ d * (w.toNat / 2 ^ l / 2 ^ d) + v % 2 ^ d) + w.toNat % 2 ^ l := by
  have hw := toNat_eq_parts w l d
  have hv : v % 2 ^ d < 2 ^ d := Nat.mod_lt _ (Nat.two_pow_pos d)
  have hlo : w.toNat % 2 ^ l < 2 ^ l := Nat.mod_lt _ (Nat.two_pow_pos l)
  have hhi : w.toNat / 2 ^ l / 2 ^ d < 2 ^ (32 - (l + d)) := by
    rw [Nat.div_div_eq_div_mul, ← pow_add, Nat.div_lt_iff_lt_mul (Nat.two_pow_pos _), ← pow_add, Nat.sub_add_cancel h]
    exact w.isLt
  set hi := w.toNat / 2 ^ l / 2 ^ d
  have hlt : 2 ^ l * (2 ^ d * hi + v % 2 ^ d) + w.toNat % 2 ^ l < 2 ^ 32 := by
    calc 2 ^ l * (2 ^ d * hi + v % 2 ^ d) + w.toNat % 2 ^ l < 2 ^ l * (2 ^ d * hi + v % 2 ^ d) + 2 ^ l := by omega
      _ = 2 ^ l * (2 ^ d * hi + v % 2 ^ d + 1) := by ring
      _ ≤ 2 ^ l * (2 ^ d * hi + 2 ^ d) := Nat.mul_le_mul_left _ (by omega)
      _ = 2 ^ (l + d) * (hi + 1) := by rw [pow_add]; ring
      _ ≤ 2 ^ (l + d) * 2 ^ (32 - (l + d)) := Nat.mul_le_mul_left _ hhi
      _ = 2 ^ 32 := by rw [← pow_add, Nat.add_sub_cancel' h]
  have hsub : w.toNat - fieldNat w l d * 2 ^ l + v % 2 ^ d * 2 ^ l = 2 ^ l * (2 ^ d * hi + v % 2 ^ d) + w.toNat % 2 ^ l := by
    rw [Nat.mul_add] at hw
    rw [Nat.mul_add, Nat.mul_comm (fieldNat w l d), Nat.mul_comm (v % 2 ^ d)]
    omega
  rw [withField, hsub, BitVec.toNat_ofNat, Nat.mod_eq_of_lt hlt]

theorem getLsbD_withField {w : Word} {l d : Nat} (h : l + d ≤ 32) (v i : Nat) :
    (withField w l d v).getLsbD i = if l ≤ i ∧ i < l + d then v.testBit (i - l) else w.getLsbD i := by
  have hv : v % 2 ^ d < 2 ^ d := Nat.mod_lt _ (Nat.two_pow_pos d)
  have hlo : w.toNat % 2 ^ l < 2 ^ l := Nat.mod_lt _ (Nat.two_pow_pos l)
  rw [BitVec.getLsbD, BitVec.getLsbD, toNat_withField h, Nat.testBit_two_pow_mul_add _ hlo, Nat.testBit_two_pow_mul_add _ hv]
  conv_rhs => rw [toNat_eq_parts w l d, Nat.testBit_two_pow_mul_add _ hlo, Nat.testBit_two_pow_mul_add _ (fieldNat_lt w l d)]
  by_cases h1 : i < l
  · simp [h1, Nat.not_le.2 h1]
  · by_cases h2 : i - l < d
    · rw [if_neg h1, if_pos h2, if_pos ⟨Nat.not_lt.1 h1, by omega⟩, Nat.testBit_mod_two_pow, decide_eq_true h2, Bool.true_and]
    · rw [if_neg h1, if_neg h2, if_neg (by omega), if_neg h1, if_neg h2]

theorem fieldNat_withField_self {w : Word} {l d v : Nat} (h : l + d ≤ 32) (hv : v < 2 ^ d) : fieldNat (withField w l d v) l d = v := by
  refine Nat.eq_of_testBit_eq fun j => ?_
  rw [testBit_fieldNat, getLsbD_withField h]
  by_cases hj : j < d
  · rw [if_pos (by omega), decide_eq_true hj, Bool.true_and, Nat.add_sub_cancel_left]
  · rw [decide_eq_false hj, Bool.false_and, Nat.testBit_lt_two_pow (lt_of_lt_of_le hv (Nat.pow_le_pow_right (by norm_num) (Nat.not_lt.1 hj)))]

/-! ### What a write leaves in a field (R468, R469) -/

/-- The fields of a row lie in its word and apart from one another. -/
def RegRow.Sound (r : RegRow) : Prop :=
  (∀ f ∈ r.fields, f.lsb + f.wid ≤ 32) ∧ r.fields.Pairwise (fun f g => f.lsb + f.wid ≤ g.lsb ∨ g.lsb + g.wid ≤ f.lsb)

theorem sound_rowsOf (b : Blk) : ∀ r ∈ rowsOf b, r.Sound := by
  unfold RegRow.Sound
  cases b <;> decide +kernel

theorem sound_rowAt {pg : Page} {o k : Nat} {r : RegRow} (h : rowAt pg o = some (r, k)) : r.Sound := by
  obtain ⟨r', hr, h⟩ := List.exists_of_findSome?_eq_some h
  split at h
  · obtain ⟨_, _, h⟩ := Option.map_eq_some_iff.1 h
    obtain ⟨rfl, -⟩ := Prod.mk.inj h
    exact sound_rowsOf _ _ hr
  · cases h

/-- What a field holds after a write of `n`, by its access code. -/
def RField.after (f : RField) (locked : Bool) (old n : Nat) : Nat :=
  match f.acc with
  | .rw | .wo => if f.lo ≤ n ∧ n ≤ f.hi then n else old
  | .rwl => if locked then old else if f.lo ≤ n ∧ n ≤ f.hi then n else old
  | .w1c => old.ldiff n
  | .ro | .w1p => old

theorem getLsbD_clearField (n l i : Nat) (hi : i < 32) : (BitVec.ofNat 32 (n * 2 ^ l)).getLsbD i = (decide (l ≤ i) && n.testBit (i - l)) := by
  rw [BitVec.getLsbD_ofNat, Nat.testBit_mul_two_pow, decide_eq_true hi, Bool.true_and]

theorem fieldNat_write_self {f : RField} (h : f.lsb + f.wid ≤ 32) (locked : Bool) (old new : Word) :
    fieldNat (f.write locked old new) f.lsb f.wid =
      f.after locked (fieldNat old f.lsb f.wid) (fieldNat new f.lsb f.wid) := by
  have hput : fieldNat (if f.lo ≤ fieldNat new f.lsb f.wid ∧ fieldNat new f.lsb f.wid ≤ f.hi then
        withField old f.lsb f.wid (fieldNat new f.lsb f.wid) else old) f.lsb f.wid =
      if f.lo ≤ fieldNat new f.lsb f.wid ∧ fieldNat new f.lsb f.wid ≤ f.hi then fieldNat new f.lsb f.wid else fieldNat old f.lsb f.wid := by
    split
    · exact fieldNat_withField_self h (fieldNat_lt ..)
    · rfl
  cases hacc : f.acc <;> simp only [RField.write, RField.after, hacc, hput]
  · cases locked
    · exact hput
    · rfl
  · refine Nat.eq_of_testBit_eq fun j => ?_
    rw [testBit_fieldNat, Nat.testBit_ldiff, testBit_fieldNat, testBit_fieldNat]
    by_cases hj : j < f.wid
    · rw [BitVec.getLsbD_and, BitVec.getLsbD_not, getLsbD_clearField _ _ _ (by omega), testBit_fieldNat]
      simp [hj, show f.lsb + j < 32 by omega]
    · simp [hj]

theorem fieldNat_write_apart {f g : RField} (h : f.lsb + f.wid ≤ 32) (hg : g.lsb + g.wid ≤ 32)
    (ha : f.lsb + f.wid ≤ g.lsb ∨ g.lsb + g.wid ≤ f.lsb) (locked : Bool) (old new : Word) :
    fieldNat (f.write locked old new) g.lsb g.wid = fieldNat old g.lsb g.wid := by
  have hput : fieldNat (if f.lo ≤ fieldNat new f.lsb f.wid ∧ fieldNat new f.lsb f.wid ≤ f.hi then
        withField old f.lsb f.wid (fieldNat new f.lsb f.wid) else old) g.lsb g.wid = fieldNat old g.lsb g.wid := by
    split
    · exact fieldNat_ext fun i h1 h2 => by rw [getLsbD_withField h, if_neg (by omega)]
    · rfl
  cases hacc : f.acc <;> simp only [RField.write, hacc, hput]
  · cases locked
    · exact hput
    · rfl
  · refine fieldNat_ext fun i h1 h2 => ?_
    rw [BitVec.getLsbD_and, BitVec.getLsbD_not, getLsbD_clearField _ _ _ (by omega), testBit_fieldNat]
    have : (decide (f.lsb ≤ i) && (decide (i - f.lsb < f.wid) && new.getLsbD (f.lsb + (i - f.lsb)))) = false := by
      rcases ha with ha | ha
      · simp [show ¬ i - f.lsb < f.wid by omega]
      · simp [show ¬ f.lsb ≤ i by omega]
    simp [this, show i < 32 by omega]

/-- A write of a word changes each of its fields as the field's access code says. -/
theorem fieldNat_rowWrite {r : RegRow} (hr : r.Sound) {f : RField} (hf : f ∈ r.fields) (locked : Bool) (old new : Word) :
    fieldNat (r.write locked old new) f.lsb f.wid = f.after locked (fieldNat old f.lsb f.wid) (fieldNat new f.lsb f.wid) := by
  obtain ⟨hin, hpw⟩ := hr
  unfold RegRow.write
  have key : ∀ (l : List RField) (w : Word), (∀ g ∈ l, g.lsb + g.wid ≤ 32) →
      l.Pairwise (fun f g => f.lsb + f.wid ≤ g.lsb ∨ g.lsb + g.wid ≤ f.lsb) →
      ((∀ g ∈ l, g.lsb + g.wid ≤ f.lsb ∨ f.lsb + f.wid ≤ g.lsb) →
        fieldNat (l.foldl (fun w g => g.write locked w new) w) f.lsb f.wid = fieldNat w f.lsb f.wid) ∧
      (f ∈ l → fieldNat (l.foldl (fun w g => g.write locked w new) w) f.lsb f.wid =
        f.after locked (fieldNat w f.lsb f.wid) (fieldNat new f.lsb f.wid)) := by
    have hf32 := hin f hf
    intro l
    induction l with
    | nil => exact fun w _ _ => ⟨fun _ => rfl, fun h => by cases h⟩
    | cons g l ih =>
      intro w h32 hp
      obtain ⟨hg, hp⟩ := List.pairwise_cons.1 hp
      have h32g := h32 g List.mem_cons_self
      have ih' := ih (g.write locked w new) (fun x hx => h32 x (List.mem_cons_of_mem _ hx)) hp
      refine ⟨fun ha => ?_, fun hm => ?_⟩
      · rw [List.foldl_cons, ih'.1 fun x hx => ha x (List.mem_cons_of_mem _ hx)]
        exact fieldNat_write_apart h32g hf32 (ha g List.mem_cons_self) locked w new
      · rw [List.foldl_cons]
        rcases List.mem_cons.1 hm with rfl | hm
        · rw [ih'.1 fun x hx => (hg x hx).symm]
          exact fieldNat_write_self h32g locked w new
        · rw [ih'.2 hm, fieldNat_write_apart h32g hf32 (hg f hm)]
  exact (key r.fields old hin hpw).2 hf

/-! ### Writes of whole words (R464, R468) -/

theorem writeOwn_plain {pg : Page} {off : Nat} (h : plainWord pg off) (s : State) (path : Path) (v : Word) :
    s.writeOwn path pg off v = s.writeWord path pg off v := by
  obtain ⟨-, hfab, hhbm, hoff⟩ := h
  simp only [List.mem_cons, List.not_mem_nil, or_false, not_or] at hoff
  obtain ⟨h1, h2, h3, h4, h5, h6, h7, h8, h9, h10, -⟩ := hoff
  unfold State.writeOwn
  rw [if_neg h1, if_neg h2, if_neg (not_or.2 ⟨h3, h4⟩), if_neg h5, if_neg h6, if_neg h7, if_neg h8, if_neg h9, if_neg h10,
    if_neg (fun h => hhbm ⟨h.1, h.2.2⟩), if_neg hfab]

theorem writeReg_own {s : State} {p : Path} {off : Nat} {pg : Page} (h4 : off % 4 = 0) (ht : s.target p off = some pg)
    (h : 0x100 ≤ off % 0x1000) (v : Word) : s.writeReg p off v = s.writeOwn p pg off v := by
  rw [State.writeReg, if_neg (not_not_intro h4), ht]
  exact if_neg (Nat.not_lt.2 h)

theorem writeReg_common {s : State} {p : Path} {off : Nat} {pg : Page} (h4 : off % 4 = 0) (ht : s.target p off = some pg)
    (h : off % 0x1000 < 0x100) (v : Word) : s.writeReg p off v = s.writeCommon p pg (off % 0x1000) v := by
  rw [State.writeReg, if_neg (not_not_intro h4), ht]
  exact if_pos h

theorem regWrite_inside {s : State} {p : Path} {off : Nat} (h : off < 0x2000000) (v : Word) :
    s.regWrite p off v = .next (s.writeReg p off v) := by
  rw [State.regWrite, bar0Size, if_neg (Nat.not_le.2 h)]

theorem regWrite_beyond {s : State} {p : Path} {off : Nat} (h : 0x2000000 ≤ off) (v : Word) :
    s.regWrite p off v = .fault .outsideBar0 := by
  rw [State.regWrite, bar0Size, if_pos h]

/-- A word of a row with no half, and no condition of its own, is written as its row says, where the row has a field to write. -/
theorem writeWord_eq {s : State} {p : Path} {pg : Page} {off k : Nat} {r : RegRow} (hr : rowAt pg (off % 0x1000) = some (r, k))
    (hh : r.half = .none) (hoff : off ≠ Reg.nocLdtSel) (v : Word) :
    s.writeWord p pg off v = if r.fields.any (fun f => f.acc != .ro) then s.rset off (r.write (s.locked pg.base) (s.rget off) v) else s := by
  rw [State.writeWord, hr]
  dsimp only
  rw [hh]
  have hok : s.wordOk off v = true := by rw [State.wordOk, if_neg hoff]
  cases r.fields.any (fun f => f.acc != .ro)
  · rfl
  · simp [hok]

/-- Both readings of a field behind a write: a row that has nothing to write keeps its word. -/
theorem fieldNat_writeWord {s : State} {p : Path} {pg : Page} {off k : Nat} {r : RegRow} (hr : rowAt pg (off % 0x1000) = some (r, k))
    (hh : r.half = .none) (hoff : off ≠ Reg.nocLdtSel) (v : Word) {f : RField} (hf : f ∈ r.fields) :
    fieldNat ((s.writeWord p pg off v).rget off) f.lsb f.wid =
      f.after (s.locked pg.base) (fieldNat (s.rget off) f.lsb f.wid) (fieldNat v f.lsb f.wid) := by
  rw [writeWord_eq hr hh hoff]
  split
  · rw [rget_rset_self, fieldNat_rowWrite (sound_rowAt hr) hf]
  · next h =>
    have hro : f.acc = .ro := by
      simp only [List.any_eq_true, bne_iff_ne, ne_eq, not_exists, not_and, not_not] at h
      exact h f hf
    simp only [RField.after, hro]

theorem writeWord_regs {s : State} {p : Path} {pg : Page} {off k : Nat} {r : RegRow} (hr : rowAt pg (off % 0x1000) = some (r, k))
    (hh : r.half = .none) (hoff : off ≠ Reg.nocLdtSel) (v : Word) :
    (∀ o, o ≠ off → (s.writeWord p pg off v).rget o = s.rget o) ∧
      s.writeWord p pg off v = { s with regs := (s.writeWord p pg off v).regs } := by
  rw [writeWord_eq hr hh hoff]
  split
  · exact ⟨fun o ho => rget_rset_ne _ _ ho, rfl⟩
  · exact ⟨fun _ _ => rfl, rfl⟩

/-! ### The common words (R464 to R467) -/

/-- Every bit of a page's EVT word has an event of its own, whose capture stands in the page's other words. -/
def forcible (b : Blk) (page : Nat) : Bool :=
  (List.range (evtWidth b page)).all (fun k => match evtEvents b page k with
    | [] => false
    | e :: _ => (List.range (evtWidth b page)).find? (fun j => (evtEvents b page j).contains e) == some k &&
        (forcedCaps b page k).all (fun c => decide (c.1 < 0x1000) && c.1 != oEvt))

theorem pageAt_cases {off : Nat} {pg : Page} (h : pageAt off = some pg) :
    pg.base = off / 0x1000 * 0x1000 ∧ forcible pg.blk pg.page = true := by
  have hcore : ∀ p b base, corePageAt p b base = some pg → pg.base = base ∧ forcible pg.blk pg.page = true := by
    intro p b base hc
    unfold corePageAt at hc
    split at hc <;> cases hc <;> exact ⟨rfl, by dsimp only; decide⟩
  unfold pageAt at h
  dsimp only at h
  split at h
  · split at h
    · exact hcore _ _ _ h
    · cases h
  split at h
  · cases h; exact ⟨rfl, by dsimp only; decide⟩
  split at h
  · next hb =>
    cases h
    refine ⟨rfl, ?_⟩
    have hb : off / 0x1000 - 0x10 < 4 := by omega
    generalize off / 0x1000 - 0x10 = n at *
    interval_cases n <;> dsimp only <;> decide
  split at h
  · next hb =>
    cases h
    refine ⟨rfl, ?_⟩
    have hb : off / 0x1000 - 0x20 < 13 := by omega
    generalize off / 0x1000 - 0x20 = n at *
    interval_cases n <;> dsimp only <;> decide
  split at h <;> cases h <;> exact ⟨by simp [*], by dsimp only; decide⟩

theorem pageAt_congr {a b : Nat} (h : a / 0x1000 = b / 0x1000) : pageAt a = pageAt b := by
  unfold pageAt
  rw [h]

/-- A writable common word of a page. -/
theorem common_of_writable {s : State} {p : Path} {page o : Nat} (hw : s.writable p (0x1000 * page + o)) (ho : o < 0x100) :
    ∃ pg, pageAt (0x1000 * page) = some pg ∧ pg.base = 0x1000 * page ∧
      ∀ v, s.regWrite p (0x1000 * page + o) v = .next (s.writeCommon p pg o v) := by
  obtain ⟨hlt, h4, pg, ht⟩ := hw
  obtain ⟨pg', hp, hopen⟩ := Option.bind_eq_some_iff.1 ht
  obtain rfl : pg' = pg := by
    split at hopen
    · exact Option.some.inj hopen
    · cases hopen
  have hmod : (0x1000 * page + o) % 0x1000 = o := by omega
  refine ⟨pg', ?_, ?_, fun v => ?_⟩
  · rw [← hp]
    exact pageAt_congr (by omega)
  · rw [(pageAt_cases hp).1]
    omega
  · rw [regWrite_inside hlt, writeReg_common h4 ht (by omega), hmod]

theorem rclear_regs (l : List Nat) (s : State) : s.rclear l = { s with regs := (s.rclear l).regs } ∧
    ∀ o, o ∉ l → (s.rclear l).rget o = s.rget o := by
  induction l generalizing s with
  | nil => exact ⟨rfl, fun _ _ => rfl⟩
  | cons x xs ih =>
    obtain ⟨h1, h2⟩ := ih (s.rset x 0)
    refine ⟨h1, fun o ho => ?_⟩
    rw [List.mem_cons, not_or] at ho
    exact (h2 o ho.2).trans (rget_rset_ne _ _ ho.1)

theorem captureWords_bounds (b : Blk) (page bit : Nat) : ∀ c ∈ captureWords b page bit, 0x28 ≤ c ∧ c < 0x1000 := by
  unfold captureWords
  split <;> decide

/-- A clear of EVT bits clears them, and of the page no more than their captures. -/
theorem evtClear_spec (s : State) {pg : Page} (h0 : pg.base % 0x1000 = 0) (bits : Word) :
    s.evtClear pg bits = { s with regs := (s.evtClear pg bits).regs } ∧
      RegsKept s (s.evtClear pg bits) (fun o => o / 0x1000 = pg.base / 0x1000) ∧
      (s.evtClear pg bits).rget (pg.base + oEvt) = s.rget (pg.base + oEvt) &&& ~~~bits ∧
      (s.evtClear pg bits).rget (pg.base + oEvtCnt) = s.rget (pg.base + oEvtCnt) := by
  unfold State.evtClear
  extract_lets hit clr
  have hclr : ∀ c ∈ clr, 0x28 ≤ c ∧ c < 0x1000 := by
    unfold clr
    split
    · split
      · intro c hc; cases hc
      · split
        · decide
        · intro c hc; cases hc
    · intro c hc
      obtain ⟨k, -, hk⟩ := List.mem_flatMap.1 hc
      exact captureWords_bounds _ _ _ c hk
  obtain ⟨h1, h2⟩ := rclear_regs (clr.map (fun o => pg.base + o)) (s.rset (pg.base + oEvt) (s.rget (pg.base + oEvt) &&& ~~~bits))
  have hout : ∀ o, (o < pg.base + 0x28 ∨ pg.base + 0x1000 ≤ o) → o ∉ clr.map (fun o => pg.base + o) := by
    intro o ho hm
    obtain ⟨c, hc, rfl⟩ := List.mem_map.1 hm
    have := hclr c hc
    omega
  refine ⟨h1, fun o ho => ?_, ?_, ?_⟩
  · rw [h2 o (hout o (by omega)), rget_rset_ne _ _ (by unfold oEvt; omega)]
  · rw [h2 _ (hout _ (by unfold oEvt; omega)), rget_rset_self]
  · rw [h2 _ (hout _ (by unfold oEvtCnt; omega)), rget_rset_ne _ _ (by unfold oEvt oEvtCnt; omega)]

/-- An EVT bit that is set stays set when an event of its page is raised. -/
theorem evtSet_raise_of_set {s : State} {e : Ev} {pg : Page} {j : Nat} (hp : pageAt e.page = some pg) (hb : pg.base % 0x1000 = 0)
    (hc : ∀ c ∈ e.caps, c.1 ≠ oEvt) (h : s.evtSet pg.base j = true) : (s.raise e).evtSet pg.base j = true := by
  have ho : (pg.base + oEvt) % 0x1000 = oEvt := by rw [Nat.add_mod, hb]; decide
  unfold State.evtSet State.rbit at *
  have h1 : ∀ k, ((s.setEvt pg k e.caps).rget (pg.base + oEvt)).getLsbD j = true := by
    intro k
    unfold State.setEvt
    dsimp only
    split
    · rw [rget_foldl_rset _ _ _ (fun c hc' => by have := hc c hc'; omega), rget_rset_self, BitVec.getLsbD_or, h, Bool.true_or]
    · rw [rget_rset_self, BitVec.getLsbD_or, h, Bool.true_or]
  have h2 : ∀ t : State, (t.rget (pg.base + oEvt)).getLsbD j = true →
      ((if pg.blk = .me ∧ e.code ≠ 0x0101 then t else t.bump (pg.base + oEvtCnt) e.tally).rget (pg.base + oEvt)).getLsbD j = true := by
    intro t ht
    split
    · exact ht
    · rwa [show (t.bump (pg.base + oEvtCnt) e.tally).rget (pg.base + oEvt) = t.rget (pg.base + oEvt) from
        rget_rset_ne _ _ (by unfold oEvt oEvtCnt; omega)]
  unfold State.raise
  simp only [hp]
  split
  · cases evtBit pg e.code e.sev
    · exact h2 _ h
    · exact h2 _ (h1 _)
  · rw [rget_logRec _ _ _ ho, rget_stepMark]
    cases evtBit pg e.code e.sev
    · exact h2 _ h
    · exact h2 _ (h1 _)

/-- What is forced of one bit: its event, with a capture that leaves the EVT word alone. -/
theorem forceBit_eq {s : State} {pg : Page} {page k : Nat} (hp : pageAt page = some pg) (hk : k < evtWidth pg.blk pg.page) :
    ∃ e : Ev, s.forceBit pg k = s.raise e ∧ e.page = pg.base ∧ evtBit pg e.code e.sev = some k ∧ ∀ c ∈ e.caps, c.1 ≠ oEvt := by
  have hf := (pageAt_cases hp).2
  unfold forcible at hf
  have hk' := List.all_eq_true.1 hf k (List.mem_range.2 hk)
  unfold State.forceBit
  cases he : evtEvents pg.blk pg.page k with
  | nil => rw [he] at hk'; cases hk'
  | cons x xs =>
    rw [he] at hk'
    simp only [Bool.and_eq_true, beq_iff_eq, List.all_eq_true, bne_iff_ne, decide_eq_true_eq] at hk'
    exact ⟨_, rfl, rfl, hk'.1, fun c hc => (hk'.2 c hc).2⟩

/-- Forcing bits in turn sets each of them, and keeps those that were set. -/
theorem evtSet_foldl_forceBit {pg : Page} (hp : pageAt pg.base = some pg) (h1 : pg.base % 0x1000 = 0) {k : Nat} (l : List Nat) (s : State)
    (hl : ∀ j ∈ l, j < evtWidth pg.blk pg.page) (h : k ∈ l ∨ s.evtSet pg.base k = true) :
    (l.foldl (fun s k => s.forceBit pg k) s).evtSet pg.base k = true := by
  induction l generalizing s with
  | nil => exact h.resolve_left (by simp)
  | cons j l ih =>
    obtain ⟨e, he, hpage, hbit, hcaps⟩ := forceBit_eq (s := s) hp (hl j List.mem_cons_self)
    have hpe : pageAt e.page = some pg := by rw [hpage]; exact hp
    rw [List.foldl_cons, he]
    refine ih _ (fun x hx => hl x (List.mem_cons_of_mem _ hx)) ?_
    rcases h with h | h
    · rcases List.mem_cons.1 h with rfl | h
      · exact .inr (rbit_raise hpe hbit h1 hcaps)
      · exact .inl h
    · exact .inr (evtSet_raise_of_set hpe h1 hcaps h)

theorem evtForce_sets {s : State} {pg : Page} (hp : pageAt pg.base = some pg) (h1 : pg.base % 0x1000 = 0) (hd : s.mgmt.dev = .ready)
    (bits : Word) {k : Nat} (hk : k < evtWidth pg.blk pg.page) (hb : bits.getLsbD k = true) :
    (s.evtForce pg bits).evtSet pg.base k = true := by
  unfold State.evtForce
  rw [if_pos hd]
  refine evtSet_foldl_forceBit hp h1 _ s (fun j hj => ?_) (.inl ?_)
  · exact List.mem_range.1 (List.mem_filter.1 hj).1
  · exact List.mem_filter.2 ⟨List.mem_range.2 hk, hb⟩

/-- A lock word is written as its two bits. -/
theorem writeLock_spec (s : State) (p : Path) (pg : Page) (v : Word) :
    s.writeLock p pg v = { s with regs := (s.writeLock p pg v).regs } ∧
      RegsKept s (s.writeLock p pg v) (fun o => o = pg.base + oLock) ∧
      (s.writeLock p pg v).rbit (pg.base + oLock) 0 =
        ((s.rbit (pg.base + oLock) 0 || v.getLsbD 0) && !(p != .pcie && v.getLsbD 1)) ∧
      (s.writeLock p pg v).rbit (pg.base + oLock) 2 = if p != .pcie then v.getLsbD 2 else s.rbit (pg.base + oLock) 2 := by
  have hbits : ∀ a b : Bool, (wOf (b1 a 0 + b1 b 2)).getLsbD 0 = a ∧ (wOf (b1 a 0 + b1 b 2)).getLsbD 2 = b := by decide
  unfold State.writeLock State.rbit
  dsimp only
  rw [rget_rset_self]
  exact ⟨rfl, kept_rset _ _ _ rfl, (hbits _ _).1, (hbits _ _).2⟩

theorem getLsbD_keep4 (w x : Word) (k : Nat) : (w &&& 4 ||| x).getLsbD k = ((w.getLsbD k && decide (k = 2)) || x.getLsbD k) := by
  have h : (4 : Word).getLsbD k = decide (k = 2) := by
    rw [show (4 : Word) = BitVec.ofNat 32 (2 ^ 2) from rfl, BitVec.getLsbD_ofNat, Nat.testBit_two_pow]
    by_cases hk : 2 = k
    · subst hk; rfl
    · simp [hk, Ne.symm hk]
  rw [BitVec.getLsbD_or, BitVec.getLsbD_and, h]

/-- CTL written with CNT_CLR, and with CAPTURE_EN as it stands. -/
theorem writeCtl_clear (s : State) (pg : Page) (w : Word) :
    s.writeCtl pg ((w &&& 1) ||| 2) = (s.rset (pg.base + oCtl) (w &&& 1)).rset (pg.base + oEvtCnt) 0 := by
  have h2 : ((w &&& 1) ||| 2).getLsbD 1 = true := by
    rw [BitVec.getLsbD_or]
    exact Bool.or_true _
  have h1 : ((w &&& 1) ||| 2) &&& 1 = w &&& 1 := by
    refine BitVec.eq_of_getLsbD_eq fun i hi => ?_
    have : ((2 : Word).getLsbD i && (1 : Word).getLsbD i) = false := by
      interval_cases i <;> rfl
    rw [BitVec.getLsbD_and, BitVec.getLsbD_or, BitVec.getLsbD_and, Bool.and_or_distrib_right, this, Bool.or_false, Bool.and_assoc,
      Bool.and_self]
  unfold State.writeCtl
  rw [h2, h1]
  rfl

/-! ### Reads (R470, R471) -/

theorem exec_registerLoRead_eq {s : State} {p : Path} {off : Nat} (h : off < 0x2000000) :
    exec (.registerLoRead p off) s = .next { (s.readReg p (off - off % 4)).2 with mgmt := { (s.readReg p (off - off % 4)).2.mgmt with
      readback := leBytes 4 (s.readReg p (off - off % 4)).1.toNat } } := by
  rw [exec, execRegisterLoRead, bar0Size, if_neg (Nat.not_le.2 h)]

/-- Settles O49: a write of a word by its row's fields, the common words by what each of them does, a read by its half. -/
theorem registerWrites : Obligations.RegisterWrites := by
  unfold Obligations.RegisterWrites
  refine fun s p => ⟨?_, fun off v en h he => ?_, fun off v en h => ?_, fun off h => ?_, fun off h => ?_, fun page bits => ?_⟩
  · intro off v pg r k f hlt h4 ht hp hr hh hf n old
    have hoff : off ≠ Reg.nocLdtSel := fun h => hp.2.2.2 (by simp [h])
    obtain ⟨ho, hs⟩ := writeWord_regs (s := s) (p := p) hr hh hoff v
    refine ⟨s.writeWord p pg off v, ?_, ho, hs, ?_⟩
    · rw [exec, execRegisterWrite, if_pos rfl, regWrite_inside hlt, writeReg_own h4 ht hp.1, writeOwn_plain hp]
    · dsimp only
      rw [fieldNat_writeWord hr hh hoff v hf]
      unfold RField.after
      refine ⟨?_, ?_, fun ha j hj => ?_⟩
      · rintro (ha | ha | ⟨ha, hl⟩)
        · rw [ha]
        · rw [ha]
        · rw [ha, hl]; rfl
      · rintro (ha | ha | ⟨ha, hl⟩)
        · rw [ha]
        · rw [ha]
        · rw [ha, hl]; rfl
      · rw [ha]
        exact Nat.testBit_ldiff ..
  · rw [exec, execRegisterWrite, if_neg he, bar0Size, if_neg (Nat.not_le.2 h)]
  · rw [exec, execRegisterWrite, regWrite_beyond h, bar0Size, if_pos h, ite_self]
  · rw [exec, execRegisterLoRead, bar0Size, if_pos h]
  · intro o
    rw [exec_registerLoRead_eq h]
    refine ⟨fun hh => ?_, fun hh => ?_, fun w hh hl => ?_, fun hh hl => ?_⟩
    all_goals
      rw [State.readReg, show halfOf (off - off % 4) = _ from hh]
    · simp only [show tget none s.latches (latchKey p (off - off % 4 - 4)) = some w from hl]
    · simp only [show tget none s.latches (latchKey p (off - off % 4 - 4)) = none from hl]
      rfl
  · intro b
    have hb0 : b % 0x1000 = 0 := Nat.mul_mod_right ..
    refine ⟨fun hw => ?_, fun hw => ?_, fun hw hd => ?_, fun hw hd => ?_, fun hw => ?_, fun hw => ?_⟩
    · obtain ⟨pg, -, hbase, he⟩ := common_of_writable hw (by decide)
      have h0 : pg.base % 0x1000 = 0 := hbase ▸ hb0
      obtain ⟨hs, hk, hevt, hcnt⟩ := evtClear_spec s h0 bits
      rw [hbase] at hk hevt hcnt
      exact ⟨_, he bits, hs, hk.mono (d := fun o => o / 0x1000 = page) (fun o ho => by omega), hevt, hcnt⟩
    · obtain ⟨pg, -, hbase, he⟩ := common_of_writable hw (by decide)
      have hctl : s.writeCommon p pg oCtl ((s.rget (b + oCtl) &&& 1) ||| 2) = (s.rset (b + oCtl) (s.rget (b + oCtl) &&& 1)).rset
          (b + oEvtCnt) 0 := (writeCtl_clear s pg _).trans (by rw [hbase])
      have hne : b + oCtl ≠ b + oEvtCnt := by unfold oCtl oEvtCnt; omega
      refine ⟨_, (he _).trans (congrArg Host.Outcome.next hctl), rfl, fun o ho => ?_, ?_, ?_⟩
      · rw [rget_rset_ne _ _ (mt .inr ho), rget_rset_ne _ _ (mt .inl ho)]
      · rw [rget_rset_self]
      · unfold State.rbit
        rw [rget_rset_ne _ _ hne, rget_rset_self, BitVec.getLsbD_and]
        exact Bool.and_true _
    · obtain ⟨pg, hp, hbase, he⟩ := common_of_writable hw (by decide)
      refine ⟨_, he bits, fun pg' hp' k hk hbit => ?_⟩
      obtain rfl : pg = pg' := Option.some.inj (hp.symm.trans hp')
      have hp0 : pageAt pg.base = some pg := by rw [hbase]; exact hp
      have := evtForce_sets (s := s) hp0 (by rw [hbase]; exact hb0) hd bits hk hbit
      rwa [hbase] at this
    · obtain ⟨pg, -, -, he⟩ := common_of_writable hw (by decide)
      exact (he bits).trans (congrArg Host.Outcome.next (show s.evtForce pg bits = s from if_neg hd))
    · obtain ⟨pg, -, hbase, he⟩ := common_of_writable hw (by decide)
      obtain ⟨hs, hk, hl, hh⟩ := writeLock_spec s p pg ((s.rget (b + oLock) &&& 4) ||| 1)
      rw [hbase] at hk hl hh
      refine ⟨_, he _, hs, hk, ?_, ?_⟩
      · exact hl.trans (by rw [getLsbD_keep4, getLsbD_keep4]; simp)
      · exact hh.trans (by rw [getLsbD_keep4]; simp [State.rbit, b])
    · obtain ⟨pg, -, hbase, he⟩ := common_of_writable hw (by decide)
      obtain ⟨hs, hk, hl, hh⟩ := writeLock_spec s p pg ((s.rget (b + oLock) &&& 4) ||| 2)
      rw [hbase] at hk hl hh
      refine ⟨_, he _, hs, hk, ?_, ?_⟩
      · refine hl.trans ?_
        rw [getLsbD_keep4, getLsbD_keep4]
        simp [State.rbit, b, bne, Bool.and_comm]
      · exact hh.trans (by rw [getLsbD_keep4]; simp [State.rbit, b])

end Sys2Proof.Machine
end

section
/-!
PROOFS. The registers whose write sets something in motion (R284, R345, R387, R410, R431, R438, R439, R446, R452, R458).
-/

namespace Sys2Proof.Machine

open Sys2Proof

theorem writeReg_of_writable {s : State} {p : Path} {off : Nat} {pg : Page} (hw : s.writable p off) (hp : pageAt off = some pg)
    (h : 0x100 ≤ off % 0x1000) (v : Word) : s.writeReg p off v = s.writeOwn p pg off v := by
  obtain ⟨-, h4, pg', ht⟩ := hw
  obtain ⟨pg'', hp', hopen⟩ := Option.bind_eq_some_iff.1 ht
  obtain rfl : pg'' = pg := Option.some.inj (hp'.symm.trans hp)
  obtain rfl : pg'' = pg' := by
    split at hopen
    · exact Option.some.inj hopen
    · cases hopen
  exact writeReg_own h4 ht h v

/-! ### Words of one field -/

theorem mask_low (i : Nat) (h : i < 32) : (0xFFF : Word).getLsbD i = decide (i < 12) ∧ (0xFFFFF000 : Word).getLsbD i = decide (12 ≤ i) := by
  interval_cases i <;> decide

theorem getLsbD_fieldNat (w : Word) (l d j : Nat) (h : j < d) : (fieldNat w l d).testBit j = w.getLsbD (l + j) := by
  rw [testBit_fieldNat, decide_eq_true h, Bool.true_and]

theorem write_rf {lsb wid rst : Nat} {a : Acc} (ha : a = .rw) (lk : Bool) (old new : Word) :
    (rf lsb wid a rst).write lk old new = withField old lsb wid (fieldNat new lsb wid) := by
  subst ha
  exact if_pos ⟨Nat.zero_le _, Nat.le_sub_one_of_lt (fieldNat_lt new lsb wid)⟩

/-- A write of a word that is one field of 32 bits. -/
theorem withField_whole (old new : Word) : withField old 0 32 (fieldNat new 0 32) = new := by
  refine BitVec.eq_of_getLsbD_eq fun i hi => ?_
  rw [getLsbD_withField (by decide), if_pos ⟨Nat.zero_le _, by omega⟩, testBit_fieldNat]
  simp [hi]

theorem withField_low (old new : Word) : withField old 0 12 (fieldNat new 0 12) = (new &&& 0xFFF) ||| (old &&& 0xFFFFF000) := by
  refine BitVec.eq_of_getLsbD_eq fun i hi => ?_
  obtain ⟨h1, h2⟩ := mask_low i hi
  rw [getLsbD_withField (by decide), BitVec.getLsbD_or, BitVec.getLsbD_and, BitVec.getLsbD_and, h1, h2, testBit_fieldNat]
  by_cases h : i < 12
  · simp [h, Nat.not_le.2 h]
  · simp [h, Nat.not_lt.1 h]

/-! ### An event without a capture -/

/-- An event that captures nothing writes the EVT and EVT_CNT words of its page, and the log's indices. -/
theorem rget_raise_bare {s : State} {e : Ev} {pg : Page} {page : Nat} (he : e.page = page) (hp : pageAt page = some pg) (hc : e.caps = [])
    {o : Nat} (h1 : o ≠ pg.base + oEvt) (h2 : o ≠ pg.base + oEvtCnt) (h3 : o ≠ Reg.logPi) (h4 : o ≠ Reg.logDrop) :
    (s.raise e).rget o = s.rget o := by
  subst he
  have hset : ∀ k, (s.setEvt pg k e.caps).rget o = s.rget o := by
    intro k
    unfold State.setEvt
    rw [hc]
    dsimp only
    split <;> exact rget_rset_ne _ _ h1
  have hcnt : ∀ t : State, (if pg.blk = .me ∧ e.code ≠ 0x0101 then t else t.bump (pg.base + oEvtCnt) e.tally).rget o = t.rget o := by
    intro t
    split
    · rfl
    · exact rget_rset_ne _ _ h2
  have hlog : ∀ (t : State) (r : EvtRec) (m : Bool), (t.logRec r m).rget o = t.rget o := by
    intro t r m
    refine kept_logRec t r m (o + 0x1000) o ?_
    rintro (h | h | h)
    · omega
    · exact h3 h
    · exact h4 h
  unfold State.raise
  simp only [hp]
  split
  · cases evtBit pg e.code e.sev
    · exact hcnt _
    · exact (hcnt _).trans (hset _)
  · rw [hlog, rget_stepMark]
    cases evtBit pg e.code e.sev
    · exact hcnt _
    · exact (hcnt _).trans (hset _)

theorem flushCpls_of_none {s : State} (h : s.ring.held = []) : s.flushCpls = s := by
  unfold State.flushCpls
  rw [h]
  show ({ s with ring := { s.ring with held := [] } } : State) = s
  rw [← h]

theorem flushCpls_of_one {s : State} {c : Cpl} (h : s.ring.held = [c]) (hr : s.cplRoom = true) :
    s.flushCpls = { s.cplWrite c with ring := { (s.cplWrite c).ring with held := [] } } := by
  unfold State.flushCpls
  rw [h]
  simp only [flushList, hr, if_true]

theorem tellDrop_of_quiet {s : State} (h : s.mgmt.dropped = false ∨ s.logRoom = false) : s.tellDrop = s := by
  refine if_neg ?_
  rcases h with h | h <;> simp [h]

/-! ### The firmware boots (R432) -/

/-- What of the device's state no event and no voltage changes: the state and stage, the firmware, the roles, the stroke number. -/
structure BootKept (s t : State) : Prop where
  dev : t.mgmt.dev = s.mgmt.dev
  stage : t.mgmt.bootStage = s.mgmt.bootStage
  firmware : t.mgmt.nor.firmware = s.mgmt.nor.firmware
  torn : t.mgmt.nor.torn = s.mgmt.nor.torn
  image : t.mgmt.fwImage = s.mgmt.fwImage
  roles : t.roles = s.roles
  devStroke : t.stroke.devStroke = s.stroke.devStroke

theorem BootKept.trans {s t u : State} (h : BootKept s t) (k : BootKept t u) : BootKept s u :=
  ⟨k.dev.trans h.dev, k.stage.trans h.stage, k.firmware.trans h.firmware, k.torn.trans h.torn, k.image.trans h.image, k.roles.trans h.roles,
    k.devStroke.trans h.devStroke⟩

theorem BootKept.refl (s : State) : BootKept s s := ⟨rfl, rfl, rfl, rfl, rfl, rfl, rfl⟩

theorem BootKept.of_logged {s t : State} (h : Logged s t) : BootKept s t := by
  obtain ⟨_, _, _, _, _, _, _, _, _, rfl⟩ := h
  exact ⟨rfl, rfl, rfl, rfl, rfl, rfl, rfl⟩

theorem bootKept_pwr (s : State) (x : PwrSt) : BootKept s { s with pwr := x } := ⟨rfl, rfl, rfl, rfl, rfl, rfl, rfl⟩

theorem bootKept_vrWarn (s : State) (amps : Nat) : BootKept s (s.vrWarn amps) := by
  have hs : BootKept s s.stretchOn := by
    unfold State.stretchOn
    split
    · exact .refl s
    · exact (bootKept_pwr s _).trans (.of_logged (logged_bump _ _ _))
  unfold State.vrWarn
  extract_lets u p
  have hu : BootKept s u := hs
  split
  · exact hu
  · exact hu.trans ((bootKept_pwr u _).trans (.of_logged (logged_raiseM ..)))

theorem bootKept_boardBulk (s : State) : BootKept s s.boardBulk := by
  unfold State.boardBulk
  dsimp only
  split
  · exact .refl s
  · exact .of_logged (logged_rset _ _ _)

/-- The role that BOOT gives core `p` (R41, R43). -/
def State.bootRole (s : State) (p : Nat) : Role :=
  if s.fuses.disabled.contains p then .disabled else if s.fenceOpen p then .fenced else .spare

theorem bootRoles_step (s : State) (p : Nat) : (if s.fuses.disabled.contains p then s.setRoleKind p .disabled
    else if s.fenceOpen p then s.setRoleKind p .fenced else s.setRoleKind p .spare) = s.setRoleKind p (s.bootRole p) := by
  unfold State.bootRole
  split
  · rfl
  · split <;> rfl

theorem foldl_setRoleKind (l : List Nat) (s : State) :
    l.foldl (fun s p => s.setRoleKind p (s.bootRole p)) s =
      { s with roles := (l.foldl (fun s p => s.setRoleKind p (s.bootRole p)) s).roles } ∧
    ∀ p, ((l.foldl (fun s p => s.setRoleKind p (s.bootRole p)) s).roleOf p).role =
      if p ∈ l then s.bootRole p else (s.roleOf p).role := by
  induction l generalizing s with
  | nil => exact ⟨rfl, fun p => by simp⟩
  | cons q l ih =>
    obtain ⟨h1, h2⟩ := ih (s.setRoleKind q (s.bootRole q))
    refine ⟨h1, fun p => ?_⟩
    have hb : (s.setRoleKind q (s.bootRole q)).bootRole p = s.bootRole p := rfl
    rw [List.foldl_cons, h2 p, hb]
    by_cases hp : p ∈ l
    · rw [if_pos hp, if_pos (List.mem_cons_of_mem _ hp)]
    · rw [if_neg hp]
      by_cases hq : p = q
      · subst hq
        rw [if_pos List.mem_cons_self, State.setRoleKind, roleOf_setRole_self]
      · rw [if_neg (by simp [hq, hp]), State.setRoleKind, State.roleOf, State.setRole]
        dsimp only
        rw [tget_tset_ne _ _ _ hq]
        rfl

theorem bootRoles_spec (s : State) : s.bootRoles = { s with roles := s.bootRoles.roles } ∧
    ∀ p < 144, (s.bootRoles.roleOf p).role = s.bootRole p := by
  have h : s.bootRoles = (List.range 144).foldl (fun s p => s.setRoleKind p (s.bootRole p)) s := by
    unfold State.bootRoles
    simp only [bootRoles_step]
  obtain ⟨h1, h2⟩ := foldl_setRoleKind (List.range 144) s
  rw [h]
  exact ⟨h1, fun p hp => by rw [h2, if_pos (List.mem_range.2 hp)]⟩

/-- BOOT of an image that verifies, up to stage 3: the image runs, and every core has its role. -/
structure Booted (s t : State) : Prop where
  dev : t.mgmt.dev = s.mgmt.dev
  stage : t.mgmt.bootStage = 3
  firmware : t.mgmt.nor.firmware = s.mgmt.nor.firmware
  torn : t.mgmt.nor.torn = s.mgmt.nor.torn
  image : t.mgmt.fwImage = s.mgmt.nor.firmware
  role : ∀ p < 144, (t.roleOf p).role = s.bootRole p
  devStroke : t.stroke.devStroke = s.stroke.devStroke

/-- The clock and the rails of BOOT, behind an image that runs. -/
theorem booted_bootClock {s : State} (hi : s.mgmt.fwImage = s.mgmt.nor.firmware) : Booted s (s.bootClock none) := by
  obtain ⟨h1, h2⟩ := bootRoles_spec ((s.setStage 2).commandVolt 0)
  have hm := congrArg State.mgmt h1
  have hst := congrArg State.stroke h1
  have hbulk := bootKept_boardBulk ((s.setStage 2).commandVolt 0).bootRoles
  have hk : BootKept ((((s.setStage 2).commandVolt 0).bootRoles.boardBulk).setStage 3) (s.bootClock none) := by
    unfold State.bootClock
    dsimp only
    generalize State.setStage _ 3 = w
    split
    · exact .trans (t := w.draw.2) ⟨rfl, rfl, rfl, rfl, rfl, rfl, rfl⟩ (bootKept_vrWarn _ _)
    · exact .refl w
  generalize ((s.setStage 2).commandVolt 0).bootRoles = v at *
  have hdev : v.mgmt.dev = s.mgmt.dev := by rw [hm]; rfl
  have hnor : v.mgmt.nor = s.mgmt.nor := by rw [hm]; rfl
  have himg : v.mgmt.fwImage = s.mgmt.fwImage := by rw [hm]; rfl
  exact ⟨hk.dev.trans (hbulk.dev.trans hdev), hk.stage, hk.firmware.trans (hbulk.firmware.trans (by rw [hnor])),
    hk.torn.trans (hbulk.torn.trans (by rw [hnor])), hk.image.trans (hbulk.image.trans (himg.trans hi)),
    fun p hp => by rw [State.roleOf, hk.roles]; exact (congrArg (fun r => (tget role0 r p).role) hbulk.roles).trans (h2 p hp),
    hk.devStroke.trans (hbulk.devStroke.trans (by rw [hst]; rfl))⟩

/-- BOOT of an image that verifies, up to stage 3. -/
theorem booted_bootImage {s : State} (ht : s.mgmt.nor.torn = false) (hf : s.fwFault s.mgmt.nor.firmware = none) :
    Booted s (s.bootImage none) := by
  set v : State := { s.setStage 1 with mgmt := { (s.setStage 1).mgmt with
    fwImage := s.mgmt.nor.firmware, fwVersion := fwVersionOf s.mgmt.nor.firmware, fwSvn := fwSvnOf s.mgmt.nor.firmware } } with hv
  have himage : s.bootImage none = v.bootClock none := by
    have hf' : (s.setStage 1).fwFault s.mgmt.nor.firmware = none := hf
    unfold State.bootImage
    dsimp only
    rw [show (s.setStage 1).mgmt.nor = s.mgmt.nor from rfl, ht, if_neg (by simp), hf']
    rfl
  rw [himage]
  obtain ⟨h1, h2, h3, h4, h5, h6, h7⟩ := booted_bootClock (s := v) rfl
  exact ⟨h1, h2, h3, h4, h5, h6, h7⟩

/-- A write of `HBM_PC_CLR` clears the count of each pseudo-channel of its stack that it names. -/
theorem foldl_clearCe (k : Nat) (bits : Word) (l : List Nat) (s : State) (hl : ∀ c ∈ l, c < 32) :
    ∃ pcs, l.foldl (fun s c => if bits.getLsbD c then s.setPc (32 * k + c) { s.pc (32 * k + c) with ceCnt := 0 } else s) s =
        { s with mem := { s.mem with pcs := pcs } } ∧
      ∀ q, tget pc0 pcs q = if q / 32 = k ∧ q % 32 ∈ l ∧ bits.getLsbD (q % 32) = true then { s.pc q with ceCnt := 0 } else s.pc q := by
  induction l generalizing s with
  | nil => exact ⟨s.mem.pcs, rfl, fun q => by simp [State.pc]⟩
  | cons c l ih =>
    have hc := hl c List.mem_cons_self
    have hl' : ∀ c ∈ l, c < 32 := fun x hx => hl x (List.mem_cons_of_mem _ hx)
    rw [List.foldl_cons]
    cases hb : bits.getLsbD c
    · rw [if_neg (by simp)]
      obtain ⟨pcs, he, hq⟩ := ih s hl'
      refine ⟨pcs, he, fun q => ?_⟩
      rw [hq q]
      have : q % 32 ∈ c :: l ∧ bits.getLsbD (q % 32) = true ↔ q % 32 ∈ l ∧ bits.getLsbD (q % 32) = true := by
        rw [List.mem_cons]
        refine ⟨fun ⟨h1, h2⟩ => ⟨h1.resolve_left ?_, h2⟩, fun ⟨h1, h2⟩ => ⟨.inr h1, h2⟩⟩
        rintro rfl
        rw [hb] at h2
        cases h2
      simp only [this]
    · rw [if_pos rfl]
      obtain ⟨pcs, he, hq⟩ := ih (s.setPc (32 * k + c) { s.pc (32 * k + c) with ceCnt := 0 }) hl'
      refine ⟨pcs, he, fun q => ?_⟩
      rw [hq q]
      by_cases hqc : q = 32 * k + c
      · have h1 : q / 32 = k := by omega
        have h2 : q % 32 = c := by omega
        have hself : (s.setPc (32 * k + c) { s.pc (32 * k + c) with ceCnt := 0 }).pc q = { s.pc q with ceCnt := 0 } := by
          rw [hqc]
          exact tget_tset_self _ _ _ _
        rw [hself, if_pos (c := q / 32 = k ∧ q % 32 ∈ c :: l ∧ _) ⟨h1, by simp [h2], by rw [h2, hb]⟩]
        exact ite_self _
      · have hne : (s.setPc (32 * k + c) { s.pc (32 * k + c) with ceCnt := 0 }).pc q = s.pc q := by
          unfold State.pc State.setPc
          dsimp only
          rw [tget_tset_ne _ _ _ hqc]
        have : (q / 32 = k ∧ q % 32 ∈ c :: l ∧ bits.getLsbD (q % 32) = true) ↔ (q / 32 = k ∧ q % 32 ∈ l ∧ bits.getLsbD (q % 32) = true) := by
          rw [List.mem_cons]
          refine ⟨fun ⟨h1, h2, h3⟩ => ⟨h1, h2.resolve_left (fun h => hqc (by omega)), h3⟩, fun ⟨h1, h2, h3⟩ => ⟨h1, .inr h2, h3⟩⟩
        rw [hne]
        simp only [this]

/-! ### Words of one row -/

/-- A row of one word that takes every value. -/
theorem rowWrite_whole (name : String) (page off stride cnt : Nat) (half : Half) (lk : Bool) (old new : Word) :
    RegRow.write ⟨name, page, off, stride, cnt, half, [rf 0 32 .rw 0]⟩ lk old new = new := by
  rw [RegRow.write, List.foldl_cons, List.foldl_nil, write_rf rfl, withField_whole]

/-- The second write of the pair brings both halves of the wall clock. -/
theorem writeWord_wall {s : State} {p : Path} {lo : Word} (h : tget none s.loHeld (latchKey p Reg.mssWallLo) = some lo) (v : Word) :
    s.writeWord p ⟨.mss, 0, 0, 0x1000⟩ Reg.mssWallHi v = { (s.rset Reg.mssWallLo lo).rset Reg.mssWallHi v with
      loHeld := tset none s.loHeld (latchKey p Reg.mssWallLo) none } := by
  have hhi : rowAt ⟨.mss, 0, 0, 0x1000⟩ (Reg.mssWallHi % 0x1000) = some (⟨"MSS_WALL_HI", 0, 0x114, 8, 1, .hi, [rf 0 32 .rw 0]⟩, 0) := rfl
  have hlo : rowAt ⟨.mss, 0, 0, 0x1000⟩ (Reg.mssWallLo % 0x1000) = some (⟨"MSS_WALL_LO", 0, 0x110, 8, 1, .lo, [rf 0 32 .rw 0]⟩, 0) := rfl
  have hoff : Reg.mssWallHi - 4 = Reg.mssWallLo := rfl
  have hrw : (rf 0 32 .rw 0).acc != .ro := by decide
  rw [State.writeWord, hhi]
  dsimp only
  rw [hoff, h, hlo]
  simp only [List.any_cons, hrw, Bool.true_or, Bool.not_true, Bool.false_eq_true, if_false, rowWrite_whole]
  rfl

theorem writeWord_whole {s : State} {p : Path} {pg : Page} {off k page o stride cnt : Nat} {name : String}
    (hr : rowAt pg (off % 0x1000) = some (⟨name, page, o, stride, cnt, .none, [rf 0 32 .rw 0]⟩, k)) (hoff : off ≠ Reg.nocLdtSel) (v : Word) :
    s.writeWord p pg off v = s.rset off v := by
  rw [writeWord_eq hr rfl hoff, rowWrite_whole]
  rfl

theorem resume_of_no {s : State} (h : s.stroke.hold = .no) : s.resume = s := by
  rw [State.resume, h]

/-- A recovery image that verifies is written and booted. -/
theorem recoveryGo_of_sound {s : State} {image : List Byte} (hd : s.mgmt.dev = .recovery)
    (hi : bytesAt s.mgmt.recovery 0 (640 + leNat (bytesAt s.mgmt.recovery 12 4) % (16 * 2 ^ 20)) = image) (hf : s.fwFault image = none) :
    s.recoveryGo = State.bootImage { s with mgmt := { s.mgmt with
      dev := .boot, nor := { s.mgmt.nor with firmware := image, torn := false } } } none := by
  rw [State.recoveryGo, if_neg (not_not_intro hd), hi]
  dsimp only
  rw [hf]

theorem recoveryGo_of_fault {s : State} {image : List Byte} {k : Nat} (hd : s.mgmt.dev = .recovery)
    (hi : bytesAt s.mgmt.recovery 0 (640 + leNat (bytesAt s.mgmt.recovery 12 4) % (16 * 2 ^ 20)) = image) (hf : s.fwFault image = some k) :
    s.recoveryGo = s.rset Reg.pciRecovery (s.rget Reg.pciRecovery ||| 2) := by
  rw [State.recoveryGo, if_neg (not_not_intro hd), hi]
  dsimp only
  rw [hf]

theorem pageAt_hbmPcClr (k : Fin 12) : pageAt (Reg.hbmPcClr k.val) = some ⟨.hbm, 0, k.val + 1, 0x1000 * (0x21 + k.val)⟩ := by
  fin_cases k <;> rfl

theorem writeOwn_hbmPcClr (s : State) (p : Path) (k : Fin 12) (base : Nat) (bits : Word) :
    s.writeOwn p ⟨.hbm, 0, k.val + 1, base⟩ (Reg.hbmPcClr k.val) bits = s.clearCe k.val bits := by
  have hne : ∀ o ∈ [Reg.pciWake, Reg.pciRecovery, Reg.pciRingCfg, Reg.pciCplCi, Reg.mssWallHi, Reg.logCfg, Reg.logCi, Reg.pwrCap,
      Reg.stkLedgerCi, Reg.asyClr], Reg.hbmPcClr k.val ≠ o := by
    fin_cases k <;> decide
  have hoff : Reg.hbmPcClr k.val % 0x1000 = 0x180 := by
    unfold Reg.hbmPcClr
    omega
  simp only [List.mem_cons, List.not_mem_nil, or_false, forall_eq_or_imp, forall_eq] at hne
  obtain ⟨h1, h2, h3, h4, h5, h6, h7, h8, h9, h10⟩ := hne
  unfold State.writeOwn
  rw [if_neg h1, if_neg h2, if_neg (not_or.2 ⟨h3, h4⟩), if_neg h5, if_neg h6, if_neg h7, if_neg h8, if_neg h9, if_neg h10,
    if_pos ⟨rfl, Nat.succ_ne_zero _, hoff⟩]
  rfl

/-- A bit of a word, as its field of width 1. -/
theorem getLsbD_of_field {w : Word} {k n : Nat} (h : fieldNat w k 1 = n) : w.getLsbD k = n.testBit 0 := by
  rw [← h, testBit_fieldNat]
  simp

/-- The write of `MSS_WALL_HI` records a note of the wall clock, and tells of it (R438). -/
theorem exec_mssWallHiWrite {s : State} {p : Path} {v lo : Word} (hw : s.writable p Reg.mssWallHi)
    (hlo : tget none s.loHeld (latchKey p Reg.mssWallLo) = some lo) :
    let n := lo.toNat + 2 ^ 32 * v.toNat
    let w := (s.rset Reg.mssWallLo lo).rset Reg.mssWallHi v
    ∃ u, exec (.mssWallHiWrite p v) s = .next u ∧ Raised (({ w with
      loHeld := tset none s.loHeld (latchKey p Reg.mssWallLo) none
      mgmt := { s.mgmt with wall := s.mgmt.wall ++ [(BitVec.ofNat 64 n, s.mgmt.elapsed)] } } : State).setPair Reg.mssWallLo n) u pgMss 5 ∧
      u.rpair Reg.mssWallLo = n := by
  intro n w
  have hn : n < 2 ^ 64 := by
    have := lo.isLt
    have := v.isLt
    omega
  have he : exec (.mssWallHiWrite p v) s = .next (s.writeWall p ⟨.mss, 0, 0, 0x1000⟩ v) :=
    congrArg Host.Outcome.next (writeReg_of_writable (pg := ⟨.mss, 0, 0, 0x1000⟩) hw rfl (by decide) v)
  have hpair : State.rpair { w with loHeld := tset none s.loHeld (latchKey p Reg.mssWallLo) none } Reg.mssWallLo = n := by
    show (w.rget Reg.mssWallLo).toNat + 2 ^ 32 * (w.rget (Reg.mssWallLo + 4)).toNat = n
    rw [show Reg.mssWallLo + 4 = Reg.mssWallHi from rfl, rget_rset_self, rget_rset_ne _ _ (by decide), rget_rset_self]
  have hv : (BitVec.ofNat 64 n).toNat = n := by rw [BitVec.toNat_ofNat, Nat.mod_eq_of_lt hn]
  rw [he, State.writeWall, writeWord_wall hlo]
  dsimp only
  rw [show State.rpair _ Reg.mssWallLo = n from hpair, State.noteWall, hv]
  refine ⟨_, rfl, raised_raise (pg := ⟨.mss, 0, 0, pgMss⟩) rfl rfl rfl rfl rfl (fun c hc => by cases hc), ?_⟩
  refine Eq.trans ?_ (rpair_setPair (s := { w with
    loHeld := tset none s.loHeld (latchKey p Reg.mssWallLo) none
    mgmt := { s.mgmt with wall := s.mgmt.wall ++ [(BitVec.ofNat 64 n, s.mgmt.elapsed)] } }) (lo := Reg.mssWallLo) hn)
  unfold State.rpair
  rw [rget_raise_bare (page := pgMss) (pg := ⟨.mss, 0, 0, pgMss⟩) rfl rfl rfl (by decide) (by decide) (by decide) (by decide),
    rget_raise_bare (page := pgMss) (pg := ⟨.mss, 0, 0, pgMss⟩) rfl rfl rfl (by decide) (by decide) (by decide) (by decide)]
  rfl

theorem after_rf (lsb wid rst : Nat) (lk : Bool) (old : Nat) (new : Word) :
    (rf lsb wid .rw rst).after lk old (fieldNat new lsb wid) = fieldNat new lsb wid :=
  if_pos ⟨Nat.zero_le _, Nat.le_sub_one_of_lt (fieldNat_lt new lsb wid)⟩

/-- A bit of a word that takes both values. -/
theorem rbit_writeWord {s : State} {p : Path} {pg : Page} {off i k rst : Nat} {r : RegRow} (hr : rowAt pg (off % 0x1000) = some (r, i))
    (hh : r.half = .none) (hoff : off ≠ Reg.nocLdtSel) (v : Word) (hf : rf k 1 .rw rst ∈ r.fields) :
    (s.writeWord p pg off v).rbit off k = v.getLsbD k := by
  have h := fieldNat_writeWord (s := s) (p := p) hr hh hoff v hf
  rw [show (rf k 1 .rw rst).lsb = k from rfl, show (rf k 1 .rw rst).wid = 1 from rfl, after_rf] at h
  rw [State.rbit, getLsbD_of_field h, getLsbD_fieldNat _ _ _ _ Nat.one_pos, Nat.add_zero]

theorem writePending_of_none {s : State} (h : s.stp.pendingRec = none) : s.writePending = s := by
  rw [State.writePending, h]

theorem writePending_of_full {s : State} {r : LedgerRec} (h : s.stp.pendingRec = some r) (hr : s.ledgerRoom r = false) :
    s.writePending = s := by
  rw [State.writePending, h]
  exact if_neg (by rw [hr]; decide)

/-- The record that waited is written behind those of the ledger ring. -/
theorem writePending_of_room {s : State} {r : LedgerRec} (h : s.stp.pendingRec = some r) (hr : s.ledgerRoom r = true) :
    s.writePending.stp = { s.stp with pendingRec := none, ledger := s.stp.ledger ++ [r] } ∧ s.writePending.stroke = s.stroke ∧
      ∀ o, o ≠ Reg.stkLedgerPi → s.writePending.rget o = s.rget o := by
  have hset (u : State) (w : Word) (m : OutMsg) : ((u.rset Reg.stkLedgerPi w).send m).stp = u.stp ∧
      ((u.rset Reg.stkLedgerPi w).send m).stroke = u.stroke ∧
      ∀ o, o ≠ Reg.stkLedgerPi → ((u.rset Reg.stkLedgerPi w).send m).rget o = u.rget o :=
    ⟨rfl, rfl, fun o ho => rget_rset_ne u w ho⟩
  rw [State.writePending, h]
  dsimp only
  rw [if_pos hr]
  exact hset { s with stp := { s.stp with pendingRec := none, ledger := s.stp.ledger ++ [r] } } _ _

/-- A consumer index of the ledger lets the record that waits go where there is room. -/
theorem exec_stkLedgerCiWrite {s : State} {p : Path} {v : Word} (hw : s.writable p Reg.stkLedgerCi) (hh : s.stroke.hold = .no) :
    let w := s.rset Reg.stkLedgerCi v
    (s.stp.pendingRec = none → exec (.stkLedgerCiWrite p v) s = .next w) ∧
    (∀ r, s.stp.pendingRec = some r → w.ledgerRoom r = false → exec (.stkLedgerCiWrite p v) s = .next w) ∧
    (∀ r, s.stp.pendingRec = some r → w.ledgerRoom r = true → ∃ u,
      exec (.stkLedgerCiWrite p v) s = .next u ∧ u.stp.pendingRec = none ∧ u.stp.ledger = s.stp.ledger ++ [r] ∧
      u.rget Reg.stkLedgerCi = v) := by
  intro w
  have hword : s.writeWord p ⟨.stk, 0, 3, 0x13000⟩ Reg.stkLedgerCi v = w :=
    writeWord_whole (name := "STK_LEDGER_CI") (k := 0) (page := 3) (o := 0x14C) (stride := 4) (cnt := 1) rfl (by decide) v
  have he : exec (.stkLedgerCiWrite p v) s = .next (s.writeWord p ⟨.stk, 0, 3, 0x13000⟩ Reg.stkLedgerCi v).writePending.resume :=
    congrArg Host.Outcome.next (writeReg_of_writable (pg := ⟨.stk, 0, 3, 0x13000⟩) hw rfl (by decide) v)
  have hstp : w.stp = s.stp := rfl
  have hstroke : w.stroke = s.stroke := rfl
  have hci : w.rget Reg.stkLedgerCi = v := rget_rset_self _ _ _
  rw [he, hword, ← hstp]
  rw [← hstroke] at hh
  clear_value w
  refine ⟨fun h => ?_, fun r h hr => ?_, fun r h hr => ?_⟩
  · rw [writePending_of_none h, resume_of_no hh]
  · rw [writePending_of_full h hr, resume_of_no hh]
  · obtain ⟨h1, h2, h3⟩ := writePending_of_room h hr
    rw [resume_of_no (by rw [h2]; exact hh)]
    exact ⟨_, rfl, by rw [h1], by rw [h1], by rw [h3 _ (by decide), hci]⟩

/-- `PCI_RING_CFG` takes its size where it is in range, and its enable. -/
theorem exec_pciRingCfgWrite {s : State} {p : Path} {v : Word} (hw : s.writable p Reg.pciRingCfg) (hh : s.ring.held = []) :
    ∃ u, exec (.pciRingCfgWrite p v) s = .next u ∧ u = { s with regs := u.regs } ∧
      RegsKept s u (fun o => o = Reg.pciRingCfg) ∧ u.rbit Reg.pciRingCfg 4 = v.getLsbD 4 ∧
      u.rfield Reg.pciRingCfg 0 4 = if fieldNat v 0 4 ≤ 8 then fieldNat v 0 4 else s.rfield Reg.pciRingCfg 0 4 := by
  have hrow : rowAt ⟨.pci, 0, 0, 0⟩ (Reg.pciRingCfg % 0x1000) =
    some (⟨"PCI_RING_CFG", 0, 0x108, 4, 1, .none, [⟨0, 4, .rw, 0x0, 0, 8⟩, rf 4 1 .rw 0x0]⟩, 0) := rfl
  obtain ⟨hk, hs⟩ := writeWord_regs (s := s) (p := p) hrow rfl (by decide) v
  have h0 := fieldNat_writeWord (s := s) (p := p) hrow rfl (by decide) v (f := ⟨0, 4, .rw, 0x0, 0, 8⟩) List.mem_cons_self
  have h4 := rbit_writeWord (s := s) (p := p) hrow rfl (by decide) v (List.mem_cons_of_mem _ List.mem_cons_self)
  have he : exec (.pciRingCfgWrite p v) s = .next (s.writeWord p ⟨.pci, 0, 0, 0⟩ Reg.pciRingCfg v).flushCpls :=
    congrArg Host.Outcome.next (writeReg_of_writable (pg := ⟨.pci, 0, 0, 0⟩) hw rfl (by decide) v)
  have hheld : (s.writeWord p ⟨.pci, 0, 0, 0⟩ Reg.pciRingCfg v).ring.held = [] := by
    rw [hs]
    exact hh
  rw [flushCpls_of_none hheld] at he
  generalize s.writeWord p ⟨.pci, 0, 0, 0⟩ Reg.pciRingCfg v = u at *
  refine ⟨u, he, hs, fun o ho => hk o ho, h4, ?_⟩
  · refine h0.trans ?_
    simp [RField.after, State.rfield]

/-- `LOG_CFG` takes its fields; where the host log is turned on, its index goes to 0. -/
theorem exec_logCfgWrite {s : State} {p : Path} {v : Word} (hw : s.writable p Reg.logCfg) (hd : s.mgmt.dropped = false) :
    ∃ u, exec (.logCfgWrite p v) s = .next u ∧ u = { s with regs := u.regs } ∧
      RegsKept s u (fun o => o = Reg.logCfg ∨ o = Reg.logPi) ∧ u.rbit Reg.logCfg 11 = v.getLsbD 11 ∧
      u.rget Reg.logPi = if v.getLsbD 11 = true ∧ s.rbit Reg.logCfg 11 = false then 0 else s.rget Reg.logPi := by
  have hrow : rowAt ⟨.log, 0, 0, 0x3000⟩ (Reg.logCfg % 0x1000) = some (⟨"LOG_CFG", 0, 0x108, 4, 1, .none,
    [⟨0, 5, .rw, 0x0, 4, 20⟩, ⟨5, 3, .rw, 0x0, 0, 4⟩, rf 8 3 .rw 0x1, rf 11 1 .rw 0x0]⟩, 0) := rfl
  obtain ⟨hk, hs⟩ := writeWord_regs (s := s) (p := p) hrow rfl (by decide) v
  have hbit := rbit_writeWord (s := s) (p := p) hrow rfl (by decide) v (k := 11) (rst := 0x0) (by simp)
  have he : exec (.logCfgWrite p v) s = .next (s.writeLogCfg p ⟨.log, 0, 0, 0x3000⟩ v) :=
    congrArg Host.Outcome.next (writeReg_of_writable (pg := ⟨.log, 0, 0, 0x3000⟩) hw rfl (by decide) v)
  rw [State.writeLogCfg] at he
  generalize s.writeWord p ⟨.log, 0, 0, 0x3000⟩ Reg.logCfg v = w at *
  have hdrop : ∀ x : State, x = { s with regs := x.regs } → x.tellDrop = x := fun x hx =>
    tellDrop_of_quiet (.inl (by rw [hx]; exact hd))
  have hne : Reg.logCfg ≠ Reg.logPi := by decide
  by_cases hen : v.getLsbD 11 = true ∧ s.rbit Reg.logCfg 11 = false
  · rw [if_pos (by rw [hbit, hen.1, hen.2]; rfl), hdrop (w.rset Reg.logPi 0) (by rw [hs]; rfl)] at he
    refine ⟨_, he, by rw [hs]; rfl, fun o ho => ?_, ?_, ?_⟩
    · rw [rget_rset_ne _ _ (mt .inr ho), hk o (mt .inl ho)]
    · rw [State.rbit, rget_rset_ne _ _ hne]
      exact hbit
    · rw [rget_rset_self, if_pos hen]
  · rw [if_neg (by rw [hbit]; simpa using hen), hdrop w hs] at he
    exact ⟨w, he, hs, fun o ho => hk o (mt .inl ho), hbit, by rw [if_neg hen, hk _ (Ne.symm hne)]⟩

/-- A consumer index of the host log lets the word of dropped records go where there is room again. -/
theorem exec_logCiWrite {s : State} {p : Path} {v : Word} (hw : s.writable p Reg.logCi) :
    let w := s.rset Reg.logCi v
    (s.mgmt.dropped = false ∨ w.logRoom = false → exec (.logCiWrite p v) s = .next w) ∧
    (s.mgmt.dropped = true → w.logRoom = true → ∃ u, exec (.logCiWrite p v) s = .next u ∧
      Raised { w with mgmt := { s.mgmt with dropped := false } } u pgMss 4) := by
  intro w
  have hword : s.writeWord p ⟨.log, 0, 0, 0x3000⟩ Reg.logCi v = w :=
    writeWord_whole (name := "LOG_CI") (k := 0) (page := 0) (o := 0x110) (stride := 4) (cnt := 1) rfl (by decide) v
  have he : exec (.logCiWrite p v) s = .next (s.writeWord p ⟨.log, 0, 0, 0x3000⟩ Reg.logCi v).tellDrop :=
    congrArg Host.Outcome.next (writeReg_of_writable (pg := ⟨.log, 0, 0, 0x3000⟩) hw rfl (by decide) v)
  have hm : w.mgmt = s.mgmt := rfl
  rw [he, hword]
  clear_value w
  refine ⟨fun h => by rw [tellDrop_of_quiet (s := w) (by rwa [hm])], fun h1 h2 => ?_⟩
  rw [State.tellDrop, if_pos (by rw [h2, hm, h1]; rfl), hm]
  exact ⟨_, rfl, raised_raiseM (pg := ⟨.mss, 0, 0, pgMss⟩) rfl rfl rfl rfl _ _ _ _⟩

/-- Settles O50: each register by what its write sets in motion. -/
theorem managementWrites : Obligations.ManagementWrites := by
  unfold Obligations.ManagementWrites
  intro s p
  refine ⟨fun hw => ?_, ?_, fun hw => ?_, fun k bits hw => ?_, ?_, fun v hw => ?_, ?_, ?_, fun v hw hh => ?_, fun v hw hd => ?_, ?_⟩
  · have he : exec (.pciWake p) s = .next s.wakeUp :=
      congrArg Host.Outcome.next (writeReg_of_writable (pg := ⟨.pci, 0, 0, 0⟩) hw rfl (by decide) 1)
    rw [he]
    refine ⟨fun h => congrArg _ (if_pos ?_), fun h1 h2 => congrArg _ (if_neg ?_)⟩
    · rcases h with h | h <;> simp [h]
    · simp [h1, h2]
  · intro hw hd image
    have he : exec (.pciRecoveryGo p) s = .next s.recoveryGo :=
      congrArg Host.Outcome.next (writeReg_of_writable (pg := ⟨.pci, 0, 0, 0⟩) hw rfl (by decide) 1)
    rw [he]
    have hi : bytesAt s.mgmt.recovery 0 (640 + leNat (bytesAt s.mgmt.recovery 12 4) % (16 * 2 ^ 20)) = image := rfl
    clear_value image
    refine ⟨fun k hf => by rw [recoveryGo_of_fault hd hi hf], fun hf => ?_⟩
    rw [recoveryGo_of_sound hd hi hf]
    obtain ⟨h1, h2, h3, h4, h5, -, -⟩ := booted_bootImage (s := { s with mgmt := { s.mgmt with
      dev := .boot, nor := { s.mgmt.nor with firmware := image, torn := false } } }) rfl hf
    exact ⟨_, rfl, h3, h4, h5, h1, h2⟩
  · have he : exec (.asyClr p) s = .next s.clearAssay :=
      congrArg Host.Outcome.next (writeReg_of_writable (pg := ⟨.asy, 0, 0, 0x40000⟩) hw rfl (by decide) 1)
    rw [he]
    exact ⟨fun h => congrArg _ (if_pos h), fun h => congrArg _ (if_neg h)⟩
  · obtain ⟨pcs, hc, hq⟩ := foldl_clearCe k.val bits (List.range 32) s (fun c => List.mem_range.1)
    have he : exec (.hbmPcClr p k bits) s = .next (s.clearCe k.val bits) :=
      congrArg Host.Outcome.next ((writeReg_of_writable hw (pageAt_hbmPcClr k) (by unfold Reg.hbmPcClr; omega) bits).trans
        (writeOwn_hbmPcClr s p k _ bits))
    refine ⟨_, he.trans (congrArg Host.Outcome.next hc), rfl, fun q => ?_⟩
    have hmem : q % 32 ∈ List.range 32 := List.mem_range.2 (Nat.mod_lt _ (by decide))
    refine (hq q).trans ?_
    simp only [hmem, true_and]
  · exact fun v lo hw hlo => exec_mssWallHiWrite hw hlo
  · exact congrArg Host.Outcome.next (writeReg_of_writable (pg := ⟨.pwr, 0, 0, 0x50000⟩) hw rfl (by decide) v)
  · exact fun v hw hh => exec_stkLedgerCiWrite hw hh
  · intro v hw w
    have hrow : rowAt ⟨.pci, 0, 0, 0⟩ (Reg.pciCplCi % 0x1000) = some (⟨"PCI_CPL_CI", 0, 0x128, 4, 1, .none, [rf 0 12 .rw 0]⟩, 0) := rfl
    have hword : s.writeWord p ⟨.pci, 0, 0, 0⟩ Reg.pciCplCi v = w := by
      rw [writeWord_eq hrow rfl (by decide), RegRow.write, List.foldl_cons, List.foldl_nil, write_rf rfl, withField_low]
      rfl
    have he : exec (.pciCplCiWrite p v) s = .next w.flushCpls :=
      congrArg Host.Outcome.next ((writeReg_of_writable (pg := ⟨.pci, 0, 0, 0⟩) hw rfl (by decide) v).trans
        (congrArg State.flushCpls hword))
    rw [he]
    exact ⟨fun h => by rw [flushCpls_of_none (s := w) h], fun c h hr => ⟨_, congrArg _ (flushCpls_of_one (s := w) h hr), rfl, rfl⟩⟩
  · exact exec_pciRingCfgWrite hw hh
  · exact exec_logCfgWrite hw hd
  · exact fun v hw => exec_logCiWrite hw

end Sys2Proof.Machine
end

section
/-!
PROOFS. Resets, standby, a sensor that is silent, and filler work that does not check (R41, R43, R79, R155, R384, R431 to R434, R458, R491).
-/

namespace Sys2Proof.Machine

open Sys2Proof

/-! ### Power-on reset (R431, R432, R491) -/

theorem holdReset_rget (s : State) (b : Bool) (o : Nat) :
    (s.holdReset b).rget o = if o = Reg.nocLdtSel then s.fuses.ldtVer.zeroExtend 32 else resetWord o := by
  show (State.reset.rset Reg.nocLdtSel (s.fuses.ldtVer.zeroExtend 32)).rget o = _
  by_cases h : o = Reg.nocLdtSel
  · rw [if_pos h, h, rget_rset_self]
  · rw [if_neg h, rget_rset_ne _ _ h]
    rfl

theorem fwFault_congr {s t : State} (h : t.fuses = s.fuses) (image : List Byte) : t.fwFault image = s.fwFault image := by
  unfold State.fwFault
  rw [h]

/-- The device behind the release of reset, before BOOT. -/
def State.released (s : State) (strap : Bool) : State :=
  let t := s.holdReset s.mgmt.pwrgood
  ({ t with mgmt := { t.mgmt with strapRcv := strap, pwrgood := true, resetN := true } } : State).setDev .boot

theorem released_kept (s : State) (strap : Bool) : (s.released strap).fuses = s.fuses ∧ (s.released strap).brn.fences = s.brn.fences ∧
    (s.released strap).mgmt.nor.firmware = s.mgmt.nor.firmware ∧
    (s.released strap).mgmt.nor.torn = (s.mgmt.nor.torn || !s.ring.fwWrite.isEmpty) ∧ (s.released strap).mgmt.dev = .boot ∧
    (s.released strap).stroke.devStroke = 0 := ⟨rfl, rfl, rfl, rfl, rfl, rfl⟩

theorem powerOn_eq {s : State} {b : BootObs} (h : s.pwr.clocksStopped = false) :
    s.powerOn b = if b.strapRcv then ((s.released b.strapRcv).setStage 1).setDev .recovery else (s.released b.strapRcv).bootImage b.railFault := by
  have hc : (s.holdReset s.mgmt.pwrgood).pwr.clocksStopped = false := by
    show (s.pwr.clocksStopped && s.mgmt.pwrgood) = false
    rw [h, Bool.false_and]
  unfold State.powerOn State.released
  dsimp only
  generalize s.holdReset s.mgmt.pwrgood = t at *
  simp only [hc, Bool.false_eq_true, if_false, State.setDev]

theorem bootRole_congr {s t : State} (h1 : t.fuses = s.fuses) (h2 : t.brn.fences = s.brn.fences) (p : Nat) : t.bootRole p = s.bootRole p := by
  unfold State.bootRole State.fenceOpen
  rw [h1, h2]

theorem bootImage_of_fault {s : State} {rail : Option Word} {k : Nat} (ht : s.mgmt.nor.torn = false)
    (hf : s.fwFault s.mgmt.nor.firmware = some k) : s.bootImage rail = (s.setStage 1).bootFails k := by
  have hf' : (s.setStage 1).fwFault s.mgmt.nor.firmware = some k := hf
  unfold State.bootImage
  dsimp only
  rw [show (s.setStage 1).mgmt.nor = s.mgmt.nor from rfl, ht, if_neg (by simp), hf']

/-! ### Resets of the endpoint (R431) -/

theorem tget_filter_above (b : Nat) (t : Tbl Word) (d : Word) (o : Nat) :
    tget d (t.filter (fun e => b ≤ e.1)) o = if b ≤ o then tget d t o else d := by
  induction t with
  | nil => simp [tget]
  | cons e t ih =>
    obtain ⟨j, v⟩ := e
    rw [List.filter_cons]
    by_cases hj : b ≤ j
    · simp only [hj, decide_true, if_true, tget, ih]
      by_cases ho : o = j
      · simp [ho, hj]
      · simp only [ho, if_false]
    · simp only [hj, decide_false, Bool.false_eq_true, if_false, tget, ih]
      by_cases ho : o = j
      · simp [ho, hj]
      · simp only [ho, if_false]

/-- A reset of the endpoint: its page and the indices of its ring are cleared, and it is told of. -/
theorem pciReset_spec {s : State} (why : Nat) (hd : s.mgmt.dev ≠ .off) :
    ∃ v : State, Raised v (s.pciReset why) pgMss 1 ∧ (∀ o, v.rget o = if 0x1000 ≤ o then s.rget o else resetWord o) ∧
      ∃ regs latches loHeld, v = { s with regs := regs, latches := latches, loHeld := loHeld, ring := { s.ring with prodIdx := 0, asked := 0 } } := by
  unfold State.pciReset
  rw [if_neg hd]
  dsimp only
  refine ⟨_, raised_raiseM (pg := ⟨.mss, 0, 0, pgMss⟩) rfl rfl rfl rfl _ _ _ _, fun o => ?_, _, _, _, rfl⟩
  exact tget_filter_above 0x1000 s.regs (resetWord o) o

/-! ### Standby (R293, R458) -/

/-- A change of each port that a list names and a condition, which no port enters, holds of. -/
theorem foldl_setPort (c : State → Nat → Bool) (f : PortSt → PortSt) (hc : ∀ s q x r, c (s.setPort q x) r = c s r) (hf : ∀ x, f (f x) = f x)
    (l : List Nat) (s : State) :
    ∃ ports, l.foldl (fun s q => if c s q then s.setPort q (f (s.port q)) else s) s = { s with fab := { s.fab with ports := ports } } ∧
      ∀ q, ({ s with fab := { s.fab with ports := ports } } : State).port q = if q ∈ l ∧ c s q = true then f (s.port q) else s.port q := by
  induction l generalizing s with
  | nil => exact ⟨_, rfl, fun q => by simp⟩
  | cons r l ih =>
    rw [List.foldl_cons]
    cases hr : c s r
    · rw [if_neg (by simp)]
      obtain ⟨ports, h1, h2⟩ := ih s
      refine ⟨ports, h1, fun q => (h2 q).trans ?_⟩
      by_cases hq : q = r
      · subst hq; simp [hr]
      · simp [hq]
    · rw [if_pos rfl]
      obtain ⟨ports, h1, h2⟩ := ih (s.setPort r (f (s.port r)))
      refine ⟨ports, h1, fun q => (h2 q).trans ?_⟩
      by_cases hq : q = r
      · subst hq
        rw [hc, hr, port_setPort_self, hf]
        simp
      · rw [hc, port_setPort_ne _ _ hq]
        simp [hq]

/-! ### Filler work (R79, R155, R384) -/

theorem evtSet_bump (s : State) {o page : Nat} (h : o ≠ page + oEvt) (n k : Nat) : (s.bump o n).evtSet page k = s.evtSet page k := by
  unfold State.evtSet State.rbit State.bump
  rw [rget_rset_ne _ _ (Ne.symm h)]

theorem once_fst (s : State) (key : Nat × Nat) : (s.once key).1 = true ↔ key ∈ s.stroke.told := by
  unfold State.once
  split
  · next h => simpa using h
  · next h => simpa using h

theorem rget_once (s : State) (key : Nat × Nat) (o : Nat) : (s.once key).2.rget o = s.rget o := by
  unfold State.once
  split <;> rfl

/-- A residue hit where the engine's EVT bit is clear: the event, its record withheld where the engine had one in the stroke, and what a
broken core leaves. -/
theorem residueHit_of_clear {s : State} {p v e : Nat} (hp : p < 144) (he : e < 4) (hs : s.evtSet (pgMe p e) 1 = false)
    (cap0 cap1 obs pred tile waiter : Nat) (stroke : DWord) (c : CheckRec) :
    ∃ u, Raised s u (pgMe p e) 1 ∧ s.residueHit p v e cap0 cap1 obs pred tile waiter stroke c =
      if (0x0601, 4 * p + e) ∈ s.stroke.told then u else u.coreBroke p v c := by
  have hpg : pageAt (pgMe p e) = some ⟨.me, 4 * p + e, 0, pgMe p e⟩ := by
    have h := pageAt_core (p := p) (b := 8 + e) hp (by omega)
    rw [show coreWin p + 0x1000 * (8 + e) = pgMe p e by unfold pgMe; omega] at h
    rw [h]
    interval_cases e <;> rfl
  have hb0 : pgMe p e % 0x1000 = 0 := by
    unfold pgMe coreWin
    omega
  obtain ⟨hl, hk, hset⟩ := raised_raise (s := (s.once (0x0601, 4 * p + e)).2) (page := pgMe p e) (k := 1)
    (e := { ev 0x0601 (pgMe p e) ((s.once (0x0601, 4 * p + e)).2.objC v (e * 1024 + tile * 128)) waiter cap0 with
      caps := [(0x130, cap0), (0x134, cap1), (0x138, obs), (0x13C, pred), (0x140, stroke.toNat % 2 ^ 32)]
      quiet := (s.once (0x0601, 4 * p + e)).1, test := ((s.once (0x0601, 4 * p + e)).2.roleOf p).role == .underTest })
    rfl hpg rfl rfl hb0 (by simp [oEvt])
  refine ⟨_, ⟨(logged_once s _).trans hl, fun o ho => (hk o ho).trans (rget_once s _ o), hset⟩, ?_⟩
  rw [State.residueHit]
  dsimp only
  rw [if_neg (by rw [show s.rbit (pgMe p e + oEvt) 1 = false from hs]; decide)]
  refine (if_congr ?_ rfl rfl)
  rw [once_fst]

/-- STANDBY is entered with every enabled port in keep-alive mode, and left once no port is in it. -/
theorem standby_clauses (s : State) :
    let trim (k : Nat) : Nat := if s.pwr.trimHold = [] then tget 0 s.pwr.trim k else 0
    let volt (k : Nat) : OutMsg := .avs (4 * s.fuses.vfuse.getD k 0 - 10 * trim k)
    (s.ring.standbyEntry = true → ∃ u, exec .standbyEntryComplete s = .next u ∧
      u = { s with
        mgmt := { s.mgmt with dev := .standby, out := s.mgmt.out ++ [volt 15] }
        ring := { s.ring with standbyEntry := false }
        fab := { s.fab with ports := u.fab.ports } } ∧
      ∀ q < 64, u.port q = if s.rbit (Reg.fabPortCfg q) 0 = true then { s.port q with keepalive := true } else s.port q) ∧
    (s.ring.standbyEntry = false → exec .standbyEntryComplete s = .next s) ∧
    (s.mgmt.dev = .standby → s.ring.wake = true → (∀ q < 64, (s.port q).up = true → (s.port q).keepalive = false) →
      ∃ u, exec .wakeComplete s = .next u ∧
      u = { s with
        mgmt := { s.mgmt with dev := .ready, out := s.mgmt.out ++ [volt (if s.pwr.rising then s.pwr.k - 1 else s.pwr.k)] }
        ring := { s.ring with wake := false }
        fab := { s.fab with ports := u.fab.ports } } ∧
      ∀ q < 64, u.port q = { s.port q with keepalive := false }) := by
  intro trim volt
  have hvolt (d : DevState) (hd : d ≠ .boot ∧ d ≠ .quarantine) (x : RingSt) (ports : Tbl PortSt) (k : Nat) :
      State.commandVolt { s with mgmt := { s.mgmt with dev := d }, ring := x, fab := { s.fab with ports := ports } } k =
        { s with mgmt := { s.mgmt with dev := d, out := s.mgmt.out ++ [volt k] }, ring := x, fab := { s.fab with ports := ports } } := by
    simp [State.commandVolt, State.trimNow, State.trimOf, State.send, hd.1, hd.2, volt, trim]
  refine ⟨fun h => ?_, fun h => ?_, fun hd hw hq => ?_⟩
  · obtain ⟨ports, h1, h2⟩ := foldl_setPort (fun s q => s.rbit (Reg.fabPortCfg q) 0) (fun x => { x with keepalive := true })
      (fun _ _ _ _ => rfl) (fun _ => rfl) (List.range 64) s
    refine ⟨{ s with
      mgmt := { s.mgmt with dev := .standby, out := s.mgmt.out ++ [volt 15] }
      ring := { s.ring with standbyEntry := false }
      fab := { s.fab with ports := ports } }, ?_, rfl, fun q hq => (h2 q).trans ?_⟩
    · rw [exec, execStandbyEntryComplete, State.standbyEntered, h]
      dsimp only
      rw [if_neg (by decide), h1]
      exact congrArg _ (hvolt .standby (by decide) _ ports 15)
    · simp [hq]
  · rw [exec, execStandbyEntryComplete, State.standbyEntered, h]
    rfl
  · obtain ⟨ports, h1, h2⟩ := foldl_setPort (fun _ _ => true) (fun x => { x with keepalive := false })
      (fun _ _ _ _ => rfl) (fun _ => rfl) (List.range 64) s
    refine ⟨{ s with
      mgmt := { s.mgmt with dev := .ready, out := s.mgmt.out ++ [volt (if s.pwr.rising then s.pwr.k - 1 else s.pwr.k)] }
      ring := { s.ring with wake := false }
      fab := { s.fab with ports := ports } }, ?_, rfl, fun q hq => (h2 q).trans ?_⟩
    · have hall : (List.range 64).all (fun q => !((s.port q).up && (s.port q).keepalive)) = true := by
        rw [List.all_eq_true]
        intro q hm
        have := hq q (List.mem_range.1 hm)
        cases hu : (s.port q).up
        · rfl
        · simp [this hu]
      rw [exec, execWakeComplete, State.woken, if_pos (by rw [hd, hw, hall]; rfl)]
      simp only [if_true] at h1
      dsimp only
      rw [h1]
      exact congrArg _ (hvolt .ready (by decide) _ ports _)
    · simp [hq]

/-- Settles O53: resets by what they leave, standby by its ports and its voltage, filler work by the engine's event. -/
theorem resetsAndStates : Obligations.ResetsAndStates := by
  unfold Obligations.ResetsAndStates
  intro s
  refine ⟨fun ns h => ?_, fun b ns h => ?_, fun b hc ht hw => ?_, fun c hm hd => ?_, ?_, fun bus addr h => ?_, fun p e o hr hrole => ?_⟩
  · exact congrArg Host.Outcome.next (if_pos (by simpa using h))
  · have hne : (b && decide (ns < 2000)) = false := by
      rcases h with h | h
      · rw [h, Bool.false_and]
      · rw [decide_eq_false (Nat.not_lt.2 h), Bool.and_false]
    have hx : exec (.resetAssert b ns) s = .next (s.holdReset (b && s.mgmt.pwrgood)) := by
      rw [exec, execResetAssert, hne]
      rfl
    exact ⟨_, hx, rfl, rfl, rfl, holdReset_rget s _, rfl, rfl, rfl, rfl, rfl, rfl, rfl, rfl, rfl⟩
  · have hx : exec (.powerOnReset b) s = .next (s.powerOn b) := rfl
    obtain ⟨h1, h2, h3, h4, h5, h6⟩ := released_kept s b.strapRcv
    rw [hx, powerOn_eq hc]
    generalize s.released b.strapRcv = t at *
    have htorn : t.mgmt.nor.torn = false := by rw [h4, ht, hw]; rfl
    have hfault : t.fwFault t.mgmt.nor.firmware = s.fwFault s.mgmt.nor.firmware := by rw [h3, fwFault_congr h1]
    refine ⟨fun hs => ?_, fun hs hrail hf => ?_, fun k hs hf => ?_⟩
    · rw [hs]
      exact ⟨_, rfl, rfl⟩
    · rw [hs, if_neg (by decide), hrail]
      obtain ⟨k1, k2, -, -, k5, k6, k7⟩ := booted_bootImage htorn (hfault.trans hf)
      refine ⟨_, rfl, k1.trans h5, k2, k5.trans h3, k7.trans h6, fun p hp => ?_⟩
      have hrole := (k6 p hp).trans (bootRole_congr h1 h2 p)
      rw [hrole]
      unfold State.bootRole
      refine ⟨fun hm => if_pos (by simpa using hm), fun hm hf => ?_, fun hm hf => ?_⟩
      · rw [if_neg (by simpa using hm), if_pos hf]
      · rw [if_neg (by simpa using hm), hf, if_neg (by decide)]
    · rw [hs, if_neg (by decide), bootImage_of_fault htorn (hfault.trans hf)]
      obtain ⟨hl, -, hset⟩ := raised_raiseM (page := pgMss) (code := 0x0801) (k := 0) (pg := ⟨.mss, 0, 0, pgMss⟩) rfl rfl rfl rfl
        ((t.setStage 1).setDev .recovery) 0 0 k
      exact ⟨_, rfl, hl.dev, hset⟩
  · have hx : ∃ why, exec c s = .next (s.pciReset why) := by
      simp only [List.mem_cons, List.not_mem_nil, or_false] at hm
      rcases hm with rfl | rfl | rfl
      · exact ⟨1, rfl⟩
      · exact ⟨2, rfl⟩
      · exact ⟨3, rfl⟩
    obtain ⟨why, hx⟩ := hx
    obtain ⟨v, ⟨hl, hk, hset⟩, hv, regs, latches, loHeld, hs⟩ := pciReset_spec why hd
    refine ⟨_, hx, hset, fun o ho => ?_, fun o ho hne => ?_, ?_⟩
    · rw [hk o, hv o, if_neg (by omega)]
      rintro (h | h | h)
      · have : pgMss = 0x1000 := rfl
        omega
      · rw [h] at ho; exact absurd ho (by decide)
      · rw [h] at ho; exact absurd ho (by decide)
    · rw [hk o hne, hv o, if_pos ho]
    · obtain ⟨_, _, _, _, _, _, _, _, _, hl⟩ := hl
      rw [hl, hs]
      exact ⟨rfl, rfl, rfl, rfl, rfl, rfl, rfl, rfl⟩
  · exact standby_clauses s
  · exact ⟨_, congrArg Host.Outcome.next (if_pos h), raised_raiseM (pg := ⟨.mss, 0, 0, pgMss⟩) rfl rfl rfl rfl _ _ _ _⟩
  · intro counted job
    have hne : Reg.meResCnt p e ≠ pgMe p e + oEvt := by
      unfold Reg.meResCnt pgMe oEvt
      omega
    have hevt : counted.evtSet (pgMe p e) 1 = s.evtSet (pgMe p e) 1 := evtSet_bump s hne 1 1
    have hx (h : o.observed ≠ o.predicted) : ∃ cap0 cap1 ord, exec (.fillerResidueMismatch p e o) s = .next (counted.residueHit p (s.roleOf p).v e
        cap0 cap1 o.observed.toNat o.predicted.toNat 0 0 s.stroke.jobStroke
        ⟨if o.cls then 2 else 1, e.val, 0, ord, cap0, cap1, o.observed.toNat, o.predicted.toNat⟩) :=
      ⟨_, _, _, congrArg Host.Outcome.next (if_neg (by simp [hr, hrole, h]))⟩
    refine ⟨fun h => congrArg Host.Outcome.next (if_pos (by simp [h])), fun h hs => ?_, fun h hs hj => ?_, fun h hs hj ht => ?_⟩
    · obtain ⟨cap0, cap1, ord, hx⟩ := hx h
      rw [hx, State.residueHit]
      exact congrArg Host.Outcome.next (if_pos (hevt.trans hs))
    · obtain ⟨cap0, cap1, ord, hx⟩ := hx h
      obtain ⟨u, hu, he⟩ := residueHit_of_clear (s := counted) (v := (s.roleOf p).v) p.isLt e.isLt (hevt.trans hs) cap0 cap1 o.observed.toNat
        o.predicted.toNat 0 0 s.stroke.jobStroke ⟨if o.cls then 2 else 1, e.val, 0, ord, cap0, cap1, o.observed.toNat, o.predicted.toNat⟩
      refine ⟨u, ?_, hu⟩
      rw [hx, he]
      split
      · rfl
      · refine congrArg _ (if_neg ?_)
        rw [State.roleOf, hu.1.roles, hu.1.dev]
        exact hj
    · obtain ⟨cap0, cap1, ord, hx⟩ := hx h
      obtain ⟨u, hu, he⟩ := residueHit_of_clear (s := counted) (v := (s.roleOf p).v) p.isLt e.isLt (hevt.trans hs) cap0 cap1 o.observed.toNat
        o.predicted.toNat 0 0 s.stroke.jobStroke ⟨if o.cls then 2 else 1, e.val, 0, ord, cap0, cap1, o.observed.toNat, o.predicted.toNat⟩
      refine ⟨u, ⟨if o.cls then 2 else 1, e.val, 0, ord, cap0, cap1, o.observed.toNat, o.predicted.toNat⟩, hu, ?_, rfl, rfl, rfl, rfl⟩
      rw [hx, he]
      refine congrArg Host.Outcome.next ((if_neg ht).trans (if_pos ?_))
      rw [State.roleOf, hu.1.roles, hu.1.dev]
      exact hj

end Sys2Proof.Machine
end

section

/-!
PROOFS. The answers of the management firmware (O52): what it does with a message of MCTP, and the seven requests of SPDM.
-/

namespace Sys2Proof.Machine

open Sys2Proof

/-- A message that reaches the firmware is acted on. -/
theorem exec_mctpPacket {s : State} {via : MctpVia} (hf : s.firmwareRuns = true) (hv : s.mctpFrom via = true) (m : MctpMsg) :
    exec (.mctpPacket via m) s = .next (s.mctpDo m) := by
  rw [exec, execMctpPacket, hf, hv]
  rfl

theorem mctpDo_regWrite {off : Nat} (h : off < 0x2000000) (v : Word) (s : State) :
    s.mctpDo (.regWrite off v) = (s.writeReg .mctp off v).send (.mctp none) := by
  rw [State.mctpDo, bar0Size, if_neg (Nat.not_le.2 h)]

theorem mctpDo_regRead {s : State} {off : Nat} (h : off < 0x2000000) (hh : halfOf (off - off % 4) = .none) :
    s.mctpDo (.regRead off) = s.send (.mctp (some (s.readNow .mctp (off - off % 4)))) := by
  rw [State.mctpDo, bar0Size, if_neg (Nat.not_le.2 h), State.readReg, hh]

theorem fwUpdate_of_fault {s : State} {image : List Byte} {k : Nat} (h : s.fwFault image = some k) :
    Raised s (s.fwUpdate image none) pgMss 0 := by
  rw [State.fwUpdate, h]
  exact raised_raiseM (pg := ⟨.mss, 0, 0, pgMss⟩) rfl rfl rfl rfl s 0 0 k

/-- A change of the SPDM exchange leaves the firmware as it runs, so the answer goes out. -/
theorem answer_spdm {s : State} (hf : s.firmwareRuns = true) (alg caps : Bool) (start certs meas : List Byte) (n : Nat) (r : SpdmResp) :
    ({ s with
        mgmt := { s.mgmt with spdmAlg := alg, spdmCaps := caps, spdmStart := start, spdmCerts := certs, spdmMeas := meas }
        free := n } : State).answer r =
      ({ s with
        mgmt := { s.mgmt with spdmAlg := alg, spdmCaps := caps, spdmStart := start, spdmCerts := certs, spdmMeas := meas }
        free := n } : State).send (.spdm r) :=
  if_pos hf

theorem refuseSpdm_eq {s : State} (hf : s.firmwareRuns = true) : s.refuseSpdm = s.send (.spdm .error) := if_pos hf

theorem spdmReady_eq {s : State} (hf : s.firmwareRuns = true) : s.spdmReady = s.mgmt.spdmAlg := by
  rw [State.spdmReady, hf, Bool.true_and]

/-- A nonce takes four of the free values. -/
theorem nonce_snd (s : State) : s.nonce.2 = { s with free := s.free + 4 } := rfl

theorem exec_getDigests {s : State} (hf : s.firmwareRuns = true) (ha : s.mgmt.spdmAlg = true) :
    exec .getDigests s = .next (({ s with mgmt := { s.mgmt with
      spdmCerts := s.mgmt.spdmCerts ++ ([0x12, 0x81, 0, 0] ++ s.digestBytes), spdmMeas := [] } } : State).send
        (.spdm (.digests (s.mgmt.nor.certs.map (fun c => (c.1, sha256 c.2)))))) := by
  rw [exec, execGetDigests, spdmReady_eq hf, ha, Bool.not_true, if_neg Bool.false_ne_true]
  exact congrArg Host.Outcome.next (answer_spdm hf ..)

theorem exec_getCertificate {s : State} (hf : s.firmwareRuns = true) (ha : s.mgmt.spdmAlg = true) {slot : Fin 8} {c : List Byte} {off : Nat}
    (hc : s.chain slot = some c) (ho : off < c.length) (len : Nat) :
    exec (.getCertificate slot off len) s = .next (({ s with mgmt := { s.mgmt with
      spdmCerts := s.mgmt.spdmCerts ++ ([0x12, 0x82, BitVec.ofNat 8 slot.val, 0] ++ leBytes 2 off ++ leBytes 2 len ++
        certBytes slot ((c.drop off).take len) (c.length - (off + len)))
      spdmMeas := [] } } : State).send (.spdm (.certificate slot off ((c.drop off).take len) (c.length - (off + len))))) := by
  have hr : ¬ (!s.spdmReady ∨ c.length ≤ off) := by
    rw [spdmReady_eq hf, ha]
    simp [ho]
  rw [exec, execGetCertificate, hc]
  dsimp only
  rw [if_neg hr]
  exact congrArg Host.Outcome.next (answer_spdm hf ..)

theorem exec_challenge {s : State} (hf : s.firmwareRuns = true) (ha : s.mgmt.spdmAlg = true) {kind : Nat} {c sum : List Byte}
    (hc : s.chain 0 = some c) (hs : s.summary kind = some sum) (nonce : List Byte) :
    exec (.challenge 0 ⟨kind, nonce⟩) s = .next { ({ s with mgmt := { s.mgmt with spdmCerts := [], spdmMeas := [] } } : State).send
      (.spdm (.challengeAuth 0 s.nonce.1 sum
        (touchmarkSign (spdmSigned challengeContext (s.challengeText kind nonce c s.nonce.1 sum))))) with free := s.free + 4 } := by
  have hr : ¬ ((0 : Fin 8).val ≠ 0 ∨ !s.spdmReady) := by
    rw [spdmReady_eq hf, ha]
    decide
  rw [exec, execChallenge, show s.chain (0 : Fin 8).val = some c from hc, hs]
  dsimp only
  rw [if_neg hr, nonce_snd]
  exact congrArg Host.Outcome.next (answer_spdm hf ..)

theorem exec_getMeasurements {s : State} (hf : s.firmwareRuns = true) (ha : s.mgmt.spdmAlg = true) {idx : Nat} (hi : idx ≤ 9 ∨ idx = 0xFF)
    (signed : Bool) (nonce : List Byte) :
    exec (.getMeasurements idx signed nonce) s =
      .next { ({ s with mgmt := { s.mgmt with
          spdmMeas := if signed then [] else s.mgmt.spdmMeas ++ s.measText idx signed nonce s.nonce.1 } } : State).send
        (.spdm (.measurements (s.measBlocks idx) s.nonce.1 (if signed then some (touchmarkSign (spdmSigned measContext
          (s.mgmt.spdmStart ++ (s.mgmt.spdmMeas ++ s.measText idx signed nonce s.nonce.1)))) else none))) with free := s.free + 4 } := by
  have hr : ¬ (9 < idx ∧ idx ≠ 0xFF ∨ !s.spdmReady) := by
    rw [spdmReady_eq hf, ha]
    simp
    omega
  rw [exec, execGetMeasurements, if_neg hr]
  dsimp only
  rw [nonce_snd]
  exact congrArg Host.Outcome.next (answer_spdm hf ..)

/-- Before the algorithms are agreed, digests, challenges and measurements are answered with an error. -/
theorem spdm_of_noAlg {s : State} (hf : s.firmwareRuns = true) (ha : s.mgmt.spdmAlg = false) :
    exec .getDigests s = .next (s.send (.spdm .error)) ∧
      (∀ slot q, exec (.challenge slot q) s = .next (s.send (.spdm .error))) ∧
      ∀ idx signed nonce, exec (.getMeasurements idx signed nonce) s = .next (s.send (.spdm .error)) := by
  have hr : (!s.spdmReady) = true := by rw [spdmReady_eq hf, ha]; rfl
  rw [← refuseSpdm_eq hf]
  refine ⟨?_, fun slot q => ?_, fun idx signed nonce => ?_⟩
  · rw [exec, execGetDigests, if_pos hr]
  · rw [exec, execChallenge]
    cases s.chain slot.val with
    | none => rfl
    | some c =>
      cases s.summary q.kind with
      | none => rfl
      | some sum => exact congrArg Host.Outcome.next (if_pos (.inr hr))
  · rw [exec, execGetMeasurements, if_pos (.inr hr)]

/-- Settles O52: a message of MCTP by what it asks, a request of SPDM by whether the algorithms are agreed. -/
theorem firmwareAnswers : Obligations.FirmwareAnswers := by
  unfold Obligations.FirmwareAnswers
  intro s hf
  refine ⟨fun via hv => ⟨fun off v h => ?_, fun off h hh => ?_, fun image h => ?_, fun image k h => ?_, ?_⟩, fun peer udp m hp => ?_,
    fun hd => ?_, ?_⟩
  · rw [exec_mctpPacket hf hv, mctpDo_regWrite h]
  · rw [exec_mctpPacket hf hv, mctpDo_regRead h hh]
  · rw [exec_mctpPacket hf hv, State.mctpDo, State.fwUpdate, h]
  · exact ⟨_, exec_mctpPacket hf hv _, fwUpdate_of_fault h⟩
  · exact exec_mctpPacket hf hv _
  · rw [exec, execMctpPacket, State.mctpFrom]
    simp [hp]
  · rw [exec, execMctpWakeCommand, if_pos hf, State.wakeUp, hd]
    rfl
  · intro told
    refine ⟨?_, ?_, fun req caps => ?_, fun req caps a b hab => ?_, fun ha => ?_, spdm_of_noAlg hf⟩
    · rw [exec, execGetVersion, if_pos hf]
      exact congrArg Host.Outcome.next (answer_spdm hf ..)
    · rw [exec, execGetCapabilities, if_pos hf]
      exact congrArg Host.Outcome.next (answer_spdm hf ..)
    · rw [exec, execNegotiateAlgorithms, hf]
      exact congrArg Host.Outcome.next (answer_spdm hf ..)
    · rw [exec, execNegotiateAlgorithms, hf]
      dsimp only
      rw [hab]
      exact congrArg Host.Outcome.next (refuseSpdm_eq hf)
    · intro own after
      refine ⟨exec_getDigests hf ha, fun slot off len c hc ho => exec_getCertificate hf ha hc ho len,
        fun kind nonce c sum hc hs => exec_challenge hf ha hc hs nonce, fun idx nonce hi => ?_⟩
      exact ⟨exec_getMeasurements hf ha hi true nonce, exec_getMeasurements hf ha hi false nonce⟩

end Sys2Proof.Machine
end

section

/-!
PROOFS. How strokes end (O25): the stretch and the giving up of a late stroke, and the device stroke number of a boundary.
-/

namespace Sys2Proof.Machine

open Sys2Proof

/-- What a stroke with late streams leaves when it is given up. -/
theorem raised_giveUp {s : State} (hl : s.lateStreams ≠ []) {code k : Nat}
    (hk : evtBit ⟨.stk, 0, 1, pgStk 1⟩ code (sevOf code) = some k) :
    Raised { s with stroke := { s.stroke with hung := true, drainNext := true } } (s.giveUp code) (pgStk 1) k := by
  obtain ⟨⟨v, st⟩, rest, hr⟩ : ∃ x rest, s.lateStreams = x :: rest := List.exists_cons_of_ne_nil hl
  have h := raised_raise (page := pgStk 1) (pg := ⟨.stk, 0, 1, pgStk 1⟩) (e := ev code (pgStk 1) (s.objC v st.codeNat) 0 (rest.length + 1)) rfl rfl
    hk rfl rfl (fun c hc => by cases hc) (s := s)
  rw [State.giveUp, hr]
  exact h.stroke (fun x => { x with hung := true, drainNext := true }) fun _ _ => rfl

theorem exec_strokeEndReached_of_late {s : State} (hc : s.clockRuns = true) (hl : s.lateStreams ≠ []) (hh : s.stroke.hold = .no) :
    exec .strokeEndReached s = .next (if s.rbit Reg.stkStrokeCfg 8 then s.giveUp 0x0303
      else { s with stroke := { s.stroke with stretched := true } }) := by
  have he : s.lateStreams.isEmpty = false := by simpa using hl
  rw [exec, execStrokeEndReached, hc, hh, he]
  rfl

theorem exec_stretchMaxExpiry_of_stretched {s : State} (hc : s.clockRuns = true) (hs : s.stroke.stretched = true)
    (hh : s.stroke.hung = false) (hm : s.rfield Reg.stkStrokeCfg 16 8 ≠ 0) : exec .stretchMaxExpiry s = .next (s.giveUp 0x0302) := by
  rw [exec, execStretchMaxExpiry, hc, hs, hh]
  exact congrArg Host.Outcome.next (if_pos (by simpa using hm))

/-- Settles O25: a late stroke by its policy, and a boundary by what it keeps (`rises_boundary`). -/
theorem strokesEnd : Obligations.StrokesEnd := by
  unfold Obligations.StrokesEnd
  refine ⟨fun s hc hl => ⟨fun hh hp => ?_, fun hh hp => ?_, fun hs hh hm => ?_⟩, fun s b hm => ?_⟩
  · rw [exec_strokeEndReached_of_late hc hl hh, hp]
    rfl
  · rw [exec_strokeEndReached_of_late hc hl hh, hp]
    exact ⟨_, rfl, raised_giveUp hl rfl⟩
  · rw [exec_stretchMaxExpiry_of_stretched hc hs hh hm]
    exact ⟨_, rfl, raised_giveUp hl rfl⟩
  · refine ⟨s.boundary b, ?_, (rises_boundary s b).devStroke⟩
    rw [exec, execStrokeBoundary, if_pos hm]

end Sys2Proof.Machine
end

section

/-!
PROOFS. What is sent again and what is replayed (O29), on what every operation of the collectives leaves alone (`State.fixed`).
-/

namespace Sys2Proof.Machine

open Sys2Proof

/-- A boundary that is not held does not go on. -/
theorem resume_of_fixed {s t : State} (h : s.stroke.hold = .no) (k : t.fixed = s.fixed) : t.resume = t :=
  resume_of_no ((congrArg Fixed.hold k).trans h)

theorem takeReplay_hold (s : State) (r : LedgerRec) : (s.takeReplay r).stroke.hold = s.stroke.hold :=
  congrArg Fixed.hold (fixed_takeReplay s r)

theorem takeReplay_replayRecs (s : State) (r : LedgerRec) :
    (s.takeReplay r).stp.replayRecs = s.stp.replayRecs.filter (fun (x : LedgerRec) => x.step != r.step) ++ [r] :=
  congrArg Fixed.replayRecs (fixed_takeReplay s r)

/-- A sound record of the job's replay, of this step or one of the next two, is taken. -/
theorem exec_replayRecordArrival_of_sound {s : State} {bs : List Byte} {r : LedgerRec} (hr : recordOf bs = some r) (hp : s.job.present = true)
    (hj : s.job.params.replay = true) (hd : (r.step - s.stroke.step).toNat ≤ 2) :
    exec (.replayRecordArrival bs) s = .next (s.takeReplay r).resume := by
  rw [exec, execReplayRecordArrival, hr]
  dsimp only
  rw [hp, hj, decide_eq_true hd]
  rfl

/-- Settles O29: a verdict goes to each member that is owed it, and a record replaces those of its step. -/
theorem resentAndReplayed : Obligations.ResentAndReplayed := by
  unfold Obligations.ResentAndReplayed
  refine fun s => ⟨fun v h => by rw [exec, execVerdictResend, h], fun bs r hr hp hj hd hh => ?_⟩
  refine ⟨s.takeReplay r, ?_, ?_, fun x hx => ?_⟩
  · rw [exec_replayRecordArrival_of_sound hr hp hj hd, resume_of_no ((takeReplay_hold s r).trans hh)]
  · rw [takeReplay_replayRecs]
    simp
  · rw [takeReplay_replayRecs] at hx
    simpa [or_comm] using hx

end Sys2Proof.Machine
end

section

/-!
PROOFS. The abort of a job (O32): one that is marked aborted already does not drain the device at once.
-/

namespace Sys2Proof.Machine

open Sys2Proof

/-- ABORT of the operation with tag 7. -/
def abortSeven : RingEntry := Tests.entry 2 [7, 0, 0, 0] Tests.refs0

/-- A device in RUN whose job, of tag 7, is marked aborted while its operation is still open. -/
def abortedOnce : State := { Tests.live with job := { Tests.live.job with cmd := some ⟨7, 1⟩, aborted := true } }

theorem abortedOnce_takes : abortedOnce.ringTakes 0x02 abortSeven :=
  ⟨.inr (.inl rfl), rfl, by decide +kernel, by decide +kernel, by decide +kernel, fun _ => .inl (by decide +kernel)⟩

/-- Refutes O32: the device enters DRAIN at an abort only where it newly marks the job aborted, so that one whose job carries the mark and an
open operation answers both and stays in RUN. -/
theorem not_jobsStartAndAbort : ¬ Obligations.JobsStartAndAbort := by
  unfold Obligations.JobsStartAndAbort
  intro h
  have he := h.2 abortedOnce abortSeven ⟨7, 1⟩ abortedOnce_takes rfl rfl rfl (by decide +kernel) rfl
  have hrun : (match exec (.abort abortSeven) abortedOnce with
    | .next t => t.mgmt.dev == .run
    | _ => false) = true := by decide +kernel
  rw [he] at hrun
  exact absurd hrun (by decide)

end Sys2Proof.Machine
end

section

/-!
PROOFS. The path of an arriving frame (O39, O37): what each check does with it, and what a packet outside the sequence of its flow does.
-/

namespace Sys2Proof.Machine

open Sys2Proof

/-! ### A frame whose boundary waits for nothing -/

/-- A frame that its row takes goes through the checks; no boundary goes on with it. -/
theorem frameOf_of_hold {s : State} (hh : s.stroke.hold = .no) (r : Rx) : s.frameOf true r = s.onFrame r :=
  resume_of_fixed hh (fixed_onFrame s r)

/-- The command of a packet's type takes its frame. -/
theorem exec_packetCmd {s : State} {r : Rx} (hh : s.stroke.hold = .no) (h0 : r.pkt.typ ≠ 0) (h5 : r.pkt.typ ≠ 5) :
    exec (packetCmd r) s = .next (s.onFrame r) := by
  have hf := frameOf_of_hold hh r
  unfold packetCmd
  split
  case h_9 h1 h2 h3 h4 h6 h7 h8 h9 =>
    have hten : ((r.pkt.typ == 0 && (s.loadOfPkt r.pkt).isNone) || decide (10 ≤ r.pkt.typ)) = true := by
      refine Bool.or_eq_true _ _ ▸ .inr (decide_eq_true ?_)
      rw [imp_false] at h1 h2 h3 h4 h6 h7 h8 h9
      omega
    rw [exec, execIgsumDataPacket, hten, hf]
  case h_1 h => rw [exec, execContribPacket, h, ← hf]; rfl
  case h_2 h => rw [exec, execResultPacket, h, ← hf]; rfl
  case h_3 h => rw [exec, execAck, h, ← hf]; rfl
  case h_4 h => rw [exec, execNack, h, ← hf]; rfl
  case h_5 h => rw [exec, execHello, h, ← hf]; rfl
  case h_6 h => rw [exec, execHeartbeat, h, ← hf]; rfl
  case h_7 h => rw [exec, execPace, h, ← hf]; rfl
  case h_8 h => rw [exec, execBlame, h, ← hf]; rfl

theorem loadOfPkt_of_typ {s : State} {p : Pkt} (h : p.typ ≠ 0) : s.loadOfPkt p = none := if_neg fun hp => h hp.1

/-- A frame of no load, at a port that carries it, is received. -/
theorem onFrame_of_up {s : State} {r : Rx} (hu : (s.port r.port).up = true)
    (hk : (s.port r.port).keepalive = true → pktClass r.pkt.typ (s.ctx (r.pkt.flow % 4096)).tc = 0) (hl : s.loadOfPkt r.pkt = none) :
    s.onFrame r = (s.receive r).1.foldl (fun s m => s.onMsg r.pkt m) (s.receive r).2 := by
  have hc : (!(s.port r.port).up || ((s.port r.port).keepalive && pktClass r.pkt.typ (s.ctx (r.pkt.flow % 4096)).tc != 0)) = false := by
    cases h : (s.port r.port).keepalive
    · simp [hu]
    · simp [hu, hk h]
  rw [State.onFrame]
  dsimp only
  rw [hc, hl]
  rfl

/-- A frame that fails a check leaves what the check left. -/
theorem onFrame_refused {s u : State} {r : Rx} (hu : (s.port r.port).up = true) (hk : (s.port r.port).keepalive = false)
    (hl : s.loadOfPkt r.pkt = none) (hc : s.check r (r.pkt.flow % 4096) = (false, none, u)) : s.onFrame r = u := by
  rw [onFrame_of_up hu (fun h => absurd (hk.symm.trans h) (by decide)) hl, State.receive, hc]
  rfl

/-! ### The checks (R301) -/

theorem check_of_badFcs {s : State} {r : Rx} {f : Nat} (h : r.fcsOk = false) :
    s.check r f = (false, none, if (s.port r.port).llr then s.send (.linkRetry r.port r.frame) else s) := by
  rw [State.check]
  dsimp only
  rw [h]
  rfl

theorem check_of_badHeader {s : State} {r : Rx} {f : Nat} (h : r.fcsOk = true)
    (hb : s.headersOk r = false ∨ r.pkt.ver ≠ 1 ∨ 9 < r.pkt.typ ∨ r.pkt.len ≠ r.pkt.payload.length) :
    s.check r f = (false, none, s.bump Reg.igsHmRefused 1) := by
  have hc : (!s.headersOk r || r.pkt.ver != 1 || decide (9 < r.pkt.typ) || r.pkt.len != r.pkt.payload.length) = true := by
    simpa [or_assoc] using hb
  rw [State.check]
  dsimp only
  rw [h, hc]
  rfl

/-- The state behind the count of CE. -/
def State.ceCounted (s : State) (r : Rx) : State := if s.carriesCe r then s.bump Reg.igsCeMarked 1 else s

/-- Behind its headers, a frame's context and CRC are looked at, then its epoch. -/
theorem check_of_header {s : State} {r : Rx} {f : Nat} (h : r.fcsOk = true) (hh : s.headersOk r = true) (hv : r.pkt.ver = 1)
    (ht : r.pkt.typ ≤ 9) (hl : r.pkt.len = r.pkt.payload.length) : s.check r f =
      if !((s.ceCounted r).ctx f).valid then (false, none, s.ceCounted r)
      else if r.pkt.crc ≠ pktCrc r.pkt then (false, none, (s.ceCounted r).sendNack f r.pkt.epoch r.pkt.seq 1)
      else (s.ceCounted r).checkEpoch f r.pkt (s.carriesCe r) := by
  have hc : (!s.headersOk r || r.pkt.ver != 1 || decide (9 < r.pkt.typ) || r.pkt.len != r.pkt.payload.length) = false := by
    simp [hh, hv, hl, ht]
  rw [State.check]
  dsimp only
  rw [h, hc]
  rfl

/-- A packet of the epoch before, which nothing here still drains. -/
theorem checkEpoch_of_old {s : State} {f : Nat} {p : Pkt} (he : p.epoch + 1 = s.epoch.cur) (hd : s.draining p = false) (ce : Bool) :
    s.checkEpoch f p ce = (false, none, (s.bump Reg.igsEpochRefused 1).sendNack f p.epoch p.seq 3) := by
  have hne : p.epoch ≠ s.epoch.cur ∧ !(decide (p.epoch + 1 = s.epoch.cur ∧ s.draining p)) := by
    refine ⟨fun h => ?_, by simp [hd]⟩
    rw [← he] at h
    exact absurd h (by bv_omega)
  rw [State.checkEpoch, if_pos hne, if_pos he]

/-- Settles O39: a frame that fails a check leaves what the check does (`onFrame_refused`). -/
theorem refusedPackets : Obligations.RefusedPackets := by
  unfold Obligations.RefusedPackets
  intro s r h0 h5 hu hk hh hf
  have hmod : r.pkt.flow % 4096 = r.pkt.flow := Nat.mod_eq_of_lt hf
  have refused : ∀ u, s.check r r.pkt.flow = (false, none, u) → exec (packetCmd r) s = .next u := fun u hc => by
    rw [exec_packetCmd hh h0 h5, onFrame_refused hu hk (loadOfPkt_of_typ h0) (hmod.symm ▸ hc)]
  refine ⟨fun h => refused _ (check_of_badFcs h), fun h hb => refused _ (check_of_badHeader h hb), fun h hh hv ht hl hce => ?_⟩
  have hcheck := check_of_header (f := r.pkt.flow) h hh hv ht hl
  rw [show s.ceCounted r = s by rw [State.ceCounted, hce]; rfl] at hcheck
  refine ⟨fun hc => refused _ ?_, fun hc hcrc => refused _ ?_, fun hc hcrc he hd => refused _ ?_⟩
  · rw [hcheck, hc]; rfl
  · rw [hcheck, hc, if_neg (by decide), if_pos hcrc]
  · rw [hcheck, hc, if_neg (by decide), if_neg (not_not.2 hcrc), checkEpoch_of_old he hd]

end Sys2Proof.Machine
end

section

/-!
PROOFS. Packets that are accepted, outside the sequence of their flow (O37).
-/

namespace Sys2Proof.Machine

open Sys2Proof

/-! ### A packet that is delivered -/

/-- A packet of the epoch, its hallmark fragment the device's: its peer has been heard. -/
theorem checkEpoch_of_current {s : State} {f : Nat} {p : Pkt} (he : p.epoch = s.epoch.cur)
    (hm : p.typ ≠ 6 → p.hmf = hmfOf s.fab.hallmark ∧ (s.flow f).refused = false) (ce : Bool) :
    s.checkEpoch f p ce = (true, none, ({ s with fab := { s.fab with silent := s.fab.silent.filter (· != p.src) } } : State).setFlow f
      { s.flow f with heard := true, lastHeard := s.stroke.jobStroke, ce := (s.flow f).ce || ce }) := by
  have hc : ¬ (p.epoch ≠ s.epoch.cur ∧ !(decide (p.epoch + 1 = s.epoch.cur ∧ s.draining p))) := fun h => h.1 he
  have hne : p.epoch + 1 ≠ s.epoch.cur := by rw [← he]; bv_omega
  have hh : ¬ (p.typ ≠ 6 ∧ (p.hmf ≠ s.hmfFor p.epoch ∨ (s.flow f).refused)) := by
    rintro ⟨h6, h⟩
    obtain ⟨h1, h2⟩ := hm h6
    rw [State.hmfFor, if_neg hne, h2] at h
    exact h.elim (fun h => h h1) (fun h => absurd h (by decide))
  rw [State.checkEpoch, if_neg hc]
  dsimp only
  rw [if_neg hh]

/-- The state behind the checks of a packet that is delivered. -/
def State.accepted (s : State) (r : Rx) : State :=
  ({ s.ceCounted r with fab := { s.fab with silent := s.fab.silent.filter (· != r.pkt.src) } } : State).setFlow r.pkt.flow (s.heardFlow r)

/-- The count of CE is a register's. -/
theorem ceCounted_only (s : State) (r : Rx) : ∃ regs, s.ceCounted r = { s with regs := regs } := by
  unfold State.ceCounted
  split
  · exact ⟨_, rfl⟩
  · exact ⟨s.regs, rfl⟩

theorem kept_ceCounted (s : State) (r : Rx) : RegsKept s (s.ceCounted r) (· = Reg.igsCeMarked) := by
  unfold State.ceCounted
  split
  · exact kept_bump _ _ _ rfl
  · exact fun _ _ => rfl

theorem check_of_delivers {s : State} {r : Rx} (h : s.delivers r) (h9 : r.pkt.typ ≤ 9) : s.check r r.pkt.flow = (true, none, s.accepted r) := by
  obtain ⟨-, -, hfcs, hhdr, hver, hlen, -, hvalid, hcrc, hep, hhm, -⟩ := h
  obtain ⟨regs, hce⟩ := ceCounted_only s r
  rw [check_of_header hfcs hhdr hver h9 hlen, State.accepted, hce,
    show ({ s with regs := regs } : State).ctx r.pkt.flow = s.ctx r.pkt.flow from rfl, hvalid, if_neg (by decide),
    if_neg (not_not.2 hcrc)]
  exact checkEpoch_of_current (s := { s with regs := regs }) hep hhm _

theorem arrived_accepted (s : State) (r : Rx) : Arrived s (s.accepted r) r (s.heardFlow r) := by
  obtain ⟨regs, hce⟩ := ceCounted_only s r
  refine ⟨kept_ceCounted s r, ?_, fun g => ?_⟩
  · rw [State.accepted, hce]
    rfl
  · split
    next hg =>
      rw [hg]
      exact flow_setFlow_self ..
    next hg =>
      rw [State.accepted, flow_setFlow_ne _ _ hg, hce]
      rfl

theorem flow_accepted (s : State) (r : Rx) : (s.accepted r).flow r.pkt.flow = s.heardFlow r := flow_setFlow_self ..

/-- The message of a packet outside the sequence of its flow. -/
def plainMessage (p : Pkt) : Msg := { messageOf p with nf := false }

/-- A packet that is delivered outside the sequence of its flow is a message of its own. -/
theorem onFrame_of_plain {s : State} {r : Rx} (h : s.delivers r) (h9 : r.pkt.typ ≤ 9) (hs : sequenced r.pkt.typ = false) :
    s.onFrame r = (s.accepted r).onMsg r.pkt (plainMessage r.pkt) := by
  have hc := check_of_delivers h h9
  obtain ⟨hup, hkeep, -, -, -, -, hflow, -⟩ := h
  have hmod : r.pkt.flow % 4096 = r.pkt.flow := Nat.mod_eq_of_lt hflow
  have h0 : r.pkt.typ ≠ 0 := by
    intro h0
    rw [h0] at hs
    exact absurd hs (by decide)
  rw [onFrame_of_up hup (hmod.symm ▸ hkeep) (loadOfPkt_of_typ h0), State.receive, hmod, hc, State.letIn]
  dsimp only
  rw [hs]
  rfl

/-- Its command hands it on. -/
theorem exec_plain {s : State} {r : Rx} {i : Instr} {n : Nat} (h : s.delivers r) (ht : r.pkt.typ = n)
    (hn : n = 3 ∨ n = 4 ∨ n = 6 ∨ n = 7 ∨ n = 8 ∨ n = 9) (hi : i = packetCmd r) :
    exec i s = .next ((s.accepted r).onMsg r.pkt (plainMessage r.pkt)) := by
  have hs : sequenced r.pkt.typ = false := by
    rw [ht]
    rcases hn with rfl | rfl | rfl | rfl | rfl | rfl <;> rfl
  have hh : s.stroke.hold = .no := h.2.2.2.2.2.2.2.2.2.2.2
  rw [hi, exec_packetCmd hh (by omega) (by omega), onFrame_of_plain h (by omega) hs]

/-! ### ACK and NACK (R306, R308, R315) -/

/-- What an ACK leaves of the flow's retained packets. -/
def FlowSt.unacked (x : FlowSt) (seq : Word) : List Retained :=
  x.retained.filter (fun z => decide (0 < (z.pkt.seq - seq).toNat ∧ (z.pkt.seq - seq).toNat < 2 ^ 31))

theorem takeAck_eq (s : State) (f : Nat) (seq : Word) :
    s.takeAck f seq = s.setFlow f { s.flow f with retained := (s.flow f).unacked seq } := rfl

/-- The state behind an ACK but for the rate: what it covers is released, and a verdict that is owed may be settled. -/
def State.acked (s : State) (f : Nat) (p : Pkt) : State :=
  let u := s.takeAck f p.seq
  if (u.flow f).retained.any (fun r => r.pkt.typ == 5 && pktKind r.pkt == 4) then u
  else { u with stp := { u.stp with owed := u.stp.owed.filter (· != (u.ctx f).peer) } }

theorem onAck_eq (s : State) (f : Nat) (p : Pkt) :
    s.onAck f p = if p.flags.getLsbD 4 then (s.acked f p).cutRate f else s.acked f p := rfl

theorem acked_only (s : State) (f : Nat) (p : Pkt) :
    ∃ owed, s.acked f p = { s.takeAck f p.seq with stp := { s.stp with owed := owed } } := by
  unfold State.acked
  dsimp only
  split
  · exact ⟨s.stp.owed, rfl⟩
  · exact ⟨_, rfl⟩

theorem cutRate_of_free {s : State} {f : Nat} (h : ∀ c, (s.flow f).cutAt = some c → 10000 ≤ (s.mgmt.elapsed - c).toNat) :
    s.cutRate f = s.setFlow f { s.flow f with rate := some (s.rateOf f * 7 / 8), cutAt := some s.mgmt.elapsed } := by
  unfold State.cutRate
  cases hc : (s.flow f).cutAt with
  | none => simp only [hc]; rfl
  | some c => simp only [hc, h c hc, decide_true, if_true]

/-- What the cut of a rate can change: its flow. -/
theorem cutRate_only (s : State) (f : Nat) : ∃ flows, s.cutRate f = { s with fab := { s.fab with flows := flows } } ∧
    ∀ g, g ≠ f → (s.cutRate f).flow g = s.flow g := by
  unfold State.cutRate
  extract_lets x free
  split
  · exact ⟨_, rfl, fun g hg => flow_setFlow_ne _ _ hg⟩
  · exact ⟨s.fab.flows, rfl, fun g hg => rfl⟩

theorem onAck_only (s : State) (f : Nat) (p : Pkt) : ∃ flows owed,
    s.onAck f p = { s with fab := { s.fab with flows := flows }, stp := { s.stp with owed := owed } } ∧
      ∀ g, g ≠ f → (s.onAck f p).flow g = s.flow g := by
  obtain ⟨owed, ha⟩ := acked_only s f p
  have hne : ∀ g, g ≠ f → (s.acked f p).flow g = s.flow g := fun g hg => by
    rw [ha]
    exact flow_setFlow_ne s _ hg
  rw [onAck_eq]
  split
  · obtain ⟨flows, hc, hcne⟩ := cutRate_only (s.acked f p) f
    refine ⟨flows, owed, ?_, fun g hg => (hcne g hg).trans (hne g hg)⟩
    rw [hc, ha]
    rfl
  · refine ⟨(s.takeAck f p.seq).fab.flows, owed, ?_, hne⟩
    rw [ha]
    rfl

theorem flow_onAck_plain {s : State} {f : Nat} {p : Pkt} (h : p.flags.getLsbD 4 = false) :
    (s.onAck f p).flow f = { s.flow f with retained := (s.flow f).unacked p.seq } := by
  obtain ⟨owed, ha⟩ := acked_only s f p
  rw [onAck_eq, h, if_neg Bool.false_ne_true, ha, takeAck_eq]
  exact flow_setFlow_self ..

theorem flow_onAck_echo {s : State} {f : Nat} {p : Pkt} (h : p.flags.getLsbD 4 = true)
    (hc : ∀ c, (s.flow f).cutAt = some c → 10000 ≤ (s.mgmt.elapsed - c).toNat) :
    (s.onAck f p).flow f = { s.flow f with
      retained := (s.flow f).unacked p.seq, rate := some (s.rateOf f * 7 / 8), cutAt := some s.mgmt.elapsed } := by
  obtain ⟨owed, ha⟩ := acked_only s f p
  have hf : (s.acked f p).flow f = { s.flow f with retained := (s.flow f).unacked p.seq } := by
    rw [ha, takeAck_eq]
    exact flow_setFlow_self ..
  have hrate : (s.acked f p).rateOf f = s.rateOf f := by
    rw [State.rateOf, State.rateOf, hf, ha]
    rfl
  have hel : (s.acked f p).mgmt.elapsed = s.mgmt.elapsed := by rw [ha]; rfl
  rw [onAck_eq, h, if_pos rfl, cutRate_of_free (by rw [hf, hel]; exact hc), flow_setFlow_self, hf, hrate, hel]

theorem takeNack_resend {s : State} {f reason : Nat} {seq : Word} {z : Retained} (hz : s.retainedAt f seq = some z) (hr : reason ≤ 1)
    (hn : z.resends < 3) : s.takeNack f seq reason = s.resend f z true := by
  rw [State.takeNack, hz]
  dsimp only
  rw [if_pos hr, State.resendOrFail, if_neg (by omega)]

theorem takeNack_backoff {s : State} {f : Nat} {seq : Word} {z : Retained} (hz : s.retainedAt f seq = some z) :
    s.takeNack f seq 4 = s.setFlow f { s.flow f with
      retained := (s.flow f).retained.map (fun x => if x.pkt.seq = seq then { x with backoff := true } else x) } := by
  rw [State.takeNack, hz]
  rfl

theorem takeNack_refused {s : State} {f reason : Nat} {seq : Word} {z : Retained} (hz : s.retainedAt f seq = some z)
    (hr : reason = 2 ∨ reason = 3) (ht : z.pkt.typ ≠ 1) : s.takeNack f seq reason = s.setFlow f { s.flow f with
      retained := (s.flow f).retained.filter (fun x => x.pkt.seq != z.pkt.seq) } := by
  rw [State.takeNack, hz]
  dsimp only
  rw [if_neg (by omega), if_neg (by omega), State.takeRefusal]
  dsimp only
  rw [if_pos ht]

/-! ### HELLO (R321) -/

theorem onHello_of_same {s : State} {src : Nat} {h : List Byte} (hh : h.take 32 = s.fab.hallmark) : s.onHello src h = s := if_pos hh

/-- What a record of blame leaves: the flows, and the registers of every page but its event's. -/
structure Blamed (s t : State) : Prop where
  flows : t.fab.flows = s.fab.flows
  regs : RegsKept s t (eventRegs (pgAsy 1))

theorem Blamed.refl (s : State) : Blamed s s := ⟨rfl, fun _ _ => rfl⟩
theorem Blamed.trans {s t u : State} (h : Blamed s t) (k : Blamed t u) : Blamed s u := ⟨k.flows.trans h.flows, h.regs.trans k.regs⟩

theorem blamed_foldl {α : Type} {g : State → α → State} (h : ∀ s a, Blamed s (g s a)) (l : List α) (s : State) : Blamed s (l.foldl g s) := by
  induction l generalizing s with
  | nil => exact .refl s
  | cons a l ih => exact (h s a).trans (ih _)

theorem flows_transmit (s : State) (f : Nat) (p : Pkt) : (s.transmit f p).fab.flows = s.fab.flows := by
  unfold State.transmit
  split
  · rfl
  · rfl

theorem blamed_blameRecord (s : State) (reporter suspect reason : Nat) (lastHeard : DWord) :
    Blamed s (s.blameRecord reporter suspect reason lastHeard) := by
  unfold State.blameRecord
  split
  · exact ⟨rfl, fun _ _ => rfl⟩
  · split
    · exact ⟨rfl, kept_bump _ _ _ (.inl rfl)⟩
    · extract_lets u
      have hl : Logged u (u.raiseM 0x0640 (pgAsy 1) (suspect * 64) 0 reason) := logged_raiseM ..
      have hr := kept_raiseM (page := pgAsy 1) (pg := ⟨.asy, 0, 1, pgAsy 1⟩) rfl rfl rfl u 0x0640 (suspect * 64) 0 reason
      exact ⟨congrArg FabSt.flows hl.fab, hr⟩

theorem blamed_sendPlain (s : State) (f typ flags : Nat) (seq : Word) (payload : List Byte) :
    Blamed s (s.sendPlain f typ flags seq payload) := by
  refine ⟨flows_transmit .., ?_⟩
  rw [fabricOnly_sendPlain s f typ flags seq payload]
  exact fun _ _ => rfl

theorem blamed_blameOnce (s : State) (suspect reason detail : Nat) : Blamed s (s.blameOnce suspect reason detail) := by
  unfold State.blameOnce
  split
  · unfold State.sendBlame
    refine Blamed.trans (t := { s with blamed := suspect :: s.blamed }) ⟨rfl, fun _ _ => rfl⟩ (blamed_foldl (fun u m => ?_) _ _)
    split
    · exact blamed_blameRecord ..
    · split
      · exact .refl _
      · exact blamed_sendPlain ..
  · exact .refl _

theorem ctx_congr {s t : State} (h : t.fab.table = s.fab.table) (f : Nat) : t.ctx f = s.ctx f := by
  unfold State.ctx State.tabNat
  rw [h]

theorem table_accepted (s : State) (r : Rx) : (s.accepted r).fab.table = s.fab.table := rfl

theorem validFlows_accepted (s : State) (r : Rx) : (s.accepted r).validFlows = s.validFlows := by
  unfold State.validFlows
  simp only [ctx_congr (table_accepted s r)]

/-- Flows that are refused, of a list or before. -/
theorem refused_foldl (l : List Nat) (s : State) {g : Nat} (h : g ∈ l ∨ (s.flow g).refused = true) :
    ((l.foldl (fun s f => s.setFlow f { s.flow f with refused := true }) s).flow g).refused = true := by
  induction l generalizing s with
  | nil => exact h.resolve_left (by simp)
  | cons f l ih =>
    refine ih _ ?_
    by_cases hg : g = f
    · right
      rw [hg, flow_setFlow_self]
    · rw [flow_setFlow_ne _ _ hg]
      exact h.imp_left fun h => (List.mem_cons.1 h).resolve_left hg

/-- Another hallmark refuses every flow of its sender, and raises 0x050B. -/
theorem onHello_of_other {s : State} {src : Nat} {h : List Byte} (hh : h.take 32 ≠ s.fab.hallmark) :
    (s.onHello src h).evtSet (pgIgs 0) 0 = true ∧
      ∀ g ∈ s.validFlows, (s.ctx g).peer = src → ((s.onHello src h).flow g).refused = true := by
  let l := s.validFlows.filter (fun f => (s.ctx f).peer == src)
  let u := l.foldl (fun s f => s.setFlow f { s.flow f with refused := true }) s
  let w := (hashWord h 0).toNat
  have he : s.onHello src h = (u.raisePeer 0x050B sevStep src 0 w).blameOnce src 4 w := if_neg hh
  have hb := blamed_blameOnce (u.raisePeer 0x050B sevStep src 0 w) src 4 w
  obtain ⟨hl, -, hset⟩ : Raised u (u.raisePeer 0x050B sevStep src 0 w) (pgIgs 0) 0 :=
    raised_raise (pg := ⟨.igs, 0, 0, pgIgs 0⟩) rfl rfl rfl rfl rfl (fun c hc => absurd hc List.not_mem_nil)
  rw [he]
  refine ⟨?_, fun g hg hp => ?_⟩
  · rw [← hset]
    exact congrArg (BitVec.getLsbD · 0) (hb.regs _ (by unfold eventRegs; decide))
  · have hflow : ((u.raisePeer 0x050B sevStep src 0 w).blameOnce src 4 w).flow g = u.flow g := by
      unfold State.flow
      rw [hb.flows, hl.fab]
    rw [hflow]
    exact refused_foldl l s (.inl (List.mem_filter.2 ⟨hg, by simpa using hp⟩))

/-! ### The obligation -/

theorem retainedAt_accepted (s : State) (r : Rx) (seq : Word) :
    (s.accepted r).retainedAt r.pkt.flow seq = s.retainedAt r.pkt.flow seq := by
  unfold State.retainedAt
  rw [flow_accepted]
  rfl

theorem onBlame_of_collector {s : State} {b : List Byte} (hp : s.job.present = true)
    (hm : s.member = s.job.params.coord ∨ s.member = s.job.params.backup) :
    s.onBlame b = s.blameRecord (blk b 0 2 % 8192) (blk b 2 2 % 8192) (blk b 5 1) (BitVec.ofNat 64 (blk b 8 8)) :=
  if_pos (by simpa [hp] using hm)

theorem member_accepted (s : State) (r : Rx) : (s.accepted r).member = s.member := by
  unfold State.member State.rfield
  rw [show (s.accepted r).rget Reg.igsMember = s.rget Reg.igsMember from (arrived_accepted s r).1 _ (by decide)]

theorem elapsed_accepted (s : State) (r : Rx) : (s.accepted r).mgmt.elapsed = s.mgmt.elapsed := by
  rw [(arrived_accepted s r).2.1]

theorem rateOf_accepted (s : State) (r : Rx) : (s.accepted r).rateOf r.pkt.flow = s.rateOf r.pkt.flow := by
  unfold State.rateOf State.fullRate
  rw [flow_accepted, ctx_congr (table_accepted s r)]
  rfl

/-- An accepted ACK changes its flow's retained packets and rate, and what is owed a verdict. -/
theorem exec_ack {s : State} {r : Rx} (h : s.delivers r) (ht : r.pkt.typ = 3) : ∃ t, exec (.ack r) s = .next t ∧
    t = { s.accepted r with
      fab := { (s.accepted r).fab with flows := t.fab.flows }, stp := { (s.accepted r).stp with owed := t.stp.owed } } ∧
    (∀ g, g ≠ r.pkt.flow → t.flow g = s.flow g) ∧
    (r.pkt.flags.getLsbD 4 = false → t.flow r.pkt.flow = { s.heardFlow r with retained := (s.heardFlow r).unacked r.pkt.seq }) ∧
    (r.pkt.flags.getLsbD 4 = true → (∀ c, (s.flow r.pkt.flow).cutAt = some c → 10000 ≤ (s.mgmt.elapsed - c).toNat) →
      t.flow r.pkt.flow = { s.heardFlow r with
        retained := (s.heardFlow r).unacked r.pkt.seq, rate := some (s.rateOf r.pkt.flow * 7 / 8), cutAt := some s.mgmt.elapsed }) := by
  obtain ⟨flows, owed, ho, hne⟩ := onAck_only (s.accepted r) r.pkt.flow r.pkt
  have hy := flow_accepted s r
  refine ⟨(s.accepted r).onAck r.pkt.flow r.pkt, exec_plain h ht (by decide) (by simp only [packetCmd, ht]) |>.trans ?_, by rw [ho], fun g hg => ?_,
    fun hf => ?_, fun hf hc => ?_⟩
  · rw [State.onMsg, show (plainMessage r.pkt).typ = 3 from ht]
    rfl
  · rw [hne g hg, (arrived_accepted s r).2.2 g, if_neg hg]
  · rw [flow_onAck_plain hf, hy]
  · rw [flow_onAck_echo hf (by rw [hy, elapsed_accepted]; exact hc), hy, rateOf_accepted, elapsed_accepted]

/-- An accepted NACK, of a packet that is still retained. -/
theorem exec_nack {s : State} {r : Rx} (h : s.delivers r) (ht : r.pkt.typ = 4) :
    exec (.nack r) s = .next ((s.accepted r).takeNack r.pkt.flow (BitVec.ofNat 32 (payNum r.pkt 0 4)) (payNum r.pkt 4 4)) := by
  rw [exec_plain h ht (by decide) (by simp only [packetCmd, ht]), State.onMsg, show (plainMessage r.pkt).typ = 4 from ht]
  rfl

/-- Settles O37: a packet outside the sequence of its flow is accepted, and its type's effect follows (`exec_plain`). -/
theorem plainPackets : Obligations.PlainPackets := by
  unfold Obligations.PlainPackets
  intro s r h f x y
  have ha := arrived_accepted s r
  have hy : (s.accepted r).flow f = y := flow_accepted s r
  have plain : ∀ {i : Instr} {n : Nat}, r.pkt.typ = n → (n = 6 ∨ n = 7 ∨ n = 8 ∨ n = 9) → i = packetCmd r →
      exec i s = .next ((s.accepted r).onMsg r.pkt (plainMessage r.pkt)) := fun ht hn hi => exec_plain h ht (by omega) hi
  refine ⟨fun ht => ?_, fun ht z hz => ⟨s.accepted r, ha, ?_⟩, fun ht hh => ⟨_, ha, ?_⟩, fun ht hh => ?_, fun ht => ⟨_, ha, ?_⟩,
    fun ht => ⟨_, ha, ?_⟩, fun ht hp hm => ⟨_, ha, ?_⟩⟩
  · obtain ⟨t, ht⟩ := exec_ack h ht
    exact ⟨_, t, ha, ht⟩
  · have hz : (s.accepted r).retainedAt f (BitVec.ofNat 32 (payNum r.pkt 0 4)) = some z := (retainedAt_accepted s r _).trans hz
    have hseq : z.pkt.seq = BitVec.ofNat 32 (payNum r.pkt 0 4) := by simpa using List.find?_some hz
    refine ⟨fun hr hn => ?_, fun hr => ?_, fun hr hnt => ?_⟩
    · rw [exec_nack h ht, takeNack_resend hz hr hn]
    · rw [exec_nack h ht, hr, takeNack_backoff hz, hy, hseq]
      rfl
    · rw [exec_nack h ht, takeNack_refused hz hr hnt, hy]
      rfl
  · rw [plain ht (by decide) (by simp only [packetCmd, ht]), State.onMsg, show (plainMessage r.pkt).typ = 6 from ht]
    exact congrArg Host.Outcome.next (onHello_of_same hh)
  · obtain ⟨he, hr⟩ := onHello_of_other (s := s.accepted r) (src := r.pkt.src) hh
    refine ⟨(s.accepted r).onHello r.pkt.src r.pkt.payload, ?_, he, fun g hg hp => hr g ?_ ?_⟩
    · rw [plain ht (by decide) (by simp only [packetCmd, ht]), State.onMsg, show (plainMessage r.pkt).typ = 6 from ht]
      rfl
    · rwa [validFlows_accepted]
    · rwa [ctx_congr (table_accepted s r)]
  · rw [plain ht (by decide) (by simp only [packetCmd, ht])]
    simp only [State.onMsg, show (plainMessage r.pkt).typ = 7 from ht]
  · rw [plain ht (by decide) (by simp only [packetCmd, ht]), State.onMsg, show (plainMessage r.pkt).typ = 8 from ht]
    rfl
  · rw [plain ht (by decide) (by simp only [packetCmd, ht]), State.onMsg, show (plainMessage r.pkt).typ = 9 from ht]
    refine congrArg Host.Outcome.next (onBlame_of_collector ?_ ?_)
    · rw [ha.2.1]
      exact hp
    · rw [member_accepted, ha.2.1]
      exact hm

end Sys2Proof.Machine
end

section

/-!
PROOFS. What is sent again (O40): retained packets, failed messages, frames of a port with link retry.
-/

namespace Sys2Proof.Machine

open Sys2Proof

/-! ### What a packet on its way out needs and leaves -/

/-- States that agree in the flow contexts, the ports and every register but the counter of resends. -/
structure SameLinks (s t : State) : Prop where
  table : t.fab.table = s.fab.table
  ports : t.fab.ports = s.fab.ports
  sent : t.fab.sent = s.fab.sent
  regs : RegsKept s t (pairAt Reg.igsResendLo)

section
variable {s t : State} (h : SameLinks s t)
include h

theorem SameLinks.portFor (f typ seq : Nat) : t.portFor f typ seq = s.portFor f typ seq := by
  unfold State.portFor State.upPorts State.port
  rw [ctx_congr h.table, h.ports]

theorem SameLinks.ownIp : t.ownIp = s.ownIp ∧ t.usesIp6 = s.usesIp6 := by
  have h6 : t.usesIp6 = s.usesIp6 := congrArg (BitVec.getLsbD · 16) (h.regs Reg.igsCfg (by unfold pairAt; decide))
  refine ⟨?_, h6⟩
  have hw : ∀ i ∈ List.range 4, beBytes 4 (t.rget (Reg.igsIp6 i)).toNat = beBytes 4 (s.rget (Reg.igsIp6 i)).toNat := fun i hi => by
    have hi := List.mem_range.1 hi
    rw [h.regs _ (by unfold pairAt Reg.igsIp6 Reg.igsResendLo; omega)]
  unfold State.ownIp
  rw [h6, List.flatMap_congr hw, h.regs Reg.igsIp4 (by unfold pairAt; decide)]

/-- The headers of a frame. -/
theorem SameLinks.headers (f : Nat) {q : Nat} (p : Pkt) : t.headers f q p = s.headers f q p := by
  obtain ⟨hown, h6⟩ := h.ownIp
  have hmap : ∀ tc, t.tcMap tc = s.tcMap tc := fun tc => by
    have ho : ¬ pairAt Reg.igsResendLo ([Reg.igsTcMap0, Reg.igsTcMap1, Reg.igsTcMap2, Reg.igsTcMap3].getD tc Reg.igsTcMap3) := by
      unfold pairAt
      match tc with
      | 0 | 1 | 2 | 3 => decide
      | _ + 4 => exact (by decide : ¬ (Reg.igsTcMap3 = Reg.igsResendLo ∨ Reg.igsTcMap3 = Reg.igsResendLo + 4))
    unfold State.tcMap State.rfield
    dsimp only
    rw [h.regs _ ho]
  have hmac : t.macOf q = s.macOf q := by
    unfold State.macOf State.rfield
    rw [h.regs Reg.igsMacLo (by unfold pairAt; decide), h.regs Reg.igsMacHi (by unfold pairAt; decide)]
  have hhop : t.nextHop q = s.nextHop q := by
    unfold State.nextHop State.rfield
    rw [h.regs (Reg.fabNhMacLo q) (by unfold pairAt Reg.fabNhMacLo Reg.igsResendLo; omega),
      h.regs (Reg.fabNhMacHi q) (by unfold pairAt Reg.fabNhMacHi Reg.igsResendLo; omega)]
  have hcfg : t.rget Reg.igsCfg = s.rget Reg.igsCfg := h.regs _ (by unfold pairAt; decide)
  have hmem : ∀ m, t.memberIp m = s.memberIp m := fun m => by
    unfold State.memberIp
    rw [h.table, h6]
  have hether : ∀ pcp, t.etherHeader q pcp = s.etherHeader q pcp := fun pcp => by
    unfold State.etherHeader State.rbit State.rfield
    rw [hhop, hmac, hcfg, h6]
  have hip : ∀ dst flow dscp len, t.ipHeader dst flow q dscp len = s.ipHeader dst flow q dscp len := fun _ _ _ _ => by
    unfold State.ipHeader
    rw [h6, hown]
  have hudp : ∀ dst flow body, t.udpHeader dst flow q body = s.udpHeader dst flow q body := fun _ _ _ => by
    unfold State.udpHeader State.rfield
    rw [hcfg, hown]
  unfold State.headers
  simp only [hmap, ctx_congr h.table, hmem, hether, hip, hudp]

end

/-- The frame on which a packet leaves, where a port carries it. -/
def State.frameFor (s : State) (f : Nat) (p : Pkt) : List SentFrame :=
  match s.portFor f p.typ p.seq.toNat with
  | none => []
  | some q => [⟨q, (s.port q).txCount, s.headers f q p, p⟩]

theorem sent_transmit (s : State) (f : Nat) (p : Pkt) : (s.transmit f p).fab.sent = s.fab.sent ++ s.frameFor f p := by
  unfold State.transmit State.frameFor
  cases s.portFor f p.typ p.seq.toNat with
  | none => exact (List.append_nil _).symm
  | some q => rfl

theorem SameLinks.frameFor {s t : State} (h : SameLinks s t) (f : Nat) (p : Pkt) : t.frameFor f p = s.frameFor f p := by
  unfold State.frameFor
  rw [h.portFor]
  cases s.portFor f p.typ p.seq.toNat with
  | none => rfl
  | some q =>
    dsimp only
    rw [h.headers, State.port, State.port, h.ports]

theorem fabricOnly_transmit (s : State) (f : Nat) (p : Pkt) : FabricOnly s (s.transmit f p) := by
  unfold State.transmit
  split
  · rfl
  · rfl

theorem rget_transmit (s : State) (f : Nat) (p : Pkt) (o : Nat) : (s.transmit f p).rget o = s.rget o := by
  rw [fabricOnly_transmit s f p]
  rfl

/-! ### A retained packet goes again (R306) -/

/-- A packet as it goes again. -/
def resent (p : Pkt) : Pkt :=
  let q := { p with flags := p.flags ||| 8 }
  { q with crc := pktCrc q }

/-- What a retained packet that goes again leaves: the packet with its count and port, and the frame it leaves on. -/
structure Resent (s t : State) (f : Nat) (z : Retained) (n : Nat) : Prop where
  retained : (t.flow f).retained = (s.flow f).retained.map (fun q => if q.pkt.seq = z.pkt.seq then
    { z with resends := n, port := (s.portFor f z.pkt.typ z.pkt.seq.toNat).getD 64, backoff := false } else q)
  flows : ∀ g, g ≠ f → t.flow g = s.flow g
  counted : PairRose s t Reg.igsResendLo 1
  sent : t.fab.sent = s.fab.sent ++ s.frameFor f (resent z.pkt)

theorem resend_spec (s : State) (f : Nat) (z : Retained) (counted : Bool) :
    Resent s (s.resend f z counted) f z (if counted then z.resends + 1 else z.resends) := by
  let x := s.flow f
  let z' : Retained := { z with resends := if counted then z.resends + 1 else z.resends
                                port := (s.portFor f z.pkt.typ z.pkt.seq.toNat).getD 64, backoff := false }
  let u := s.setFlow f { x with retained := x.retained.map (fun y => if y.pkt.seq = z.pkt.seq then z' else y) }
  let v := u.bumpPair Reg.igsResendLo 1
  have he : s.resend f z counted = v.transmit f (resent z.pkt) := rfl
  have hflows : (s.resend f z counted).fab.flows = u.fab.flows := by rw [he, flows_transmit]; rfl
  have hflow : ∀ g, (s.resend f z counted).flow g = u.flow g := fun g => by unfold State.flow; rw [hflows]
  have hlinks : SameLinks s v := ⟨rfl, rfl, rfl, kept_bumpPair u _ _⟩
  refine ⟨?_, fun g hg => ?_, ?_, ?_⟩
  · rw [hflow, flow_setFlow_self]
  · rw [hflow, flow_setFlow_ne _ _ hg]
  · have hr : PairRose u v Reg.igsResendLo 1 := rose_bumpPair u _ _
    unfold PairRose State.rpair at *
    rw [he, rget_transmit, rget_transmit]
    exact hr
  · rw [he, sent_transmit, hlinks.sent, hlinks.frameFor]

/-! ### A message that fails (R307) -/

/-- A failed message of data sets nothing else in motion. -/
theorem afterFailure_of_data {s : State} {peer : Nat} {p : Pkt} (h : p.typ = 0) : s.afterFailure peer p = s := by
  unfold State.afterFailure
  rw [h]
  rfl

/-- The first packet of a message of data is of data. -/
theorem head_of_data {x : FlowSt} {p : Pkt} (h : p.typ = 0) :
    (((x.message p).find? (fun m => m.pkt.ofs == 0)).elim p (·.pkt)).typ = 0 := by
  cases hm : (x.message p).find? (fun m => m.pkt.ofs == 0) with
  | none => exact h
  | some m =>
    have hmem := List.mem_of_find?_eq_some hm
    unfold FlowSt.message at hmem
    have := (List.mem_filter.1 hmem).2
    simp only [Bool.and_eq_true, beq_iff_eq] at this
    exact this.1.1.1.1.trans h

/-- What a message that is abandoned leaves. -/
theorem abandon_spec (s : State) (f : Nat) (z : Retained) :
    ((s.abandon f z).flow f).retained = (s.flow f).retained.filter (fun y => !((s.flow f).message z.pkt).any (fun m => m.pkt.seq == y.pkt.seq)) ∧
      ∀ o, (s.abandon f z).rget o = (s.bump Reg.igsResendFail 1).rget o := by
  let x := s.flow f
  let u := s.setFlow f { x with retained := x.retained.filter (fun y => !(x.message z.pkt).any (fun m => m.pkt.seq == y.pkt.seq)) }
  have he : s.abandon f z = (x.message z.pkt).foldl (fun s m => s.transmit f (voidOf m.pkt)) (u.bump Reg.igsResendFail 1) := rfl
  have hfold : ∀ (l : List Retained) (v : State), (l.foldl (fun s m => s.transmit f (voidOf m.pkt)) v).fab.flows = v.fab.flows ∧
      ∀ o, (l.foldl (fun s m => s.transmit f (voidOf m.pkt)) v).rget o = v.rget o := by
    intro l
    induction l with
    | nil => exact fun v => ⟨rfl, fun _ => rfl⟩
    | cons m l ih =>
      intro v
      obtain ⟨h1, h2⟩ := ih (v.transmit f (voidOf m.pkt))
      exact ⟨h1.trans (flows_transmit ..), fun o => (h2 o).trans (rget_transmit ..)⟩
  obtain ⟨h1, h2⟩ := hfold (x.message z.pkt) (u.bump Reg.igsResendFail 1)
  rw [he]
  refine ⟨?_, fun o => (h2 o).trans rfl⟩
  unfold State.flow
  rw [h1]
  exact congrArg FlowSt.retained (flow_setFlow_self s f _)

/-- A message of data whose packet needs a fourth resend: 0x0504, the count of failures, and its packets gone. -/
theorem failMessage_of_data {s : State} {f : Nat} {z : Retained} (h : z.pkt.typ = 0) :
    (s.failMessage f z).evtSet (pgIgs 0) 2 = true ∧
    (s.failMessage f z).rget Reg.igsResendFail = (s.bump Reg.igsResendFail 1).rget Reg.igsResendFail ∧
    ((s.failMessage f z).flow f).retained =
      (s.flow f).retained.filter (fun y => !((s.flow f).message z.pkt).any (fun m => m.pkt.seq == y.pkt.seq)) := by
  let peer := (s.ctx f).peer
  let u := s.raisePeer 0x0504 sevStep peer 0 z.pkt.seq.toNat
  let v := u.blameOnce peer 2 z.pkt.seq.toNat
  have he : s.failMessage f z = v.abandon f z := by
    unfold State.failMessage
    dsimp only
    rw [afterFailure_of_data (head_of_data h), if_pos h, if_pos h]
  obtain ⟨hl, -, hset⟩ : Raised s u (pgIgs 0) 2 :=
    raised_raise (pg := ⟨.igs, 0, 0, pgIgs 0⟩) rfl rfl rfl rfl rfl (fun c hc => absurd hc List.not_mem_nil)
  have hb : Blamed u v := blamed_blameOnce u peer 2 z.pkt.seq.toNat
  have hfail : v.rget Reg.igsResendFail = s.rget Reg.igsResendFail := by
    refine (hb.regs _ (by unfold eventRegs; decide)).trans ?_
    exact rget_raise_bare (pg := ⟨.igs, 0, 0, pgIgs 0⟩) (page := pgIgs 0) rfl rfl rfl (by decide) (by decide) (by decide) (by decide)
  have hflow : v.flow f = s.flow f := by
    unfold State.flow
    rw [hb.flows, hl.fab]
  obtain ⟨hret, hregs⟩ := abandon_spec v f z
  rw [he]
  refine ⟨?_, ?_, hret.trans (by rw [hflow])⟩
  · have hevt : ((v.abandon f z).rget (pgIgs 0 + oEvt)) = u.rget (pgIgs 0 + oEvt) := by
      rw [hregs, State.bump, rget_rset_ne _ _ (by decide)]
      exact hb.regs _ (by unfold eventRegs; decide)
    exact (congrArg (BitVec.getLsbD · 2) hevt).trans hset
  · rw [hregs, State.bump, State.bump, rget_rset_self, rget_rset_self, hfail]

/-! ### Link retry (R305) -/

theorem relink_eq {s : State} {q n : Nat} {f : SentFrame} (hf : s.buffered q n = some f) (hu : (s.port q).up = true)
    (hl : (s.port q).llr = true) (hk : tget 0 (s.port q).tries n ≤ 7) :
    s.relink q n =
      let u := s.setPort q { s.port q with tries := tset 0 (s.port q).tries n (tget 0 (s.port q).tries n + 1) }
      if tget 0 (s.port q).tries n = 7 then u.bump (Reg.fabRetryDrop q) 1
      else { u.bumpPair (Reg.fabRetryLo q) 1 with fab := { u.fab with sent := u.fab.sent ++ [f] } } := by
  have hc : (!(s.port q).up || !(s.port q).llr || decide (7 < tget 0 (s.port q).tries n)) = false := by simp [hu, hl, hk]
  rw [State.relink]
  dsimp only
  rw [hf]
  dsimp only
  rw [hc]
  rfl

theorem exec_relink {q : Fin 64} {n : Nat} {c : Instr} (hc : c = .linkRetryRequest q n ∨ c = .linkReplayTimeout q n) (s : State) :
    exec c s = .next (s.relink q n) := by
  rcases hc with rfl | rfl <;> rfl

/-- Settles O40: a retained packet goes again by `resend_spec`, a failed message by `failMessage_of_data`, a frame by `relink_eq`. -/
theorem resends : Obligations.Resends := by
  unfold Obligations.Resends
  refine ⟨fun s fl seq z hz => ?_, fun s q n f c hc hf hu hl => ?_⟩
  · obtain rfl : z.pkt.seq = seq := by simpa using List.find?_some hz
    have expiry : exec (.resendTimeout fl z.pkt.seq) s = .next (s.resendOrFail fl z).resume := by rw [exec, execResendTimeout, hz]
    intro p p' again
    have hagain : ∀ counted, again (s.resend fl z counted) (if counted then z.resends + 1 else z.resends) := fun counted => by
      obtain ⟨hret, hflows, hcount, hsent⟩ := resend_spec s fl z counted
      exact ⟨hret, hflows, hcount, hsent⟩
    refine ⟨fun hn hh => ⟨s.resend fl z true, ?_, hagain true⟩, fun hb => ⟨s.resend fl z false, ?_, hagain false⟩, fun hn ht _ hh => ?_⟩
    · rw [expiry, State.resendOrFail, if_neg (by omega), resume_of_fixed hh (fixed_resend ..)]
    · rw [exec, execNackBackoffExpiry, hz]
      exact congrArg Host.Outcome.next (if_pos hb)
    · refine ⟨s.failMessage fl z, ?_, failMessage_of_data ht⟩
      rw [expiry, resume_of_fixed hh (fixed_resendOrFail ..), State.resendOrFail, if_pos hn]
  · intro k u
    refine ⟨fun hk => ?_, fun hk => ?_⟩
    · have he := relink_eq hf hu hl (Nat.le_of_lt hk)
      dsimp only at he
      rw [if_neg (by omega)] at he
      refine ⟨_, (exec_relink hc s).trans (congrArg Host.Outcome.next he), ?_, rfl⟩
      exact rose_bumpPair u (Reg.fabRetryLo q) 1
    · have he := relink_eq hf hu hl (Nat.le_of_eq hk)
      dsimp only at he
      rw [if_pos hk] at he
      exact (exec_relink hc s).trans (congrArg Host.Outcome.next he)

end Sys2Proof.Machine
end

section

/-!
PROOFS. The timers of collectives (O43): the deadline of a root, the takeover of a lost root's segment, a result that does not come.
-/

namespace Sys2Proof.Machine

open Sys2Proof

/-! ### The deadline of a root (R316, R317) -/

theorem exec_collectiveDeadline_of_one {s : State} {coll : Word} {seg : Nat} {c : CollCfg} (hc : s.collCfg coll = some c) {late : Bool}
    {x : RootRun} (hx : s.fab.roots.filter (fun r => r.coll == coll && r.step == s.stroke.step && r.seg == seg &&
      r.lane == (if late then 1 else 0) && r.waits) = [x]) :
    exec (.collectiveDeadline coll seg late) s = .next ((s.sendReport c x).1.collGo (s.sendReport c x).2).resume := by
  rw [exec, execCollectiveDeadline, hc]
  dsimp only
  rw [hx]
  have hst : ([x].filter (fun r => r.stage == minOr 1 ([x].map (·.stage)))) = [x] := by simp [minOr]
  rw [hst]
  rfl

/-! ### A contributor at a lost root (R319) -/

theorem fabricOnly_sendPieces (f typ flags field : Nat) (coll tree : Word) (step : DWord) (nf : Bool) (n base : Nat) (bs : List Byte)
    (s : State) : FabricOnly s (State.sendPieces f typ flags field coll tree step nf n base bs s) := by
  induction n generalizing base bs s with
  | zero => rfl
  | succ n ih =>
    unfold State.sendPieces
    extract_lets pay last fl u
    have hu : FabricOnly s u := fabricOnly_transmit (s.setFlow f _) f _
    split
    · exact hu
    · exact hu.trans (ih _ _ _)

theorem fabricOnly_sendNode (s : State) (c : CollCfg) (m seg field : Nat) (late : Bool) (step : DWord) (nd : CNode) :
    FabricOnly s (s.sendNode c m seg field late step nd) := by
  unfold State.sendNode State.sendMsg
  split
  · rfl
  · exact fabricOnly_sendPieces ..

theorem fabricOnly_sendNodes (c : CollCfg) (b seg : Nat) (late : Bool) (step : DWord) (l : List CNode) (s : State) :
    FabricOnly s (l.foldl (fun u nd => u.sendNode c b seg nd.field late step nd) s) := by
  induction l generalizing s with
  | nil => rw [List.foldl_nil]; rfl
  | cons nd l ih =>
    rw [List.foldl_cons]
    exact (fabricOnly_sendNode s c b seg nd.field late step nd).trans (ih _)

theorem FabricOnly.member {s t : State} (h : FabricOnly s t) : t.member = s.member := by
  have hr : t.regs = s.regs := by
    unfold FabricOnly at h
    rw [h]
  unfold State.member State.rfield State.rget
  rw [hr]

/-- Nodes that go to another device one after the other, each looked at for its own. -/
theorem foldl_sendNode (c : CollCfg) (b seg : Nat) (late : Bool) (step : DWord) (act : State → CNode → List CAct) (l : List CNode) {s : State}
    (hb : b ≠ s.member) :
    l.foldl (fun s nd => if b = s.member then s.collGo (act s nd) else s.sendNode c b seg nd.field late step nd) s =
      l.foldl (fun s nd => s.sendNode c b seg nd.field late step nd) s := by
  induction l generalizing s with
  | nil => rw [List.foldl_nil, List.foldl_nil]
  | cons nd l ih =>
    rw [List.foldl_cons, List.foldl_cons, if_neg hb]
    refine ih ?_
    rw [(fabricOnly_sendNode s c b seg nd.field late step nd).member]
    exact hb

/-- A device that coordinates no stage does nothing for the coordinator. -/
theorem coordTakeover_of_other {s : State} {c : CollCfg} {stage group : Nat} (hr : s.rootMember c stage group 0 ≠ s.member)
    (hn : ∀ lane, s.root? c.coll s.stroke.step stage group lane 0 = none) (lane seg : Nat) :
    s.coordTakeover c stage group lane seg = s := by
  have hc : s.coordinates c s.stroke.step stage group lane = false := by
    rw [State.coordinates, hn]
    simpa using hr
  exact if_pos (.inl (by rw [hc]; rfl))

theorem backupTakeover_of_other {s : State} {c : CollCfg} {stage group seg : Nat} (h : (s.rootEnt c stage group seg).backup ≠ s.member)
    (lane : Nat) : s.backupTakeover c stage group lane seg = s := if_pos (.inl h)

/-- The nodes of a segment that a one-stage collective's run keeps. -/
def CollCfg.nodesOf (c : CollCfg) (ns : List CNode) : List CNode :=
  ns.filter (fun n => c.stageOf n.level == 1 && c.groupOf 1 n.shard == 0)

theorem contribTakeover_of_other {s : State} {c : CollCfg} {seg : Nat} {x : CollRun} (hx : s.collRun? c.coll s.stroke.step = some x)
    (ht : c.two = false) (hm : s.mayContribute = true) (hb : (s.rootEnt c 1 0 seg).backup ≠ s.member) :
    s.contribTakeover c 1 0 seg =
      let b := (s.rootEnt c 1 0 seg).backup
      ((c.nodesOf x.nodes).map (segNode c seg)).foldl (fun u nd => u.sendNode c b seg nd.field false s.stroke.step nd)
        (((c.nodesOf x.late).map (segNode c seg)).foldl (fun u nd => u.sendNode c b seg nd.field true (s.stroke.step - 1) nd) s) := by
  rw [State.contribTakeover, hx, ht, hm]
  dsimp only
  simp only [Bool.not_true, Bool.false_and, Bool.false_eq_true, if_false, List.append_nil]
  have hlate := foldl_sendNode c _ seg true (s.stroke.step - 1) (fun u nd => [.arrive c.coll s.stroke.step 1 seg u.member nd])
    ((c.nodesOf x.late).map (segNode c seg)) hb
  rw [List.foldl_map] at hlate
  refine (congrArg (fun u => List.foldl _ u _) hlate).trans ?_
  exact foldl_sendNode c _ seg false s.stroke.step
    (fun u nd => [if 1 = 2 then .forward c.coll s.stroke.step 0 seg u.member nd else .arrive c.coll s.stroke.step 0 seg u.member nd])
    _ (by rw [(fabricOnly_sendNodes c _ seg true (s.stroke.step - 1) _ s).member]; exact hb)

/-- At a device that neither coordinates the segment nor backs it up, a takeover sends what the device contributed to the backup. -/
theorem exec_backupTakeover_of_contributor {s : State} {coll : Word} {seg : Nat} {c : CollCfg} (hc : s.collCfg coll = some c) {x : CollRun}
    (hx : s.collRun? coll s.stroke.step = some x) (hd : x.done = false) (hseg : seg < c.segs) (hrep : s.job.params.replay = false)
    (hjob : s.job.present = true) (ht : c.two = false) (hr : s.rootMember c 1 0 0 ≠ s.member)
    (hb : (s.rootEnt c 1 0 seg).backup ≠ s.member) (hn : ∀ lane, s.root? coll s.stroke.step 1 0 lane 0 = none) :
    exec (.backupTakeover coll seg) s = .next (s.contribTakeover c 1 0 seg).resume := by
  have hcoll : c.coll = coll := by simpa using List.find?_some hc
  have hopen : ¬ (c.segs ≤ seg ∨ !(!x.done) ∨ s.job.params.replay ∨ !s.job.present) := by simp [hd, hseg, hrep, hjob]
  have hlane : ∀ lane, (s.coordTakeover c 1 0 lane seg).backupTakeover c 1 0 lane seg = s := fun lane => by
    rw [coordTakeover_of_other hr (hcoll ▸ hn), backupTakeover_of_other hb]
  have hparts : c.parts = [(1, 0)] := by rw [CollCfg.parts, ht]; rfl
  rw [exec, execBackupTakeover, hc, hx]
  dsimp only
  rw [if_neg hopen, hparts]
  simp only [List.foldl_cons, List.foldl_nil, hlane]

/-! ### A result that does not come (R307, R319) -/

theorem raised_raisePeer {code sev k : Nat} (hk : evtBit ⟨.igs, 0, 0, pgIgs 0⟩ code sev = some k) (s : State) (peer : Nat) (coll : Word)
    (detail : Nat) : Raised s (s.raisePeer code sev peer coll detail) (pgIgs 0) k :=
  raised_raise (pg := ⟨.igs, 0, 0, pgIgs 0⟩) rfl rfl hk rfl rfl (fun _ hc => absurd hc List.not_mem_nil)

theorem exec_resultSegmentTimeout_of_missing {s : State} {coll : Word} {seg : Nat} {c : CollCfg} (hc : s.collCfg coll = some c) {x : CollRun}
    (hx : s.collRun? coll s.stroke.step = some x) (hd : x.done = false) (hseg : seg < c.segs) (ht : seg ∉ x.trailers)
    (hn : x.cores ≠ [] ∨ c.normSink = true) :
    ∃ u, Raised s u (pgIgs 0) 2 ∧ exec (.resultSegmentTimeout coll seg) s = .next (u.collGo [.result coll s.stroke.step seg
      (if u.takesData c u.member seg then List.replicate (c.segLen seg * (if c.kind = 2 then c.n else 1)) 0 else [])
      (x.incl.getD 0) (x.lateIncl.getD 0) false true]).resume := by
  have hmiss : ¬ (c.segs ≤ seg ∨ x.done ∨ x.trailers.contains seg ∨ (x.cores.isEmpty ∧ !c.normSink)) := by
    simp only [hd, List.contains_iff_mem, not_or]
    refine ⟨by omega, by decide, ht, fun h => ?_⟩
    rcases hn with hn | hn
    · exact hn (List.isEmpty_iff.1 h.1)
    · rw [hn] at h
      exact absurd h.2 (by decide)
  let missing := ((List.range c.segs).filter (fun k => !x.trailers.contains k)).length
  have hraised := raised_raisePeer (code := 0x0509) (sev := sevStep) rfl s 0 coll missing
  have hstep : (s.raisePeer 0x0509 sevStep 0 coll missing).stroke.step = s.stroke.step := by
    obtain ⟨regs, ring, host, dropped, log, out, hm, se, told, hu⟩ := hraised.1
    rw [hu]
  refine ⟨_, hraised, ?_⟩
  rw [exec, execResultSegmentTimeout, hc, hx]
  dsimp only
  rw [if_neg hmiss, hstep]

/-- Settles O43: each timer by what of the collective is here. -/
theorem collectiveTimers : Obligations.CollectiveTimers := by
  unfold Obligations.CollectiveTimers
  refine fun s coll seg c hc => ⟨fun late x hx => exec_collectiveDeadline_of_one hc hx,
    fun x hx hd hseg hrep hjob ht hm hr hb hn hh => ?_,
    fun x hx hd hseg ht hn => exec_resultSegmentTimeout_of_missing hc hx hd hseg ht hn⟩
  obtain rfl : c.coll = coll := by simpa using List.find?_some hc
  rw [exec_backupTakeover_of_contributor hc hx hd hseg hrep hjob ht hr hb hn, resume_of_fixed hh (fixed_contribTakeover ..),
    contribTakeover_of_other hx ht hm hb]
  rfl

end Sys2Proof.Machine
end


section
/-! PROOFS. Codewords that stand as their address reads them, and the narrow slots (R275, R277 to R280): O46. -/

namespace Sys2Proof.Machine

open Sys2Proof

/-! ### Sound codewords -/

theorem cwData_of_sound {s : State} {l off a : Nat} (h : s.sound l off a) :
    s.cwData l (off / 64) = bytesAt s.mem.hbm (hbmKey l (64 * (off / 64))) 64 := by
  obtain ⟨-, -, hm | ⟨hl, hm⟩⟩ := h
  · unfold State.cwData
    dsimp only
    rw [hm]
    cases (s.chan l).lost <;> rfl
  · unfold State.cwData
    dsimp only
    rw [hl]

/-- Without an injected error a sound codeword is read as it stands, and the read leaves no trace. -/
theorem cwRead_of_sound {s : State} {l off a : Nat} (h : s.sound l off a) (who : Reader) :
    s.cwRead l off a [] who = (bytesAt s.mem.hbm (hbmKey l (64 * (off / 64))) 64, .clean, s) := by
  have hd := cwData_of_sound h
  obtain ⟨⟨hb, ho, hoff⟩, hp, hm⟩ := h
  have hlook : s.cwLook l off a [] = (bytesAt s.mem.hbm (hbmKey l (64 * (off / 64))) 64, .clean) := by
    unfold State.cwLook
    dsimp only
    rw [if_neg (Nat.not_le.mpr hoff), hb, ho, hp, hd]
    obtain hm | ⟨hl, hm⟩ := hm
    · simp [hm, readMarked]
    · simp [hm, hl, readMarked]
  simp only [State.cwRead, hlook]

/-- A whole codeword is written over what it held. -/
theorem hbm_cwWrite_whole {s : State} {l k : Nat} (hr : s.reaches l (64 * k)) (a : Nat) {bs : List Byte} (hb : bs.length = 64) (bad : Bool) :
    (s.cwWrite l (64 * k) a bs bad).mem.hbm = setBytes s.mem.hbm (hbmKey l (64 * k)) bs := by
  obtain ⟨hback, ho, hoff⟩ := hr
  have hc : (!(s.chan l).backed || (s.stk ((s.chan l).phys / 32)).out || decide (pcBytes ≤ 64 * k)) = false := by
    simp [hback, ho, hoff]
  have hd : (s.cwData l k).length = 64 := length_cwData s l k
  have hw : (s.cwData l k).take 0 ++ bs ++ (s.cwData l k).drop (0 + bs.length) = bs := by
    rw [List.take_zero, List.nil_append, List.drop_eq_nil_of_le (by omega), List.append_nil]
  unfold State.cwWrite
  dsimp only
  rw [hc, if_neg Bool.false_ne_true, Nat.mul_mod_right, Nat.mul_div_cancel_left _ (by omega), hw]
  rfl

/-- A codeword written back with some bytes in place of its own changes those and no others. -/
theorem merged_codeword {m : List Host.Cell} {a w : Nat} {new : List Byte} (hw : w + new.length ≤ 64) :
    Holds (setBytes m a ((bytesAt m a 64).take w ++ new ++ (bytesAt m a 64).drop (w + new.length))) (a + w) new ∧
    BytesKept m (setBytes m a ((bytesAt m a 64).take w ++ new ++ (bytesAt m a 64).drop (w + new.length))) (within (a + w) new.length) := by
  set bs := (bytesAt m a 64).take w ++ new ++ (bytesAt m a 64).drop (w + new.length) with hbs
  have hlen : bs.length = 64 := by simp [hbs]; omega
  have hmid : ∀ k, k < new.length → bs.getD (w + k) 0 = new.getD k 0 := fun k hk => by
    simp only [hbs, List.getD_eq_getElem?_getD, List.append_assoc]
    rw [List.getElem?_append_right (by simp), List.getElem?_append_left (by simp; omega)]
    congr 2
    simp
    omega
  have hold : ∀ k, k < 64 → (k < w ∨ w + new.length ≤ k) → bs.getD k 0 = byteAt m (a + k) := fun k hk ho => by
    have hm : (bytesAt m a 64)[k]? = some (byteAt m (a + k)) := by rw [bytesAt_eq_map]; simp [hk]
    simp only [hbs, List.getD_eq_getElem?_getD, List.append_assoc]
    rcases ho with ho | ho
    · rw [List.getElem?_append_left (by simp [ho, hk]), List.getElem?_take_of_lt ho, hm, Option.getD_some]
    · rw [List.getElem?_append_right (by simp; omega), List.getElem?_append_right (by simp; omega), List.getElem?_drop,
        show w + new.length + (k - ((bytesAt m a 64).take w).length - new.length) = k by simp; omega, hm, Option.getD_some]
  constructor
  · unfold Holds
    rw [bytesAt_eq_map]
    refine List.ext_getElem (by simp) fun k hk _ => ?_
    have hk' : k < new.length := by simpa using hk
    rw [List.getElem_map, List.getElem_range, byteAt_setBytes, if_pos (by omega), show a + w + k - a = w + k by omega, hmid k hk',
      List.getD_eq_getElem _ _ hk']
  · intro k hk
    unfold within at hk
    rw [byteAt_setBytes]
    split
    · rw [hold (k - a) (by omega) (by omega), show a + (k - a) = k by omega]
    · rfl

/-! ### Narrow slots -/

/-- A request whose indices all name rows has no row to skip. -/
theorem badRows_of_rows {r : NarrowReq} {d : NarrowDef} (h : ∀ i ∈ r.idx, i.toNat < d.rows) (s : State) (v : Nat) : s.badRows v r d = (r, s) := by
  unfold State.badRows
  have hz : ∀ e ∈ r.idx.zipIdx, e.1.toNat < d.rows := fun e he => h _ (List.fst_mem_of_mem_zipIdx he)
  revert hz
  generalize r.idx.zipIdx = es
  induction es with
  | nil => intro _; rfl
  | cons e es ih =>
    intro hz
    have hne : ¬ (d.rows ≤ e.1.toNat ∧ !r.got.any (fun g => g.1 == e.2 * d.grains)) := fun hc =>
      absurd (hz e List.mem_cons_self) (Nat.not_lt.mpr hc.1)
    rw [List.foldl_cons, if_neg hne]
    exact ih fun e he => hz e (by simp [he])

theorem onlyStp_noteWrote (s : State) (bulk : Bool) (a : Nat) : s.noteWrote bulk a = { s with stp := (s.noteWrote bulk a).stp } := by
  unfold State.noteWrote
  split
  · rfl
  · split <;> rfl

theorem cores_cwWrite (s : State) (l off a : Nat) (bs : List Byte) (bad : Bool) (q : Nat) : (s.cwWrite l off a bs bad).core q = s.core q := by
  unfold State.cwWrite
  dsimp only
  split <;> rfl

/-- The grain of a GATHER is read from its codeword. -/
theorem serveGrain_gather {s : State} {r : NarrowReq} {a l off : Nat} (hg : r.scatter = false)
    (hl : locate (max 1 s.mem.nLc) (s.xlate false r.scatter a) = (l, off)) (h : s.sound l off (s.xlate false r.scatter a)) (k : Nat) :
    s.serveGrain r k a [] = (((bytesAt s.mem.hbm (hbmKey l (64 * (off / 64))) 64).drop (off % 64)).take 32, s) := by
  rw [hg] at hl h
  unfold State.serveGrain
  simp only [hg, hl, cwRead_of_sound h, Bool.false_eq_true, if_false]

/-- The grain of a SCATTER is merged into its codeword. -/
theorem serveGrain_scatter {s : State} {r : NarrowReq} {k a l off : Nat} (hg : r.scatter = true)
    (hl : locate (max 1 s.mem.nLc) (s.xlate false r.scatter a) = (l, off)) (h : s.sound l off (s.xlate false r.scatter a))
    (hw : off % 64 ≤ 32) (hd : 32 * (k + 1) ≤ r.data.length) :
    (s.serveGrain r k a []).1 = [] ∧ (∀ q, (s.serveGrain r k a []).2.core q = s.core q) ∧
      Holds (s.serveGrain r k a []).2.mem.hbm (hbmKey l off) ((r.data.drop (32 * k)).take 32) ∧
      BytesKept s.mem.hbm (s.serveGrain r k a []).2.mem.hbm (within (hbmKey l off) 32) := by
  have hn : ((r.data.drop (32 * k)).take 32).length = 32 := by simp; omega
  have hkey : hbmKey l off = hbmKey l (64 * (off / 64)) + off % 64 := by unfold hbmKey; omega
  have hoff : off - off % 64 = 64 * (off / 64) := by omega
  have hserve : s.serveGrain r k a [] = ([], (s.noteWrote false a).cwWrite l (64 * (off / 64)) (s.xlate false r.scatter a)
      ((bytesAt s.mem.hbm (hbmKey l (64 * (off / 64))) 64).take (off % 64) ++ (r.data.drop (32 * k)).take 32 ++
        (bytesAt s.mem.hbm (hbmKey l (64 * (off / 64))) 64).drop (off % 64 + 32)) false) := by
    rw [hg] at hl h
    unfold State.serveGrain
    simp only [hg, hl, cwRead_of_sound h, if_true, hoff]
    rfl
  rw [hserve]
  have hstp := onlyStp_noteWrote s false a
  have hr : (s.noteWrote false a).reaches l (64 * (off / 64)) := by
    rw [hstp]
    obtain ⟨⟨hb, ho, hlt⟩, -⟩ := h
    exact ⟨hb, ho, by omega⟩
  have hm : (s.noteWrote false a).mem = s.mem := by rw [hstp]
  refine ⟨rfl, fun q => (cores_cwWrite ..).trans (by rw [hstp]; rfl), ?_⟩
  have key := merged_codeword (m := s.mem.hbm) (a := hbmKey l (64 * (off / 64))) (w := off % 64) (new := (r.data.drop (32 * k)).take 32)
    (by omega)
  rw [hn, ← hkey] at key
  rw [hbm_cwWrite_whole hr _ (by simp; omega), hm]
  exact key

/-- Settles O46. -/
theorem narrowServed : Obligations.NarrowServed := by
  unfold Obligations.NarrowServed
  intro s c f q l k a held v tb d r hv hd hc hlive hhold hf hgr hr hrows at_ hk ha hgot off hs
  have hbad := badRows_of_rows hrows s v.val
  have hgr' : (d.grains == 0) = false := by simpa using hgr
  have hloc : (locate (max 1 s.mem.nLc) (at_ a)).1 = l := by
    have := List.find?_some hk
    rw [ha] at this
    simpa using (Bool.and_eq_true_iff.mp this).2
  have hl : locate (max 1 s.mem.nLc) (s.xlate false r.scatter a) = (l, off) := Prod.ext hloc rfl
  have hexec : ∀ (bs : List Byte) (t : State), s.serveGrain r k a [] = (bs, t) →
      exec (.narrowSlot c f v tb ⟨held, []⟩) s = .next (t.setCore q { t.core q with
          narrow := (t.core q).narrow.map (fun x => if x = r then { r with got := r.got ++ [(k, bs)] } else x) }) := fun bs t ht => by
    have hlen : ¬ r.idx.length * d.grains ≤ (r.got ++ [(k, bs)]).length := by simp; omega
    have h12 : ¬ 12 ≤ f % 16 := by omega
    rw [exec]
    unfold execNarrowSlot
    simp only [hv, hd, hc, hr, hlive, hhold, hgr', hbad, h12, Bool.not_true, Bool.false_or, bne_self_eq_false, decide_false,
      Bool.false_eq_true, if_false]
    generalize hm : List.find? _ (List.range (r.idx.length * d.grains)) = mine
    have hmine : mine = some k := hm.symm.trans hk
    subst hmine
    simp only [Option.bind_some, ha, Option.map_some, ht, if_neg hlen]
  refine ⟨fun hg => ?_, fun hg hw hd' => ?_⟩
  · refine ⟨_, hexec _ _ (serveGrain_gather hg hl hs k), onlyCore_setCore s q _, ?_⟩
    exact core_setCore_self ..
  · obtain ⟨hbs, hcore, hholds, hkept⟩ := serveGrain_scatter hg hl hs hw hd'
    refine ⟨_, hexec _ _ (Prod.ext hbs rfl), hholds, hkept, ?_⟩
    rw [core_setCore_self, hcore]

end Sys2Proof.Machine
end


section
/-! PROOFS. Calendar slots and deliveries (R202, R265 to R270): O45. -/

namespace Sys2Proof.Machine

open Sys2Proof

/-! ### The place of a calendar -/

theorem pc_setPc_self (s : State) (c : Nat) (x : PcSt) : (s.setPc c x).pc c = x := tget_tset_self ..

theorem pc_setPc_ne (s : State) {c q : Nat} (x : PcSt) (h : q ≠ c) : (s.setPc c x).pc q = s.pc q := tget_tset_ne _ _ _ h

/-- A calendar that begins its next segment answers as before. -/
theorem lost_calAt {s : State} {ch : Nat} {x : PcSt} (h : s.calAt ch = some x) : x.lost = (s.pc ch).lost := by
  unfold State.calAt at h
  dsimp only at h
  split at h
  · injection h with h
    rw [← h]
  · split at h
    · injection h with h
      rw [← h]
    · cases h

/-- Whether a codeword is sound does not turn on where a calendar stands. -/
theorem sound_setPc {s : State} {ch l off a : Nat} {x : PcSt} (h : s.sound l off a) (hx : x.lost = (s.pc ch).lost) :
    (s.setPc ch x).sound l off a := by
  obtain ⟨hr, hp, hm⟩ := h
  refine ⟨hr, ?_, hm⟩
  by_cases hc : (s.chan l).phys = ch
  · exact (congrArg PcSt.lost ((congrArg _ hc).trans (pc_setPc_self s ch x))).trans (hx.trans (hc ▸ hp))
  · exact (congrArg PcSt.lost (pc_setPc_ne s x hc)).trans hp

/-! ### What an update of a counter by the movement unit leaves -/

theorem logged_evFx (p v : Nat) (fx : List Fx) (s : State) :
    Logged s (fx.foldl (fun s fx => match fx with
      | .ev code id w det caps => s.coreRaise p v code id w det caps
      | _ => s) s) := by
  induction fx generalizing s with
  | nil => exact .refl s
  | cons f fx ih =>
    rw [List.foldl_cons]
    cases f
    case ev code id w det caps => exact (logged_coreRaise ..).trans (ih _)
    all_goals exact ih _

theorem cm_ctrAdd (r : Run) (k : Nat) (d : Word) (w : Nat) : (r.ctrAdd k d w).c.cm = r.c.cm := by
  unfold Run.ctrAdd
  dsimp only
  split <;> rfl

/-- Between two states core memory and the memories of the device stand. -/
structure MemKept (s t : State) : Prop where
  mem : t.mem = s.mem
  cm : ∀ q, (t.core q).cm = (s.core q).cm

theorem MemKept.trans {s t u : State} (h : MemKept s t) (k : MemKept t u) : MemKept s u :=
  ⟨k.mem.trans h.mem, fun q => (k.cm q).trans (h.cm q)⟩

theorem MemKept.of_logged {s t : State} (h : Logged s t) : MemKept s t := ⟨h.mem, fun q => congrArg Core.cm (h.core q)⟩

theorem memKept_setCore {s : State} {p : Nat} {c : Core} (h : c.cm = (s.core p).cm) : MemKept s (s.setCore p c) := by
  refine ⟨rfl, fun q => ?_⟩
  by_cases hq : q = p
  · rw [hq, core_setCore_self, h]
  · rw [core_setCore_ne _ _ hq]

theorem memKept_muUp (s : State) (v : Nat) (ctr : Option Nat) : MemKept s (s.muUp v ctr) := by
  unfold State.muUp
  split
  · exact (memKept_setCore (cm_ctrAdd ..)).trans (.of_logged (logged_evFx ..))
  · exact ⟨rfl, fun _ => rfl⟩

theorem memKept_countStall (s : State) (p : Nat) (lanes : Bool) (cls : StallClass) (n : Nat) : MemKept s (s.countStall p lanes cls n) := by
  unfold State.countStall
  dsimp only
  split
  · exact ⟨rfl, fun _ => rfl⟩
  · have h : ∀ lo, Logged s ((s.bumpPair lo n).bump (Reg.coreCvStep p) n) := fun _ => (logged_bumpPair ..).trans (logged_bump ..)
    split
    · exact .of_logged ((h _).trans (logged_bumpPair ..))
    · exact .of_logged (h _)

theorem memKept_landHeld (s : State) (v n : Nat) : MemKept s (s.landHeld v n) := by
  unfold State.landHeld
  split
  · exact ⟨rfl, fun _ => rfl⟩
  · exact memKept_countStall ..

/-- The end of a run takes the run's counts of moved units away, and leaves the memories. -/
theorem endRun_keeps (s : State) (v t : Nat) :
    (∃ m, (s.endRun v t).mem = { s.mem with moved := m }) ∧ ∀ q, ((s.endRun v t).core q).cm = (s.core q).cm := by
  unfold State.endRun
  split
  · split
    · exact ⟨⟨_, rfl⟩, fun _ => rfl⟩
    · next p d hp hd _ k hk =>
      split
      · have h := memKept_muUp { s.setCore p { s.core p with tickets := tset none (s.core p).tickets t none } with
          mem := { s.mem with moved := s.mem.moved.filter (fun e => e.1 / 512 != 1024 * v + t) } } v k.ctr
        have h0 : MemKept s (s.setCore p { s.core p with tickets := tset none (s.core p).tickets t none }) := memKept_setCore rfl
        exact ⟨⟨_, h.mem⟩, fun q => (h.cm q).trans (h0.cm q)⟩
      · exact ⟨⟨_, rfl⟩, fun _ => rfl⟩
  · exact ⟨⟨_, rfl⟩, fun _ => rfl⟩

/-! ### Slots that are held -/

theorem holdSlot_keeps (s : State) (ch v : Nat) (cls : StallClass) (held : Nat) :
    ∃ told, Logged (s.setPc ch { s.pc ch with lag := (s.pc ch).lag + held, lagTold := told }) (s.holdSlot ch v cls held) := by
  refine ⟨(s.pc ch).lagTold || (decide (2 ^ s.stroke.n < (s.pc ch).lag + held) && !(s.pc ch).lagTold && decide (ch < 384)), ?_⟩
  unfold State.holdSlot
  dsimp only
  generalize s.setPc ch _ = y
  have h1 : Logged y (if ch < 384 then y.bumpPair Reg.hbmLagCycLo held else y) := by
    split
    · exact logged_bumpPair ..
    · exact .refl y
  revert h1
  generalize (if ch < 384 then y.bumpPair Reg.hbmLagCycLo held else y) = z
  intro h1
  have h2 : Logged y (match z.holder v with
      | none => z
      | some p => (z.bumpPair (if cls == .read then Reg.coreCvReadLo p else Reg.coreCvQueueLo p) held).bump (Reg.coreCvStep p) held) := by
    cases z.holder v with
    | none => exact h1
    | some p => exact h1.trans ((logged_bumpPair ..).trans (logged_bump ..))
  split
  · exact Logged.trans h2 (logged_raiseM ..)
  · exact h2

/-! ### Data slots -/

section
variable {s : State} {ch : Fin 396} {x : PcSt} {kind t v count p : Nat} {d : TicketDef} {e : SlotUnit}
  (hlive : s.live = true) (hhold : s.stroke.hold = .no) (hx : s.calAt ch = some x) (hen : s.calEntry ch x = (kind, t, v, count))
  (hv : s.holder v = some p) (hd : s.ticketDef v t = some d)
include hlive hhold hx hen hv hd

/-- An entry that moves nothing wins back what the calendar is behind (R270). -/
theorem exec_dataSlot_idle (obs : SlotObs) (hk : kind = 0) :
    exec (.calendarDataSlot ch obs) s = .next
      (((s.setPc ch x).setPc ch { x with lag := x.lag - s.slotCyc ch }).setPc ch
        (({ x with lag := x.lag - s.slotCyc ch } : PcSt).advance count)) := by
  have hv' : (s.setPc ch x).holder v = some p := hv
  have hd' : (s.setPc ch x).ticketDef v t = some d := hd
  have hc : (s.setPc ch x).slotCyc ch = s.slotCyc ch := rfl
  subst hk
  rw [exec]
  unfold execCalendarDataSlot
  simp only [hlive, hhold, hx, hen, hv', hd', hc, pc_setPc_self, Bool.not_true, bne_self_eq_false, Bool.false_or, Bool.false_eq_true, if_false]
  rw [if_pos (.inl ⟨by omega, by omega⟩)]

variable (hch : ch.val < 384) (hb : d.bulk = false) (hu : s.slotUnit ch v t d = some e)
include hch hb hu

/-- A read slot of a ticket that can be taken sends its codeword on its way. -/
theorem exec_dataSlot_read (obs : SlotObs) (hk : kind = 1) (hw : d.write = false)
    (hroom : (s.core p).landing.length < 512 ∨ ∃ k, tget none (s.core p).tickets t = some k) :
    exec (.calendarDataSlot ch obs) s = .next
      (((s.setPc ch x).readSlot ch v t d e obs.err).setPc ch ((((s.setPc ch x).readSlot ch v t d e obs.err).pc ch).advance count)) := by
  have hv' : (s.setPc ch x).holder v = some p := hv
  have hd' : (s.setPc ch x).ticketDef v t = some d := hd
  have hu' : (s.setPc ch x).slotUnit ch v t d = some e := hu
  have hc' : (s.setPc ch x).core p = s.core p := rfl
  have hn : ¬ (kind ≠ 1 ∧ kind ≠ 2 ∨ d.write ≠ (kind == 2) ∨ d.bulk ≠ decide (384 ≤ ch.val)) := by
    simp [hk, hw, hb]; omega
  rw [exec]
  unfold execCalendarDataSlot
  simp only [hlive, hhold, hx, hen, hv', hd', hu', hc', Bool.not_true, bne_self_eq_false, Bool.false_or, Bool.false_eq_true, if_false, if_neg hn]
  cases hk' : tget none (s.core p).tickets t with
  | none =>
    have hl : (s.core p).landing.length < 512 := by
      rcases hroom with h | ⟨k, h⟩
      · exact h
      · rw [hk'] at h; cases h
    dsimp only
    rw [if_pos ⟨hk, hl⟩]
  | some k =>
    dsimp only
    rw [if_pos hk]

/-- A read slot whose data has no place is held. -/
theorem exec_dataSlot_full (obs : SlotObs) (hk : kind = 1) (hw : d.write = false) (hl : 512 ≤ (s.core p).landing.length)
    (ht : tget none (s.core p).tickets t = none) :
    exec (.calendarDataSlot ch obs) s = .next ((s.setPc ch x).holdSlot ch v .queue obs.held) := by
  have hv' : (s.setPc ch x).holder v = some p := hv
  have hd' : (s.setPc ch x).ticketDef v t = some d := hd
  have hu' : (s.setPc ch x).slotUnit ch v t d = some e := hu
  have hc' : (s.setPc ch x).core p = s.core p := rfl
  have hn : ¬ (kind ≠ 1 ∧ kind ≠ 2 ∨ d.write ≠ (kind == 2) ∨ d.bulk ≠ decide (384 ≤ ch.val)) := by
    simp [hk, hw, hb]; omega
  rw [exec]
  unfold execCalendarDataSlot
  simp only [hlive, hhold, hx, hen, hv', hd', hu', hc', ht, Bool.not_true, bne_self_eq_false, Bool.false_or, Bool.false_eq_true, if_false,
    if_neg hn]
  rw [if_neg (by omega)]

/-- A write slot stores the bytes of its ticket's buffer. -/
theorem exec_dataSlot_write (obs : SlotObs) {k : Ticket} (hk : kind = 2) (hw : d.write = true) (ht : tget none (s.core p).tickets t = some k)
    (hok : k.ok = true) (hplain : Plain (s.ctxOf v p) (refOff k.buf + 64 * e.place) 64) {w : State}
    (hwr : w = (((s.setPc ch x).setCore p (s.core p)).noteWrote false (d.addr + 64 * e.place)).cwWrite e.chan e.off e.addr
      (bytesAt (s.core p).cm (refOff k.buf + 64 * e.place) 64) false) :
    exec (.calendarDataSlot ch obs) s = .next
      (((w.setMoved v t ch (w.movedOn v t ch + 1)).setPc ch (((w.setMoved v t ch (w.movedOn v t ch + 1)).pc ch).advance count)).endRun v t) := by
  have hv' : (s.setPc ch x).holder v = some p := hv
  have hd' : (s.setPc ch x).ticketDef v t = some d := hd
  have hu' : (s.setPc ch x).slotUnit ch v t d = some e := hu
  have hc' : (s.setPc ch x).core p = s.core p := rfl
  have hn : ¬ (kind ≠ 1 ∧ kind ≠ 2 ∨ d.write ≠ (kind == 2) ∨ d.bulk ≠ decide (384 ≤ ch.val)) := by
    simp [hk, hw, hb]; omega
  have hlen : d.unitLen e.place = 1 := by unfold TicketDef.unitLen; simp [hb]
  have hbytes : (s.setPc ch x).slotBytes v p k d e =
      some (bytesAt (s.core p).cm (refOff k.buf + 64 * e.place) 64, (s.setPc ch x).setCore p (s.core p)) := by
    have hg : readGranules ((s.setPc ch x).ctxOf v p) k.st (granules (refOff k.buf + 64 * e.place) 64) (s.core p) = some (s.core p, []) :=
      readGranules_plain hplain _
    unfold State.slotBytes
    simp only [hok, hlen, hb, hc', Nat.mul_one, Bool.not_true, Bool.false_eq_true, if_false, hg, Option.map_some, List.foldl_nil, List.map_nil]
    exact congrArg (fun b => some (b, (s.setPc ch x).setCore p (s.core p))) (maskStale_nil _ _)
  rw [exec]
  unfold execCalendarDataSlot
  simp only [hlive, hhold, hx, hen, hv', hd', hu', hc', ht, hbytes, Bool.not_true, bne_self_eq_false, Bool.false_or, Bool.false_eq_true,
    if_false, if_neg hn]
  rw [if_neg (by omega), State.writeUnit, hb, if_neg Bool.false_ne_true, if_neg Bool.false_ne_true, ← hwr]

end

/-! ### Deliveries -/

theorem hwWrite_plain {x : Ctx} {g : Nat} (h : regionOf x g = none) (b : Bool) (c : Core) : hwWrite x g b c = some c := by
  unfold hwWrite
  rw [h]

/-- The codeword of a delivery lands under its arm. -/
theorem landGrains_plain {s : State} {v p : Nat} {a : Ticket} {d : Delivery} (hok : a.ok = true) (hb : d.bulk = false)
    (hr : regionOf (s.ctxOf v p) ((refOff a.buf + 64 * d.grain) / 64) = none) :
    State.landGrains v p a d.grains s = some (s.setCore p { s.core p with cm := setBytes (s.core p).cm (refOff a.buf + 64 * d.grain) d.bytes }) := by
  have h : s.landGrain v p a d.grain d.bytes =
      some (s.setCore p { s.core p with cm := setBytes (s.core p).cm (refOff a.buf + 64 * d.grain) d.bytes }) := by
    unfold State.landGrain
    simp only [hok, Bool.not_true, Bool.false_eq_true, if_false, hwWrite_plain hr, Option.map_some]
  simp only [Delivery.grains, hb, Bool.false_eq_true, if_false, State.landGrains, h, Option.bind_some]

/-- A delivery that no earlier one of its channel precedes. -/
theorem any_before_eq_false {s : State} {k : Nat} {d : Delivery} (h : ∀ e ∈ s.mem.deliveries.take k, e.pc ≠ d.pc) :
    (s.mem.deliveries.take k).any (fun e => e.pc == d.pc) = false :=
  List.any_eq_false.mpr fun e he => by simpa using h e he

/-! ### The obligation -/

theorem memKept_noteWrote (s : State) (bulk : Bool) (a : Nat) : MemKept s (s.noteWrote bulk a) := by
  rw [onlyStp_noteWrote s bulk a]
  exact ⟨rfl, fun _ => rfl⟩

/-- A codeword's write leaves the calendars and what travels from the memory. -/
theorem mem_cwWrite (s : State) (l off a : Nat) (bs : List Byte) (bad : Bool) :
    (s.cwWrite l off a bs bad).mem =
      { s.mem with chans := (s.cwWrite l off a bs bad).mem.chans, hbm := (s.cwWrite l off a bs bad).mem.hbm } := by
  unfold State.cwWrite
  dsimp only
  split <;> rfl

/-- Settles O45. -/
theorem calendarSlots : Obligations.CalendarSlots := by
  unfold Obligations.CalendarSlots
  refine ⟨fun s ch held x kind t v count p d hlive hhold hx hen hv hd => ⟨fun hk => ?_, fun e hch hb hu hs => ⟨fun hk hw hroom => ?_,
    fun hk hw hl ht => ?_, fun k hk hw ht hok hal hplain => ?_⟩⟩, fun s k q d hk hpc hq => ⟨fun held ht hl => ?_, fun held ht hl => ?_,
    fun a ha hok hb hr => ?_⟩⟩
  · refine ⟨_, exec_dataSlot_idle hlive hhold hx hen hv hd ⟨held, []⟩ hk, pc_setPc_self .., fun q hq => ?_, rfl⟩
    rw [pc_setPc_ne _ _ hq, pc_setPc_ne _ _ hq, pc_setPc_ne _ _ hq]
  · have hread : (s.setPc ch x).readSlot ch v t d e [] = ({ s.setPc ch x with mem := { (s.setPc ch x).mem with
          deliveries := s.mem.deliveries ++ [⟨ch.val, false, v, t, e.place, bytesAt s.mem.hbm (hbmKey e.chan (64 * (e.off / 64))) 64⟩] } }
        : State).setMoved v t ch (s.movedOn v t ch + 1) := by
      unfold State.readSlot
      simp only [hb, Bool.false_eq_true, if_false, cwRead_of_sound (sound_setPc hs (lost_calAt hx))]
      rfl
    refine ⟨_, exec_dataSlot_read hlive hhold hx hen hv hd hch hb hu ⟨held, []⟩ hk hw hroom, ?_⟩
    dsimp only
    rw [hread]
    refine ⟨(pc_setPc_self ..).trans (congrArg (PcSt.advance · count) (pc_setPc_self s ch x)), fun q hq => ?_, rfl⟩
    exact (pc_setPc_ne _ _ hq).trans (pc_setPc_ne s x hq)
  · obtain ⟨told, h⟩ := holdSlot_keeps (s.setPc ch x) ch v .queue held
    have hm := h.mem
    have hpc : ∀ q, ((s.setPc ch x).holdSlot ch v .queue held).pc q = _ := fun q => congrArg (fun m : MemSt => tget pc0 m.pcs q) hm
    have hself := (hpc ch).trans (pc_setPc_self ..)
    rw [pc_setPc_self] at hself
    refine ⟨_, exec_dataSlot_full hlive hhold hx hen hv hd hch hb hu ⟨held, []⟩ hk hw hl ht, (congrArg PcSt.lag hself).trans rfl, (congrArg PcSt.entry hself).trans rfl,
      (congrArg PcSt.used hself).trans rfl, (congrArg PcSt.ran hself).trans rfl, fun q hq => (hpc q).trans ((pc_setPc_ne _ _ hq).trans (pc_setPc_ne s x hq)), ?_, h.cores⟩
    rw [hm]
    rfl
  · refine ⟨_, exec_dataSlot_write hlive hhold hx hen hv hd hch hb hu ⟨held, []⟩ hk hw ht hok hplain rfl, ?_⟩
    have hnote := memKept_noteWrote ((s.setPc ch x).setCore p (s.core p)) false (d.addr + 64 * e.place)
    have hmem := mem_cwWrite (((s.setPc ch x).setCore p (s.core p)).noteWrote false (d.addr + 64 * e.place)) e.chan e.off e.addr
      (bytesAt (s.core p).cm (refOff k.buf + 64 * e.place) 64) false
    have hhbm : ((((s.setPc ch x).setCore p (s.core p)).noteWrote false (d.addr + 64 * e.place)).cwWrite e.chan e.off e.addr
        (bytesAt (s.core p).cm (refOff k.buf + 64 * e.place) 64) false).mem.hbm =
        setBytes s.mem.hbm (hbmKey e.chan e.off) (bytesAt (s.core p).cm (refOff k.buf + 64 * e.place) 64) := by
      obtain ⟨j, hj⟩ : ∃ j, e.off = 64 * j := ⟨e.off / 64, by omega⟩
      have hr : (((s.setPc ch x).setCore p (s.core p)).noteWrote false (d.addr + 64 * e.place)).reaches e.chan (64 * j) := by
        rw [onlyStp_noteWrote, ← hj]
        exact hs.1
      rw [hj, hbm_cwWrite_whole hr _ (length_bytesAt ..), hnote.mem]
      rfl
    rw [hnote.mem] at hmem
    generalize (((s.setPc ch x).setCore p (s.core p)).noteWrote false (d.addr + 64 * e.place)).cwWrite e.chan e.off e.addr
      (bytesAt (s.core p).cm (refOff k.buf + 64 * e.place) 64) false = w at hmem hhbm ⊢
    have hpcs : w.mem.pcs = (s.setPc ch x).mem.pcs := (congrArg MemSt.pcs hmem).trans rfl
    have hpc : ∀ q, w.pc q = (s.setPc ch x).pc q := fun q => congrArg (fun m => tget pc0 m q) hpcs
    obtain ⟨⟨m, hm⟩, -⟩ := endRun_keeps ((w.setMoved v t ch (w.movedOn v t ch + 1)).setPc ch
      (((w.setMoved v t ch (w.movedOn v t ch + 1)).pc ch).advance count)) v t
    have hu : ∀ q, (State.endRun _ v t).pc q = _ := fun q => congrArg (fun m : MemSt => tget pc0 m.pcs q) hm
    have hkept : (State.endRun _ v t).mem.hbm = _ := (congrArg MemSt.hbm hm).trans hhbm
    refine ⟨(hu ch).trans ((pc_setPc_self ..).trans (congrArg (PcSt.advance · count) ((hpc ch).trans (pc_setPc_self s ch x)))),
      fun q hq => (hu q).trans ((pc_setPc_ne _ _ hq).trans ((hpc q).trans (pc_setPc_ne s x hq))), ?_, ?_,
      (congrArg MemSt.deliveries hm).trans ((congrArg MemSt.deliveries hmem).trans rfl)⟩
    · unfold Holds
      rw [hkept, bytesAt_setBytes_self]
    · intro a ha
      unfold within at ha
      rw [hkept, byteAt_setBytes_of_outside (by rw [length_bytesAt]; omega)]
  · have hp : ({ s with mem := { s.mem with deliveries := s.mem.deliveries.eraseIdx k } } : State).core q = s.core q := rfl
    rw [exec]
    unfold execCalendarReadDelivery
    simp only [hk, any_before_eq_false hpc, hq, ht, Bool.false_eq_true, if_false, hp, if_neg (Nat.not_lt.mpr hl)]
  · have hp : ({ s with mem := { s.mem with deliveries := s.mem.deliveries.eraseIdx k } } : State).core q = s.core q := rfl
    rw [exec]
    unfold execCalendarReadDelivery
    simp only [hk, any_before_eq_false hpc, hq, ht, Bool.false_eq_true, if_false, hp, if_pos hl]
  · have hland := landGrains_plain (s := { s with mem := { s.mem with deliveries := s.mem.deliveries.eraseIdx k } }) (d := d) hok hb hr
    have hexec : exec (.calendarReadDelivery k ⟨0, none⟩) s = .next ((State.landHeld (State.setCore { s with mem := { s.mem with
        deliveries := s.mem.deliveries.eraseIdx k } } q { s.core q with cm := setBytes (s.core q).cm (refOff a.buf + 64 * d.grain) d.bytes })
        d.core 0).endRun d.core d.ticket) := by
      rw [exec]
      unfold execCalendarReadDelivery
      simp only [hk, any_before_eq_false hpc, hq, ha, Bool.false_eq_true, if_false, hland]
      rfl
    have hheld := memKept_landHeld (State.setCore { s with mem := { s.mem with
        deliveries := s.mem.deliveries.eraseIdx k } } q { s.core q with cm := setBytes (s.core q).cm (refOff a.buf + 64 * d.grain) d.bytes })
        d.core 0
    obtain ⟨⟨m, hm⟩, hcm⟩ := endRun_keeps (State.landHeld (State.setCore { s with mem := { s.mem with
        deliveries := s.mem.deliveries.eraseIdx k } } q { s.core q with cm := setBytes (s.core q).cm (refOff a.buf + 64 * d.grain) d.bytes })
        d.core 0) d.core d.ticket
    have hcm' := (hcm q).trans ((hheld.cm q).trans (congrArg Core.cm (core_setCore_self ..)))
    refine ⟨_, hexec, (congrArg MemSt.deliveries hm).trans (congrArg MemSt.deliveries hheld.mem), ?_, ?_⟩
    · unfold Holds
      rw [hcm', bytesAt_setBytes_self]
    · intro b hb
      unfold within at hb
      rw [hcm', byteAt_setBytes_of_outside (by omega)]

end Sys2Proof.Machine
end


section
/-! PROOFS. Packets that a receive buffer has no room for (R309): O38 and O44. -/

namespace Sys2Proof.Machine

open Sys2Proof

/-- A new packet whose bytes the receive buffer has no room for is refused with reason 4. -/
theorem enter_of_full {s : State} {f : Nat} {p : Pkt} (hs : (s.flow f).seen p.seq = false) (hb : (s.flow f).buffers p = true)
    (hr : s.restoreFlow f = false) (h : flowBuffer < s.bufUsed + p.payload.length) : s.enter f p = (false, s.sendNack f p.epoch p.seq 4) := by
  unfold State.enter
  dsimp only
  rw [hs, hb, hr, if_neg Bool.false_ne_true, if_pos (by simpa using h)]

theorem flows_sendNack (s : State) (f : Nat) (ep seq : Word) (reason : Nat) : (s.sendNack f ep seq reason).fab.flows = s.fab.flows :=
  flows_transmit ..

section
variable {s : State} {r : Rx} (h : s.delivers r) (ht : r.pkt.typ = 0) (hs : (s.heardFlow r).seen r.pkt.seq = false)
  (hb : (s.heardFlow r).buffers r.pkt = true) (hfull : flowBuffer < (s.accepted r).bufUsed + r.pkt.payload.length)
include h hs hb hfull

theorem enter_accepted_of_full : (s.accepted r).enter r.pkt.flow r.pkt =
    (false, (s.accepted r).sendNack r.pkt.flow r.pkt.epoch r.pkt.seq 4) := by
  have hr : (s.accepted r).restoreFlow r.pkt.flow = false := by
    have hh : (s.accepted r).stroke.hold = .no := by
      rw [(arrived_accepted s r).2.1]
      exact h.2.2.2.2.2.2.2.2.2.2.2
    unfold State.restoreFlow
    rw [hh]
    rfl
  exact enter_of_full (by rw [flow_accepted]; exact hs) (by rw [flow_accepted]; exact hb) hr hfull

include ht

/-- A DATA packet of no load. -/
theorem exec_data_of_full (hl : s.loadOfPkt r.pkt = none) :
    exec (.igsumDataPacket r) s = .next ((s.accepted r).sendNack r.pkt.flow r.pkt.epoch r.pkt.seq 4) := by
  have hc := check_of_delivers h (by omega)
  have he := enter_accepted_of_full h hs hb hfull
  obtain ⟨hup, hkeep, -, -, -, -, hflow, -, -, -, -, hhold⟩ := h
  have hmod : r.pkt.flow % 4096 = r.pkt.flow := Nat.mod_eq_of_lt hflow
  have hfit : ((r.pkt.typ == 0 && (s.loadOfPkt r.pkt).isNone) || decide (10 ≤ r.pkt.typ)) = true := by rw [ht, hl]; rfl
  rw [exec, execIgsumDataPacket, hfit, frameOf_of_hold hhold, onFrame_of_up hup (hmod.symm ▸ hkeep) hl, State.receive, hmod, hc, State.letIn]
  dsimp only
  rw [he, ht]
  rfl

/-- A packet of a load. -/
theorem exec_chunk_of_full {x : LoadRun} (hl : s.loadOfPkt r.pkt = some x) (hfit : (s.accepted r).stagingFull x (treeShard r.pkt.tree) = false) :
    exec (.loadChunkPacket r) s = .next ((s.accepted r).sendNack r.pkt.flow r.pkt.epoch r.pkt.seq 4) := by
  have hc := check_of_delivers h (by omega)
  have he := enter_accepted_of_full h hs hb hfull
  obtain ⟨hup, hkeep, -, -, -, -, hflow, -, -, -, -, hhold⟩ := h
  have hmod : r.pkt.flow % 4096 = r.pkt.flow := Nat.mod_eq_of_lt hflow
  have hport : (!(s.port r.port).up || ((s.port r.port).keepalive && pktClass r.pkt.typ (s.ctx (r.pkt.flow % 4096)).tc != 0)) = false := by
    cases hk : (s.port r.port).keepalive
    · simp [hup]
    · simp [hup, hmod, hkeep hk]
  rw [exec, execLoadChunkPacket, show (s.loadOfPkt r.pkt).isSome = true by rw [hl]; rfl, frameOf_of_hold hhold, State.onFrame]
  dsimp only
  rw [hport, hl, hmod, hc]
  dsimp only
  rw [if_neg Bool.false_ne_true, State.loadPacket]
  dsimp only
  rw [hfit, he]
  rfl

end

/-! ### A flow that stands twice in its table -/

/-- A flow that a message waits in. -/
def heaped (b : List Byte) : FlowSt := { flow0 with waiting := [(0, 0, b)] }

/-- A state whose table of flows is out of order, so that writing flow 3 enters it a second time. -/
def crowd (b : List Byte) (s : State) : State := { s with fab := { s.fab with flows := [(5, flow0), (3, heaped b)] } }

theorem bytesHeld_heaped (b : List Byte) : (heaped b).bytesHeld = b.length := by
  simp [FlowSt.bytesHeld, heaped, flow0]

theorem delivers_crowd {s : State} {r : Rx} (h : s.delivers r) (h3 : r.pkt.flow = 3) (b : List Byte) : (crowd b s).delivers r := by
  obtain ⟨hup, hkeep, hfcs, hhdr, hver, hlen, hflow, hvalid, hcrc, hep, hhm, hhold⟩ := h
  refine ⟨hup, hkeep, hfcs, hhdr, hver, hlen, hflow, hvalid, hcrc, hep, fun h6 => ⟨(hhm h6).1, ?_⟩, hhold⟩
  rw [h3]
  rfl

theorem bufUsed_crowd (b : List Byte) (s : State) : (crowd b s).bufUsed = b.length := by
  have h0 : flow0.bytesHeld = 0 := rfl
  simp [State.bufUsed, crowd, h0, bytesHeld_heaped]

section
variable {s : State} {r : Rx} {b : List Byte} (h3 : r.pkt.flow = 3)
include h3

theorem heardFlow_crowd : (crowd b s).heardFlow r =
    { heaped b with heard := true, lastHeard := s.stroke.jobStroke, ce := (crowd b s).carriesCe r } := by
  unfold State.heardFlow
  rw [h3]
  rfl

theorem nextWhole_crowd (h0 : r.pkt.seq = 0) (hf : r.pkt.flags.getLsbD 2 = true) (hp : r.pkt.payload ≠ []) : (crowd b s).nextWhole r := by
  unfold State.nextWhole
  rw [h3, h0]
  exact ⟨rfl, rfl, rfl, Nat.zero_lt_succ 14, hf, hp⟩

/-- What waits in flow 3 counts twice once the flow has been heard. -/
theorem bufUsed_accepted_crowd : ((crowd b s).accepted r).bufUsed = 2 * b.length := by
  have hh := heardFlow_crowd (s := s) (b := b) h3
  have hne : (crowd b s).heardFlow r ≠ flow0 := fun he => by
    rw [hh] at he
    exact Bool.noConfusion (show true = false from congrArg FlowSt.heard he)
  have hb : ((crowd b s).heardFlow r).bytesHeld = b.length := by
    rw [hh]
    exact bytesHeld_heaped b
  have h0 : flow0.bytesHeld = 0 := rfl
  have hflows : ((crowd b s).accepted r).fab.flows = [(3, (crowd b s).heardFlow r), (5, flow0), (3, heaped b)] := by
    show tset flow0 (crowd b s).fab.flows r.pkt.flow ((crowd b s).heardFlow r) = _
    rw [tset, if_neg hne, h3]
    rfl
  simp [State.bufUsed, hflows, hb, h0, bytesHeld_heaped]
  omega

theorem seen_crowd (h0 : r.pkt.seq = 0) : ((crowd b s).heardFlow r).seen r.pkt.seq = false := by
  rw [heardFlow_crowd h3, h0]
  simp [FlowSt.seen, heaped, flow0]

theorem buffers_crowd (ht : r.pkt.typ = 0) : ((crowd b s).heardFlow r).buffers r.pkt = true := by
  rw [heardFlow_crowd h3, FlowSt.buffers, ht]
  rfl

/-- The refusal does not advance the flow. -/
theorem rxNext_refused : (((crowd b s).accepted r).sendNack r.pkt.flow r.pkt.epoch r.pkt.seq 4).flow 3 = (crowd b s).heardFlow r := by
  unfold State.flow
  rw [flows_sendNack]
  exact h3 ▸ flow_accepted (crowd b s) r

end

/-! ### The obligations -/

/-- A DATA packet of flow 3. -/
def dataPacket : Rx := Tests.packet 0 4 [1, 2]

/-- Refutes O38: flow 3 holds half of the receive buffer, and its table is out of order; accepting the packet enters the flow a second time,
the buffer counts as full, and the packet is refused. -/
theorem not_sequencedPackets : ¬ Obligations.SequencedPackets := by
  unfold Obligations.SequencedPackets
  rintro ⟨hall, -⟩
  obtain ⟨b, hb⟩ : ∃ b : List Byte, b.length = 2 ^ 24 := ⟨List.replicate (2 ^ 24) 0, List.length_replicate⟩
  have h3 : dataPacket.pkt.flow = 3 := rfl
  have h0 : dataPacket.pkt.seq = 0 := rfl
  have hlen : dataPacket.pkt.payload.length = 2 := rfl
  have hd := delivers_crowd (Tests.goodFrame_delivers (Tests.fabric flow0) dataPacket (by decide +kernel)) h3 b
  obtain ⟨w, -, hdata, -⟩ := hall _ dataPacket hd (nextWhole_crowd h3 h0 rfl (List.cons_ne_nil _ _))
  have hl : (crowd b (Tests.fabric flow0)).loadOfPkt dataPacket.pkt = none := rfl
  have hclaim := hdata rfl hl (by rw [bufUsed_crowd, hb, hlen]; decide) rfl rfl
  have hexec := exec_data_of_full hd rfl (seen_crowd h3 h0) (buffers_crowd h3 rfl) (by rw [bufUsed_accepted_crowd h3, hb, hlen]; decide) hl
  rw [hexec] at hclaim
  injection hclaim with hstate
  have hflow := congrArg (fun t : State => (t.flow 3).rxNext) hstate
  dsimp only at hflow
  rw [rxNext_refused h3, heardFlow_crowd h3, h3, flow_setFlow_self] at hflow
  exact absurd (show (0 : Word) = 1 from hflow) (by decide)

/-- A load that has failed here, and that no member below this one takes. -/
def failedRun : LoadRun := { Tests.loadRun 1 false 0 [] with desc := { (Tests.loadRun 1 false 0 []).desc with tree := [] }, failed := true }

/-- A device that such a load passes by. -/
def passing : State := Tests.loading failedRun { Tests.fabric flow0 with fab := { (Tests.fabric flow0).fab with table := Tests.table3 } }

/-- Refutes O44 in its clause of the packet that is taken, as O38 is refuted: the packet is refused. -/
theorem not_weightLoads : ¬ Obligations.WeightLoads := by
  unfold Obligations.WeightLoads
  intro hall
  obtain ⟨b, hb⟩ : ∃ b : List Byte, b.length = 2 ^ 24 := ⟨List.replicate (2 ^ 24) 0, List.length_replicate⟩
  obtain ⟨-, -, -, -, hpkt⟩ := hall (crowd b passing)
  have h3 : Tests.chunkPacket.pkt.flow = 3 := rfl
  have h0 : Tests.chunkPacket.pkt.seq = 0 := rfl
  have hlen : Tests.chunkPacket.pkt.payload.length = 1 := rfl
  have hd := delivers_crowd (Tests.goodFrame_delivers passing Tests.chunkPacket (by decide +kernel)) h3 b
  have hl : (crowd b passing).loadOfPkt Tests.chunkPacket.pkt = some failedRun := by
    have hp : passing.loadOfPkt Tests.chunkPacket.pkt = some failedRun := by decide +kernel
    exact hp
  obtain ⟨htaken, -⟩ := hpkt Tests.chunkPacket failedRun hd (nextWhole_crowd h3 h0 rfl (List.cons_ne_nil _ _)) hl
  obtain ⟨w, ⟨-, hw, hflows⟩, hclaim⟩ := htaken rfl (by rw [bufUsed_crowd, hb, hlen]; decide)
  have hexec := exec_chunk_of_full hd rfl (seen_crowd h3 h0) (buffers_crowd h3 rfl) (by rw [bufUsed_accepted_crowd h3, hb, hlen]; decide) hl rfl
  have hload : w.loadOf Tests.chunkPacket.pkt.coll = none := by
    rw [hw]
    rfl
  have hplace : ((w.forward failedRun.desc Tests.chunkPacket.pkt).placeChunk Tests.chunkPacket.pkt.coll Tests.chunkPacket.pkt).resume = w := by
    have hf : w.forward failedRun.desc Tests.chunkPacket.pkt = w := rfl
    rw [hf, State.placeChunk, hload]
    have hh : w.stroke.hold = .no := by rw [hw]; rfl
    rw [State.resume, hh]
  rw [hexec, hplace] at hclaim
  injection hclaim with hstate
  have hflow := congrArg (fun t : State => (t.flow 3).rxNext) hstate
  rw [rxNext_refused h3, heardFlow_crowd h3, hflows 3, if_pos h3.symm] at hflow
  exact absurd (show (0 : Word) = 1 from hflow) (by decide)

end Sys2Proof.Machine
end


section
/-! PROOFS. Landing of what travels on the on-die network (R197, R201, R249, R254): O24. -/

namespace Sys2Proof.Machine

open Sys2Proof

/-! ### The cycles of a held write -/

theorem onlyRegs_bump (s : State) (o n : Nat) : s.bump o n = { s with regs := (s.bump o n).regs } := rfl

theorem onlyRegs_bumpPair (s : State) (lo n : Nat) : s.bumpPair lo n = { s with regs := (s.bumpPair lo n).regs } := by
  unfold State.bumpPair
  split <;> rfl

/-- The cycles that a landing's write was held count in its class and in the step's count, and nothing else changes (R254). -/
theorem landHeld_counts {s : State} {v p : Nat} (hv : s.holder v = some p) (n : Nat) :
    s.landHeld v n = { s with regs := (s.landHeld v n).regs } ∧ PairRose s (s.landHeld v n) (Reg.coreCvWriteLo p) n ∧
      RegsKept s (s.landHeld v n) (fun o => pairAt (Reg.coreCvWriteLo p) o ∨ o = Reg.coreCvStep p) := by
  have he : s.landHeld v n = s.countStall p false .write n := by simp only [State.landHeld, hv]
  rw [he]
  by_cases hn : n = 0
  · subst hn
    rw [countStall_zero]
    exact ⟨rfl, rose_bumpPair s (Reg.coreCvWriteLo p) 0, fun _ _ => rfl⟩
  · have hs : s.countStall p false .write n = (s.bumpPair (Reg.coreCvWriteLo p) n).bump (Reg.coreCvStep p) n := by
      unfold State.countStall
      simp [hn]
    rw [hs]
    refine ⟨?_, ?_, fun o ho => ?_⟩
    · rw [onlyRegs_bump, onlyRegs_bumpPair]
    · have hr : ((s.bumpPair (Reg.coreCvWriteLo p) n).bump (Reg.coreCvStep p) n).rpair (Reg.coreCvWriteLo p) =
          (s.bumpPair (Reg.coreCvWriteLo p) n).rpair (Reg.coreCvWriteLo p) := by
        have hne : Reg.coreCvWriteLo p ≠ Reg.coreCvStep p := by unfold Reg.coreCvWriteLo Reg.coreCvStep; omega
        have hne' : Reg.coreCvWriteLo p + 4 ≠ Reg.coreCvStep p := by unfold Reg.coreCvWriteLo Reg.coreCvStep; omega
        unfold State.rpair State.bump
        rw [rget_rset_ne _ _ hne, rget_rset_ne _ _ hne']
      exact hr.trans (rose_bumpPair ..)
    · rw [not_or] at ho
      exact (kept_bump _ _ _ (b := (· = Reg.coreCvStep p)) rfl o ho.2).trans (kept_bumpPair _ _ _ o ho.1)

/-! ### One item lands -/

/-- A granule outside HANDOFF regions lands with its bytes. -/
theorem landItem_granule {s : State} {v p off : Nat} {bs : List Byte} (hv : s.holder v = some p) (h : Plain (s.ctxOf v p) off bs.length) :
    s.landItem v (.granule off bs) = some (s.setCore p { s.core p with cm := setBytes (s.core p).cm off bs }) := by
  simp only [State.landItem, hv, writeGranules_plain h, Option.map_some]

/-- A granule that is still valid holds the write. -/
theorem landItem_held {s : State} {v p off g : Nat} {bs : List Byte} {e : Region} (hv : s.holder v = some p)
    (hg : granules off bs.length = [g]) (he : regionOf (s.ctxOf v p) g = some e) (hq : (tget gran0 (s.core p).gran g).v = true) :
    s.landItem v (.granule off bs) = none := by
  have hw : ∀ b, hwWrite (s.ctxOf v p) g b (s.core p) = none := fun b => by
    unfold hwWrite
    rw [he]
    dsimp only
    rw [hq, if_pos rfl]
  simp only [State.landItem, hv, hg, writeGranules, hw, Option.map_none]

/-- An update within its counter's range adds. -/
theorem landItem_counter {s : State} {v p ctr : Nat} {d : Word} (hv : s.holder v = some p)
    (h : (tget 0 (s.core p).ctr ctr).toNat + d.toNat ≤ 0xFFFFFFFF) :
    s.landItem v (.counter ctr d) = some (s.setCore p ((s.core p).counted ctr (addSat (tget 0 (s.core p).ctr ctr) d) d.toNat)) := by
  simp only [State.landItem, hv, State.ctrAdd, ctrAdd_within (r := Run.fresh (s.core p)) h]
  rfl

/-! ### The obligation -/

section
variable {s t : State} {k p : Nat} {f : Flight} {i : Item} (hf : s.flights[k]? = some f) (hm : s.mayLand k f = true)
include hf hm

/-- A flight of one item lands, and leaves the network. -/
theorem exec_landing_one (hi : f.items = [i]) (hl : s.landItem f.dst i = some t) {n : Nat} (ht : (t.landHeld f.dst n).stroke.hold = .no)
    (hs : (t.landHeld f.dst n).flights = s.flights) :
    exec (.ondieTransferLanding k ⟨n, none⟩) s = .next { t.landHeld f.dst n with flights := s.flights.eraseIdx k } := by
  have hr : ∀ u : State, u.stroke.hold = .no → u.resume = u := fun u hu => resume_of_no hu
  rw [exec]
  unfold execOndieTransferLanding
  simp only [hf, hm, State.landUpset, hi, landItems, hl, Bool.not_true, Bool.false_eq_true, if_false, List.length_nil, List.length_singleton,
    Nat.zero_lt_one, if_true, List.isEmpty_nil, hs]
  exact congrArg Host.Outcome.next (hr _ ht)

/-- A flight whose first write is held stays as it is. -/
theorem exec_landing_held (hh : s.stroke.hold = .no) (h : HoldObs) (hu : h.upset = none) {rest : List Item} (hi : f.items = i :: rest) (hl : s.landItem f.dst i = none) :
    exec (.ondieTransferLanding k h) s = .next { s with flights := s.flights.set k f } := by
  have hr : ∀ u : State, u.stroke.hold = .no → u.resume = u := fun u hu => resume_of_no hu
  have hfi : ({ f with items := i :: rest } : Flight) = f := by rw [← hi]
  rw [exec]
  unfold execOndieTransferLanding
  simp only [hf, hm, hu, State.landUpset, hi, landItems, hl, Bool.not_true, Bool.false_eq_true, if_false, Nat.lt_irrefl,
    List.isEmpty_cons, hfi]
  exact congrArg Host.Outcome.next (hr _ hh)

end

/-- Settles O24. -/
theorem flightLands : Obligations.FlightLands := by
  unfold Obligations.FlightLands
  intro s k p f hf hm hv hh
  refine ⟨fun off bs held hi hp => ?_, fun ctr d hi hc => ?_, fun off bs g e rest held hi hg he hq => ?_⟩
  · have hv' : (s.setCore p { s.core p with cm := setBytes (s.core p).cm off bs }).holder f.dst = some p := hv
    obtain ⟨hregs, hrose, hkept⟩ := landHeld_counts hv' held
    refine ⟨_, setBytes (s.core p).cm off bs, exec_landing_one hf hm hi (landItem_granule hv hp) (by rw [hregs]; exact hh) (by rw [hregs]; rfl),
      ?_, bytesAt_setBytes_self .., fun a ha => ?_, hrose, hkept⟩
    · generalize (s.setCore p _).landHeld f.dst held = w at hregs ⊢
      rw [hregs]
    · unfold within at ha
      exact byteAt_setBytes_of_outside (by omega)
  · have hv' : (s.setCore p ((s.core p).counted ctr (addSat (tget 0 (s.core p).ctr ctr) d) d.toNat)).holder f.dst = some p := hv
    have hz : (s.setCore p ((s.core p).counted ctr (addSat (tget 0 (s.core p).ctr ctr) d) d.toNat)).landHeld f.dst 0 =
        s.setCore p ((s.core p).counted ctr (addSat (tget 0 (s.core p).ctr ctr) d) d.toNat) := by
      simp only [State.landHeld, hv', countStall_zero]
    rw [exec_landing_one hf hm hi (landItem_counter hv hc) (by rw [hz]; exact hh) (by rw [hz]; rfl), hz]
    rfl
  · exact exec_landing_held hf hm hh _ rfl hi (landItem_held hv hg he hq)

end Sys2Proof.Machine
end


section
/-! PROOFS. The movement unit: its accesses, what an issue of it leaves, and MCOPY (R200, R201): O11. -/

namespace Sys2Proof.Machine

open Sys2Proof

/-! ### Accesses of spans that meet no HANDOFF region -/

theorem mem_granules {off len g : Nat} : g ∈ granules off len ↔ 0 < len ∧ off / 64 ≤ g ∧ 64 * g < off + len := by
  unfold granules
  split
  next h => simp [h]
  next h =>
    rw [List.mem_range'_1]
    omega

theorem Plain.sub {x : Ctx} {off len o l : Nat} (h : Plain x off len) (h1 : off ≤ o) (h2 : o + l ≤ off + len) : Plain x o l := fun g hg => by
  refine h g (mem_granules.mpr ?_)
  obtain ⟨h0, hlo, hhi⟩ := mem_granules.mp hg
  omega

/-- What a try has logged and where it stands, of a run whose core and effects are given. -/
structure SameWork (r r' : Run) : Prop where
  core : r'.c = r.c
  fx : r'.fx = r.fx
  fresh : r'.old = []

theorem ctrUp_countable {r : Run} {en : Bool} {k : BitVec 12} (h : countable r.c en k) (w : Nat) :
    r.ctrUp (enCtr en k) w = { r with c := countOnce r.c en k } := by
  cases en with
  | false => rfl
  | true =>
    have hne : (tget 0 r.c.ctr k.toNat) ≠ 0xFFFFFFFF := h rfl
    have hlt : (tget 0 r.c.ctr k.toNat).toNat + (1 : Word).toNat ≤ 0xFFFFFFFF := by
      have hlt := (tget 0 r.c.ctr k.toNat).isLt
      have hne : (tget 0 r.c.ctr k.toNat).toNat ≠ 0xFFFFFFFF := fun he => hne (BitVec.eq_of_toNat_eq he)
      have h1 : (1 : Word).toNat = 1 := rfl
      omega
    have hsat : addSat (tget 0 r.c.ctr k.toNat) 1 = tget 0 r.c.ctr k.toNat + 1 := by
      rw [addSat, Nat.min_eq_right hlt]
      exact BitVec.eq_of_toNat_eq (by simp)
    exact (ctrAdd_within hlt w).trans (by rw [hsat]; rfl)

theorem countOnce_took (c : Core) (en : Bool) (k : BitVec 12) : countOnce c.took en k = (countOnce c en k).took := by
  cases en <;> rfl

/-! ### What an issue of the movement unit leaves -/

theorem OnlyCore.bumpPair {s w : State} {p : Nat} (h : OnlyCore s w p) (lo n : Nat) :
    CoreAndRegs s (w.bumpPair lo n) p (pairAt lo) ∧ PairRose s (w.bumpPair lo n) lo n := by
  have hr := rose_bumpPair w lo n
  have hk := kept_bumpPair w lo n
  refine ⟨⟨fun o ho => (hk o ho).trans (h.rget o), fun q hq => (core_bumpPair w lo n q).trans (h.1 q hq), ?_, ?_⟩, ?_⟩
  · obtain ⟨-, hw, -⟩ := h
    rw [onlyRegs_bumpPair]
    generalize (w.bumpPair lo n).regs = regs
    rw [hw]
  · rw [onlyRegs_bumpPair]
    exact h.2.2
  · unfold PairRose at hr ⊢
    unfold State.rpair at hr ⊢
    rw [hr, h.rget, h.rget]

theorem CoreAndRegs.next {s t : State} {p k : Nat} {st : Stream} {b : Nat → Prop} (h : CoreAndRegs s t p b) :
    CoreAndRegs s ((t.stepPc p st).bumpOrdinal p k) p b := ⟨h.1, h.2.next⟩

section
variable {s : State} {i : Iss} {op : IsaOp} {p : Nat}

/-- An issue of no engine, from what its effects do to any state that is `s` but for the core: behind them the read port's cycles count, and
the stream goes on. -/
theorem issue_worked (c c' : Core) (S : State) (h : s.canIssue i op p = true) (he : engineOf op = none)
    (hn : ∀ a f, (s.atIssue p a f).devHold i.v p (s.issueOf p i.st op) = s.devHold i.v p (s.issueOf p i.st op))
    (hp : ∀ lim fin, ∃ r, perform (s.ctxOf i.v p) (s.rowBytes i.v) (s.streamOf i p).pc.toNat (s.issueOf p i.st op)
      (.again (s.core p).took prog0 lim fin) = .ok r ∧ r.c = c.took ∧
        ∀ w, WorkedAs s w p c → WorkedAs S (w.applyAll p i.v r.fx) p c') :
    ∃ W, WorkedAs S W p c' ∧ exec (cmdOf i op) s = .next (((W.bumpPair (Reg.muBusyCycLo p)
      (portGranules (S.rowBytes i.v) (s.issueOf p i.st op))).stepPc p i.st).bumpOrdinal p (4 + i.st.codeNat)) := by
  obtain ⟨a, f, lim, fin, haf, ex⟩ := exec_behind h he hn
  obtain ⟨r, hr, hc, hfx⟩ := hp lim fin
  have hw := hfx _ ⟨onlyCore_atIssue haf r.c, (core_setCore_self ..).trans hc⟩
  have hrows : ∀ W : State, OnlyCore S W p → W.rowBytes i.v = S.rowBytes i.v := fun W hW => by
    obtain ⟨-, hW, -⟩ := hW
    rw [hW]
    rfl
  exact ⟨_, hw, by rw [ex r hr, State.behind, hrows _ hw.only]⟩

/-- An issue of the movement unit: the read port's cycles count. -/
theorem issue_mover (c c' : Core) (S : State) (h : s.canIssue i op p = true) (he : engineOf op = none)
    (hn : ∀ a f, (s.atIssue p a f).devHold i.v p (s.issueOf p i.st op) = s.devHold i.v p (s.issueOf p i.st op))
    (hp : ∀ lim fin, ∃ r, perform (s.ctxOf i.v p) (s.rowBytes i.v) (s.streamOf i p).pc.toNat (s.issueOf p i.st op)
      (.again (s.core p).took prog0 lim fin) = .ok r ∧ r.c = c.took ∧
        ∀ w, WorkedAs s w p c → WorkedAs S (w.applyAll p i.v r.fx) p c') :
    ∃ t, exec (cmdOf i op) s = .next t ∧ t.core p = c'.goOn i.st ∧ CoreAndRegs S t p (pairAt (Reg.muBusyCycLo p)) ∧
      PairRose S t (Reg.muBusyCycLo p) (portGranules (S.rowBytes i.v) (s.issueOf p i.st op)) := by
  obtain ⟨W, ⟨ho, hcore⟩, ex⟩ := issue_worked c c' S h he hn hp
  obtain ⟨hregs, hrose⟩ := ho.bumpPair (Reg.muBusyCycLo p) (portGranules (S.rowBytes i.v) (s.issueOf p i.st op))
  exact ⟨_, ex, core_next ((core_bumpPair ..).trans hcore), hregs.next, hrose⟩

/-- An issue that reads no granules for the network. -/
theorem issue_still (c c' : Core) (S : State) (h : s.canIssue i op p = true) (he : engineOf op = none)
    (hn : ∀ a f, (s.atIssue p a f).devHold i.v p (s.issueOf p i.st op) = s.devHold i.v p (s.issueOf p i.st op))
    (hp : ∀ lim fin, ∃ r, perform (s.ctxOf i.v p) (s.rowBytes i.v) (s.streamOf i p).pc.toNat (s.issueOf p i.st op)
      (.again (s.core p).took prog0 lim fin) = .ok r ∧ r.c = c.took ∧
        ∀ w, WorkedAs s w p c → WorkedAs S (w.applyAll p i.v r.fx) p c')
    (hg : portGranules (S.rowBytes i.v) (s.issueOf p i.st op) = 0) :
    ∃ t, exec (cmdOf i op) s = .next t ∧ t.core p = c'.goOn i.st ∧ OnlyCore S t p := by
  obtain ⟨W, ⟨ho, hcore⟩, ex⟩ := issue_worked c c' S h he hn hp
  rw [hg] at ex
  exact ⟨_, ex, core_next hcore, ho.next⟩

end

/-- A flight sets out, or none where it carries nothing. -/
theorem WorkedAs.launched {s w : State} {p : Nat} {c : Core} (h : WorkedAs s w p c) (i : Iss) {dst travel : Nat} (opc : Nat)
    (items : List Item) (ht : travel = travelTime s.ldtSel i.v dst) :
    WorkedAs (s.launched i dst opc items) (w.applyAll p i.v [.flight dst travel i.st opc items]) p c := by
  change WorkedAs _ (w.flight i.v dst travel i.st opc items) p c
  unfold State.launched State.flight
  cases items with
  | nil => exact h
  | cons x xs =>
    rw [if_neg (List.cons_ne_nil _ _), List.isEmpty_cons, if_neg Bool.false_ne_true, ht]
    exact h.flights _

/-- A flight changes no register. -/
theorem pairRose_launched {s t : State} {i : Iss} {dst opc lo n : Nat} {items : List Item}
    (h : PairRose (s.launched i dst opc items) t lo n) : PairRose s t lo n := by
  unfold State.launched at h
  split at h <;> exact h

/-! ### MCOPY -/

/-- A core behind granules of a copy into its own source. -/
def copied (src dst : Nat) (ks : List Nat) (c : Core) : Core :=
  { c with cm := ks.foldl (fun m k => setBytes m (dst + 64 * k) (bytesAt m (src + 64 * k) 64)) c.cm }

theorem countOnce_copied (src dst : Nat) (ks : List Nat) (c : Core) (en : Bool) (k : BitVec 12) :
    countOnce (copied src dst ks c) en k = { countOnce c en k with cm := (copied src dst ks c).cm } := by
  cases en <;> rfl

section
variable {x : Ctx} {i : Issue} {src dst : Nat}

/-- A copy reads its granules from where it stands, and sends them. -/
theorem copyOut_plain (send : List Item → Run → Run) (n : Nat) (done : List Item) (r : Run) (ho : r.old = [])
    (h : ∀ k, r.prog.pos ≤ k → k < r.prog.pos + n → Plain x (src + 64 * k) 64) :
    ∃ r', copyOut x i src dst send n done r = .ok (done ++ (List.range' r.prog.pos n).map
      (fun k => Item.granule (dst + 64 * k) (bytesAt r.c.cm (src + 64 * k) 64)), r') ∧ SameWork r r' := by
  induction n generalizing done r with
  | zero => exact ⟨r, by simp [copyOut], rfl, rfl, ho⟩
  | succ n ih =>
    have hr := read_plain (i := i) (f := none) (eng := 0) r ho (h r.prog.pos (by omega) (by omega))
    obtain ⟨r', hr', hs⟩ := ih (done ++ [.granule (dst + 64 * r.prog.pos) (bytesAt r.c.cm (src + 64 * r.prog.pos) 64)])
      (Run.rowDone { r with prog := { r.prog with log := bytesAt r.c.cm (src + 64 * r.prog.pos) 64 :: r.prog.log } }) ho
      (fun k h1 h2 => h k (by simp only [Run.rowDone] at h1; omega) (by simp only [Run.rowDone] at h2; omega))
    refine ⟨r', ?_, hs.core, hs.fx, hs.fresh⟩
    simp only [copyOut, hr, hr']
    simp [Run.rowDone, List.range'_succ]

/-- A copy into its own source writes each granule before it reads the next. -/
theorem copyInPlace_plain (n : Nat) (r : Run) (ho : r.old = [])
    (h : ∀ k, r.prog.pos ≤ k → k < r.prog.pos + n → Plain x (src + 64 * k) 64 ∧ Plain x (dst + 64 * k) 64) :
    ∃ r', copyInPlace x i src dst n r = .ok r' ∧ SameWork { r with c := copied src dst (List.range' r.prog.pos n) r.c } r' := by
  induction n generalizing r with
  | zero => exact ⟨r, rfl, rfl, rfl, ho⟩
  | succ n ih =>
    obtain ⟨h1, h2⟩ := h r.prog.pos (by omega) (by omega)
    have hr := read_plain (i := i) (f := none) (eng := 0) r ho h1
    have hw := write_plain (i := i) (f := none) (eng := 0) (bs := (bytesAt r.c.cm (src + 64 * r.prog.pos) 64).map some)
      { r with prog := { r.prog with log := bytesAt r.c.cm (src + 64 * r.prog.pos) 64 :: r.prog.log } } ho (by simpa using h2)
    rw [writeBytes_some] at hw
    obtain ⟨r', hr', hs⟩ := ih (Run.rowDone { r with
        c := { r.c with cm := setBytes r.c.cm (dst + 64 * r.prog.pos) (bytesAt r.c.cm (src + 64 * r.prog.pos) 64) }
        prog := { r.prog with log := [] :: bytesAt r.c.cm (src + 64 * r.prog.pos) 64 :: r.prog.log } }) ho
      (fun k h1 h2 => h k (by simp only [Run.rowDone] at h1; omega) (by simp only [Run.rowDone] at h2; omega))
    refine ⟨r', ?_, hs.core.trans ?_, hs.fx, hs.fresh⟩
    · simp only [copyInPlace, hr, hw, bind, Except.bind]
      exact hr'
    · simp [Run.rowDone, List.range'_succ, copied]

end

/-! ### References -/

theorem self_ctxOf (s : State) (v p : Nat) : (s.ctxOf v p).self = v := by
  simp only [Ctx.self, State.ctxOf]
  omega

/-- A reference that is good for an access of the own core names it. -/
theorem refPos_of_own {s : State} {v p len align : Nat} {a : DWord} (h : cmOk (s.ctxOf v p) a len true align = true) :
    refPos (s.ctxOf v p) a = v := by
  unfold cmOk at h
  unfold refPos
  split at h
  · cases h
  split at h
  · cases h
  split at h
  next hs => rw [if_pos hs, self_ctxOf]
  next hs =>
    rw [if_neg hs]
    split at h
    · cases h
    split at h
    · cases h
    next hv =>
      have hx : refVx a = v % 8 ∧ refVy a = v / 8 := by simpa [State.ctxOf] using hv
      omega

/-- The position that a copy goes to. -/
def copyPos (i : Iss) (a : DWord) : Nat := if refSelf a then i.v.val else refVy a * 8 + refVx a

theorem refPos_ctxOf (s : State) (i : Iss) (p : Nat) (a : DWord) : refPos (s.ctxOf i.v p) a = copyPos i a := by
  unfold refPos copyPos
  rw [self_ctxOf]

theorem copyPos_lt (i : Iss) (a : DWord) : copyPos i a < 128 := by
  have hx : refVx a < 8 := (a.extractLsb' 25 3).isLt
  have hy : refVy a < 16 := (a.extractLsb' 28 4).isLt
  unfold copyPos
  split
  · exact i.v.isLt
  · omega

theorem copyDone_ctxOf (s : State) (i : Iss) (p : Nat) (x : FmtM) (pos : Nat) : copyDone (s.ctxOf i.v p) x pos =
    if x.enD then [if pos = i.v.val then Item.done pos x.ctrD.toNat else .counter x.ctrD.toNat 1] else [] := by
  unfold copyDone
  rw [self_ctxOf]
  cases x.enD
  · rfl
  · by_cases hp : pos = i.v.val <;> simp [hp]

/-! ### The obligation -/

section
variable {s : State} {i : Iss} {x : FmtM} {p : Nat}

/-- The end of a copy to good references: CTR_R counts, and the granules set out with the update of CTR_D. -/
def copyEnd (s : State) (i : Iss) (p : Nat) (x : FmtM) (items : List Item) (r : Run) : Run :=
  (r.ctrUp (enCtr x.enR x.ctrR) 4).emit (.flight (copyPos i (s.scalarOf i p x.sb))
    ((s.ctxOf i.v p).travel.getD (copyPos i (s.scalarOf i p x.sb)) 0) i.st (opcodeOf (.mcopy x))
    (items ++ copyDone (s.ctxOf i.v p) x (copyPos i (s.scalarOf i p x.sb))))

/-- A copy, from what its granules come to. -/
theorem issue_mcopy (h : s.canIssue i (.mcopy x) p = true) (items : List Item) (c : Core) (hcount : countable c x.enR x.ctrR)
    (hgo : ∀ lim fin, ∃ r, doMcopy (s.ctxOf i.v p) (s.issueOf p i.st (.mcopy x)) x (.again (s.core p).took prog0 lim fin) =
      .ok (copyEnd s i p x items r) ∧ r.c = c.took ∧ r.fx = []) :
    ∃ t, exec (.mcopy i x) s = .next t ∧ t.core p = (countOnce c x.enR x.ctrR).goOn i.st ∧
      CoreAndRegs (s.launched i (copyPos i (s.scalarOf i p x.sb)) (opcodeOf (.mcopy x))
        (items ++ copyDone (s.ctxOf i.v p) x (copyPos i (s.scalarOf i p x.sb)))) t p (pairAt (Reg.muBusyCycLo p)) ∧
      PairRose (s.launched i (copyPos i (s.scalarOf i p x.sb)) (opcodeOf (.mcopy x))
        (items ++ copyDone (s.ctxOf i.v p) x (copyPos i (s.scalarOf i p x.sb)))) t (Reg.muBusyCycLo p) x.len.toNat := by
  refine issue_mover (op := .mcopy x) (countOnce c x.enR x.ctrR) _ _ h rfl (fun _ _ => rfl) fun lim fin => ?_
  obtain ⟨r, hgo, hcore, hfx⟩ := hgo lim fin
  have hup := ctrUp_countable (r := r) (en := x.enR) (k := x.ctrR) (by rw [hcore]; exact hcount) 4
  refine ⟨_, hgo, ?_, fun w hw => ?_⟩
  · rw [copyEnd, hup, ← countOnce_took, ← hcore]
    rfl
  · rw [copyEnd, hup, Run.emit, hfx]
    exact hw.launched i _ _ (travel_ctxOf s i.v p (copyPos_lt i _))

variable (hs : s.plainRef i p (s.scalarOf i p x.sa) (64 * x.len.toNat) 64)
  (hd : cmOk (s.ctxOf i.v p) (s.scalarOf i p x.sb) (64 * x.len.toNat) false 64 = true)
include hs

theorem overlaps_iff : overlaps (s.ctxOf i.v p) (s.scalarOf i p x.sa) (s.scalarOf i p x.sb) x.len.toNat = true ↔
    copyPos i (s.scalarOf i p x.sb) = i.v.val ∧ refOff (s.scalarOf i p x.sa) < refOff (s.scalarOf i p x.sb) ∧
      refOff (s.scalarOf i p x.sb) < refOff (s.scalarOf i p x.sa) + 64 * x.len.toNat := by
  unfold overlaps
  rw [decide_eq_true_iff, refPos_of_own hs.1, refPos_ctxOf, eq_comm]

include hd

theorem doMcopy_out (ho : overlaps (s.ctxOf i.v p) (s.scalarOf i p x.sa) (s.scalarOf i p x.sb) x.len.toNat = false) (lim : Option Nat)
    (fin : Bool) : ∃ r, doMcopy (s.ctxOf i.v p) (s.issueOf p i.st (.mcopy x)) x (.again (s.core p).took prog0 lim fin) =
      .ok (copyEnd s i p x ((List.range x.len.toNat).map (fun k => Item.granule (refOff (s.scalarOf i p x.sb) + 64 * k)
        (bytesAt (s.core p).cm (refOff (s.scalarOf i p x.sa) + 64 * k) 64))) r) ∧ r.c = (s.core p).took ∧ r.fx = [] := by
  have e1 : (s.issueOf p i.st (.mcopy x)).s x.sa = s.scalarOf i p x.sa := rfl
  have e2 : (s.issueOf p i.st (.mcopy x)).s x.sb = s.scalarOf i p x.sb := rfl
  obtain ⟨r, hr, hw⟩ := copyOut_plain (x := s.ctxOf i.v p) (i := s.issueOf p i.st (.mcopy x)) (dst := refOff (s.scalarOf i p x.sb))
    (fun (items : List Item) (r : Run) => r.emit (.flight (copyPos i (s.scalarOf i p x.sb))
      ((s.ctxOf i.v p).travel.getD (copyPos i (s.scalarOf i p x.sb)) 0) i.st (opcodeOf (.mcopy x)) items))
    x.len.toNat [] (.again (s.core p).took prog0 lim fin) rfl
    (fun k h1 h2 => hs.2.sub (Nat.le_add_right _ _) (by change k < 0 + x.len.toNat at h2; omega))
  refine ⟨r, ?_, hw.core, hw.fx⟩
  unfold doMcopy
  simp only [e1, e2, hs.1, hd, if_true, refPos_ctxOf, Bool.and_self, Bool.not_true, Bool.false_eq_true, if_false, ho]
  refine (congrArg (· >>= _) hr).trans ?_
  simp only [List.range_eq_range']
  rfl

theorem doMcopy_inside (ho : overlaps (s.ctxOf i.v p) (s.scalarOf i p x.sa) (s.scalarOf i p x.sb) x.len.toNat = true)
    (hp : Plain (s.ctxOf i.v p) (refOff (s.scalarOf i p x.sb)) (64 * x.len.toNat)) (lim : Option Nat)
    (fin : Bool) : ∃ r, doMcopy (s.ctxOf i.v p) (s.issueOf p i.st (.mcopy x)) x (.again (s.core p).took prog0 lim fin) =
      .ok (copyEnd s i p x [] r) ∧ r.c = (copied (refOff (s.scalarOf i p x.sa)) (refOff (s.scalarOf i p x.sb))
        (List.range x.len.toNat) (s.core p)).took ∧ r.fx = [] := by
  have e1 : (s.issueOf p i.st (.mcopy x)).s x.sa = s.scalarOf i p x.sa := rfl
  have e2 : (s.issueOf p i.st (.mcopy x)).s x.sb = s.scalarOf i p x.sb := rfl
  have hlt : ∀ {k}, k < (Run.again (s.core p).took prog0 lim fin).prog.pos + x.len.toNat → k < x.len.toNat := fun {k} hk => by
    change k < 0 + x.len.toNat at hk
    omega
  obtain ⟨r, hr, hw⟩ := copyInPlace_plain (x := s.ctxOf i.v p) (i := s.issueOf p i.st (.mcopy x)) (src := refOff (s.scalarOf i p x.sa))
    (dst := refOff (s.scalarOf i p x.sb)) x.len.toNat (.again (s.core p).took prog0 lim fin) rfl
    (fun k h1 h2 => ⟨hs.2.sub (Nat.le_add_right _ _) (by have := hlt h2; omega), hp.sub (Nat.le_add_right _ _) (by have := hlt h2; omega)⟩)
  refine ⟨r, ?_, hw.core.trans ?_, hw.fx⟩
  · unfold doMcopy
    simp only [e1, e2, hs.1, hd, if_true, refPos_ctxOf, Bool.and_self, Bool.not_true, Bool.false_eq_true, if_false, ho]
    exact congrArg (fun e : Except Run Run => (e.map fun r => (([] : List Item), r)) >>= fun q => Except.ok (copyEnd s i p x q.1 q.2)) hr
  · rw [List.range_eq_range']
    rfl

end

/-- Settles O11: a copy reads and sends its granules, or writes them where it reaches into its own source; both end alike. -/
theorem copySends : Obligations.CopySends := by
  unfold Obligations.CopySends
  intro s i x p h src dst g pos inside update hs hd hc
  have hover := overlaps_iff hs
  have hup : copyDone (s.ctxOf i.v p) x (copyPos i (s.scalarOf i p x.sb)) = update := copyDone_ctxOf ..
  refine ⟨fun hin => ?_, fun hin hp => ?_⟩
  · have ho : overlaps (s.ctxOf i.v p) src dst g = false := Bool.eq_false_iff.mpr (mt hover.mp hin)
    obtain ⟨t, ht, hcore, hregs, hrose⟩ := issue_mcopy h _ (s.core p) hc (doMcopy_out hs hd ho)
    rw [hup] at hregs hrose
    exact ⟨t, ht, hcore, pairRose_launched hrose, hregs⟩
  · obtain ⟨t, ht, hcore, hregs, hrose⟩ := issue_mcopy h _ (copied (refOff src) (refOff dst) (List.range g) (s.core p)) hc
      (doMcopy_inside hs hd (hover.mpr hin) hp)
    rw [hup] at hregs hrose
    rw [countOnce_copied] at hcore
    exact ⟨t, ht, hcore, pairRose_launched hrose, hregs⟩

end Sys2Proof.Machine
end


section
/-! PROOFS. Lists that the movement unit reads, GATHER, SCATTER, NSEND and NRECV (R203 to R205): O13, O14. -/

namespace Sys2Proof.Machine

open Sys2Proof

/-! ### Bytes in pieces -/

theorem bytesAt_add (m : List Host.Cell) (a n k : Nat) : bytesAt m a (n + k) = bytesAt m a n ++ bytesAt m (a + n) k := by
  induction n generalizing a with
  | zero => simp [bytesAt]
  | succ n ih => rw [Nat.succ_add, bytesAt, ih, bytesAt, List.cons_append, Nat.add_assoc, Nat.add_comm 1 n]

/-- The granules of a span, cut to the span, are the span. -/
theorem flatMap_cuts (m : List Host.Cell) (n g off e : Nat) (h1 : 64 * g ≤ off) (h2 : off < 64 * g + 64) (h3 : off < e)
    (h4 : 64 * (g + n) < e) (h5 : e ≤ 64 * (g + n) + 64) :
    (List.range' g (n + 1)).flatMap (fun k => bytesAt m (max off (64 * k)) (min e (64 * k + 64) - max off (64 * k))) =
      bytesAt m off (e - off) := by
  induction n generalizing g off with
  | zero =>
    rw [List.range'_one, List.flatMap_singleton, Nat.max_eq_left h1, Nat.min_eq_left (show e ≤ 64 * g + 64 from h5)]
  | succ n ih =>
    have hrest := ih (g + 1) (64 * (g + 1)) (by omega) (by omega) (by omega) (by omega) (by omega)
    have hcongr : (List.range' (g + 1) (n + 1)).flatMap (fun k => bytesAt m (max off (64 * k)) (min e (64 * k + 64) - max off (64 * k))) =
        (List.range' (g + 1) (n + 1)).flatMap
          (fun k => bytesAt m (max (64 * (g + 1)) (64 * k)) (min e (64 * k + 64) - max (64 * (g + 1)) (64 * k))) :=
      List.flatMap_congr fun k hk => by
        rw [List.mem_range'_1] at hk
        rw [Nat.max_eq_right (show off ≤ 64 * k by omega), Nat.max_eq_right (show 64 * (g + 1) ≤ 64 * k by omega)]
    rw [List.range'_succ, List.flatMap_cons, hcongr, hrest, Nat.max_eq_left h1, Nat.min_eq_right (show 64 * g + 64 ≤ e by omega),
      show e - off = (64 * g + 64 - off) + (e - 64 * (g + 1)) by omega, bytesAt_add, show off + (64 * g + 64 - off) = 64 * (g + 1) by omega]

theorem flatMap_granules (m : List Host.Cell) (off len : Nat) :
    (granules off len).flatMap (fun g => bytesAt m (max off (64 * g)) (min (off + len) (64 * g + 64) - max off (64 * g))) =
      bytesAt m off len := by
  unfold granules
  split
  next h => rw [h]; rfl
  next h =>
    rw [flatMap_cuts m ((off + len - 1) / 64 - off / 64) (off / 64) off (off + len) (by omega) (by omega) (by omega) (by omega) (by omega),
      Nat.add_sub_cancel_left]

/-- The words of a list in memory. -/
theorem wordsOf_bytesAt (m : List Host.Cell) (n off : Nat) :
    wordsOf n (bytesAt m off (4 * n)) = (List.range n).map (fun k => BitVec.ofNat 32 (leNat (bytesAt m (off + 4 * k) 4))) := by
  induction n generalizing off with
  | zero => rfl
  | succ n ih =>
    rw [show 4 * (n + 1) = 4 + 4 * n by omega, bytesAt_add, wordsOf, List.take_left' (length_bytesAt ..), List.drop_left' (length_bytesAt ..),
      ih, List.range_succ_eq_map, List.map_cons, List.map_map]
    exact congrArg _ (List.map_congr_left fun k _ => by simp only [Function.comp, Nat.succ_eq_add_one]; congr 3; omega)

/-! ### Reads in pieces -/

section
variable {x : Ctx} {i : Issue}

theorem readRuns_plain (rs : List (Nat × Nat)) (r : Run) (ho : r.old = []) (h : ∀ q ∈ rs, Plain x q.1 q.2) :
    ∃ r', readRuns x i none 0 rs r = .ok (rs.flatMap (fun q => bytesAt r.c.cm q.1 q.2), r') ∧ SameWork r r' := by
  induction rs generalizing r with
  | nil => exact ⟨r, rfl, rfl, rfl, ho⟩
  | cons q rs ih =>
    obtain ⟨off, len⟩ := q
    have hr := read_plain (i := i) (f := none) (eng := 0) r ho (h (off, len) List.mem_cons_self)
    obtain ⟨r', hr', hs⟩ := ih { r with prog := { r.prog with log := bytesAt r.c.cm off len :: r.prog.log } } ho
      (fun q hq => h q (List.mem_cons_of_mem _ hq))
    refine ⟨r', ?_, hs.core, hs.fx, hs.fresh⟩
    simp only [readRuns, hr, hr', bind, Except.bind, List.flatMap_cons]
    rfl

/-- A list is read through the read port, granule by granule. -/
theorem readSpan_plain {off len : Nat} (h : Plain x off len) (r : Run) (ho : r.old = []) :
    ∃ r', readSpan x i off len r = .ok (bytesAt r.c.cm off len, r') ∧ SameWork r r' := by
  have hcut : ∀ q ∈ (granules off len).map (fun g => (max off (64 * g), min (off + len) (64 * g + 64) - max off (64 * g))), Plain x q.1 q.2 := by
    intro q hq
    obtain ⟨g, hg, rfl⟩ := List.mem_map.mp hq
    have := mem_granules.mp hg
    exact h.sub (Nat.le_max_left _ _) (by dsimp only; omega)
  obtain ⟨r', hr, hs⟩ := readRuns_plain _ r ho hcut
  refine ⟨r', ?_, hs⟩
  rw [readSpan, hr, List.flatMap_map, flatMap_granules]

/-- Granules in order, one access each. -/
theorem readGrains_plain {off n : Nat} (h : Plain x off (64 * n)) (r : Run) (ho : r.old = []) :
    ∃ r', readGrains x i off n r = .ok (bytesAt r.c.cm off (64 * n), r') ∧ SameWork r r' := by
  have hcut : ∀ q ∈ (List.range n).map (fun k => (off + 64 * k, 64)), Plain x q.1 q.2 := by
    intro q hq
    obtain ⟨k, hk, rfl⟩ := List.mem_map.mp hq
    have := List.mem_range.mp hk
    exact h.sub (Nat.le_add_right _ _) (by dsimp only; omega)
  obtain ⟨r', hr, hs⟩ := readRuns_plain _ r ho hcut
  refine ⟨r', ?_, hs⟩
  have hb : ∀ n off, (List.range n).flatMap (fun k => bytesAt r.c.cm (off + 64 * k) 64) = bytesAt r.c.cm off (64 * n) := by
    intro n
    induction n with
    | zero => intro _; rfl
    | succ n ih => intro off; rw [List.range_succ, List.flatMap_append, ih, List.flatMap_singleton, Nat.mul_succ, bytesAt_add]
  rw [readGrains, hr, List.flatMap_map, hb]

end

/-! ### GATHER and SCATTER -/

theorem SameWork.trans {r r' r'' : Run} (h : SameWork r r') (k : SameWork r' r'') : SameWork r r'' :=
  ⟨k.core.trans h.core, k.fx.trans h.fx, k.fresh⟩

/-- A request joins its core's. -/
theorem WorkedAs.asked {s w : State} {p v : Nat} {c : Core} (h : WorkedAs s w p c) (q : NarrowReq) :
    WorkedAs s (w.applyAll p v [.narrow q]) p (c.asked q) := by
  obtain ⟨ho, hc⟩ := h
  refine ⟨ho.setCore _, (core_setCore_self ..).trans ?_⟩
  rw [hc]
  rfl

section
variable {s : State} {i : Iss} {x : FmtM} {p : Nat}

/-- The index list is read as it stands. -/
theorem readIndices_plain {op : IsaOp} (hi : s.plainRef i p (s.scalarOf i p x.sa) (4 * narrowRows x) 4) (r : Run) (ho : r.old = [])
    (hcm : r.c.cm = (s.core p).cm) :
    ∃ r', readIndices (s.ctxOf i.v p) (s.issueOf p i.st op) (s.scalarOf i p x.sa) (narrowRows x) r = .ok (s.indexList i p x, r') ∧
      SameWork r r' := by
  obtain ⟨r', hr, hs⟩ := readSpan_plain (i := s.issueOf p i.st op) hi.2 r ho
  refine ⟨r', ?_, hs⟩
  rw [readIndices, if_pos hi.1, hr]
  change Except.ok (wordsOf _ _, r') = _
  rw [wordsOf_bytesAt, hcm]
  rfl

theorem noteRefs_good (r : Run) (q : Issue) (a b : DWord) : r.noteRefs q [(true, a), (true, b)] = r := rfl

variable (hi : s.plainRef i p (s.scalarOf i p x.sa) (4 * narrowRows x) 4) (hc : countable (s.core p) x.enR x.ctrR)
include hi hc

theorem issue_gather (h : s.canIssue i (.gather x) p = true)
    (hd : cmOk (s.ctxOf i.v p) (s.scalarOf i p x.sb) (narrowRows x * s.rowBytes i.v (narrowTable x)) true 32 = true) :
    ∃ t, exec (.gather i x) s = .next t ∧ t.core p = ((countOnce (s.core p) x.enR x.ctrR).asked ⟨false, narrowTable x, s.indexList i p x, [],
      s.scalarOf i p x.sb, true, [], if x.enD then some x.ctrD.toNat else none, i.st⟩).goOn i.st ∧ CoreAndRegs s t p (pairAt (Reg.muBusyCycLo p)) := by
  obtain ⟨t, ht, hcore, hregs, -⟩ := issue_mover (op := .gather x) (countOnce (s.core p) x.enR x.ctrR) _ s h rfl (fun _ _ => rfl) fun lim fin => by
    obtain ⟨r, hr, hs⟩ := readIndices_plain (op := .gather x) hi (.again (s.core p).took prog0 lim fin) rfl rfl
    have hup := ctrUp_countable (r := r) (en := x.enR) (k := x.ctrR) (by rw [hs.core]; exact hc) 4
    have e1 : (s.issueOf p i.st (.gather x)).s x.sa = s.scalarOf i p x.sa := rfl
    have e2 : (s.issueOf p i.st (.gather x)).s x.sb = s.scalarOf i p x.sb := rfl
    have hperf : doGather (s.ctxOf i.v p) (s.issueOf p i.st (.gather x)) x (s.rowBytes i.v (narrowTable x))
        (.again (s.core p).took prog0 lim fin) = .ok (Run.emit { r with c := countOnce r.c x.enR x.ctrR } (.narrow ⟨false, narrowTable x,
          s.indexList i p x, [], s.scalarOf i p x.sb, true, [], if x.enD then some x.ctrD.toNat else none, i.st⟩)) := by
      unfold doGather
      simp only [e1, e2, hr, hi.1, hd, noteRefs_good, hup, bind, Except.bind]
      rfl
    refine ⟨_, hperf, (congrArg (countOnce · x.enR x.ctrR) hs.core).trans (countOnce_took ..), fun w hw => ?_⟩
    rw [Run.emit, hs.fx]
    exact hw.asked _
  exact ⟨t, ht, hcore, hregs⟩

theorem issue_scatter (h : s.canIssue i (.scatter x) p = true)
    (hd : s.plainRef i p (s.scalarOf i p x.sb) (narrowRows x * s.rowBytes i.v (narrowTable x)) 32) :
    ∃ t, exec (.scatter i x) s = .next t ∧ t.core p = ((countOnce (s.core p) x.enR x.ctrR).asked ⟨true, narrowTable x, s.indexList i p x,
      s.bytesOf p (s.scalarOf i p x.sb) (narrowRows x * s.rowBytes i.v (narrowTable x)),
      s.scalarOf i p x.sb, true, [], if x.enD then some x.ctrD.toNat else none, i.st⟩).goOn i.st ∧ CoreAndRegs s t p (pairAt (Reg.muBusyCycLo p)) := by
  obtain ⟨t, ht, hcore, hregs, -⟩ := issue_mover (op := .scatter x) (countOnce (s.core p) x.enR x.ctrR) _ s h rfl (fun _ _ => rfl) fun lim fin => by
    obtain ⟨r, hr, hs⟩ := readIndices_plain (op := .scatter x) hi (.again (s.core p).took prog0 lim fin) rfl rfl
    obtain ⟨r', hr', hs'⟩ := readSpan_plain (i := s.issueOf p i.st (.scatter x)) hd.2 r hs.fresh
    have hsame := hs.trans hs'
    have hcm : r.c.cm = (s.core p).cm := (congrArg Core.cm hs.core).trans rfl
    have hup := ctrUp_countable (r := r') (en := x.enR) (k := x.ctrR) (by rw [hsame.core]; exact hc) 4
    have e1 : (s.issueOf p i.st (.scatter x)).s x.sa = s.scalarOf i p x.sa := rfl
    have e2 : (s.issueOf p i.st (.scatter x)).s x.sb = s.scalarOf i p x.sb := rfl
    have hperf : doScatter (s.ctxOf i.v p) (s.issueOf p i.st (.scatter x)) x (s.rowBytes i.v (narrowTable x))
        (.again (s.core p).took prog0 lim fin) = .ok (Run.emit { r' with c := countOnce r'.c x.enR x.ctrR } (.narrow ⟨true, narrowTable x,
          s.indexList i p x, s.bytesOf p (s.scalarOf i p x.sb) (narrowRows x * s.rowBytes i.v (narrowTable x)),
          s.scalarOf i p x.sb, true, [], if x.enD then some x.ctrD.toNat else none, i.st⟩)) := by
      unfold doScatter
      simp only [e1, e2, hr, hi.1, hd.1, if_true, hr', hcm, noteRefs_good, hup, bind, Except.bind]
      rfl
    refine ⟨_, hperf, (congrArg (countOnce · x.enR x.ctrR) hsame.core).trans (countOnce_took ..), fun w hw => ?_⟩
    rw [Run.emit, hsame.fx]
    exact hw.asked _
  exact ⟨t, ht, hcore, hregs⟩

end

/-- Settles O13. -/
theorem narrowRequests : Obligations.NarrowRequests := by
  unfold Obligations.NarrowRequests
  intro s i x p rows size row hi hc
  refine ⟨fun h hd => ?_, fun h hd => ?_⟩
  · obtain ⟨t, ht, hcore, hregs⟩ := issue_gather hi hc h hd
    exact ⟨t, ht, hregs, hcore⟩
  · obtain ⟨t, ht, hcore, hregs⟩ := issue_scatter hi hc h hd
    exact ⟨t, ht, hregs, hcore⟩

end Sys2Proof.Machine
end


section
/-! PROOFS. Messages that the movement unit hands to the fabric: NSEND and NRECV (R204, R205): O14. -/

namespace Sys2Proof.Machine

open Sys2Proof

/-! ### What the fabric does not see of an issue -/

/-- `s` with what an issue concerns as in `w`: the cores, the ordinals, the records of an assay and the free values. -/
def State.beside (s w : State) : State :=
  { s with cores := w.cores, stroke := { s.stroke with ordinals := w.stroke.ordinals }, asy := w.asy, free := w.free }

theorem OnlyCore.eq_beside {s w : State} {p : Nat} (h : OnlyCore s w p) : w = s.beside w := h.2.1

/-- Work of the fabric that does not see an issue's core can as well stand before it. -/
theorem OnlyCore.fabric {s w : State} {p : Nat} {F : State → State} (h : OnlyCore s w p) (hf : FabricOnly s (F s))
    (hF : ∀ w, F (s.beside w) = (F s).beside w) : OnlyCore (F s) (F w) p := by
  have hw : F w = (F s).beside w := (congrArg F h.eq_beside).trans (hF w)
  obtain ⟨hc, -, ha⟩ := h
  unfold FabricOnly at hf
  generalize F s = S at hf hw
  rw [hw, hf]
  exact ⟨hc, rfl, ha⟩

theorem WorkedAs.fabric {s w : State} {p : Nat} {c : Core} {F : State → State} (h : WorkedAs s w p c) (hf : FabricOnly s (F s))
    (hF : ∀ w, F (s.beside w) = (F s).beside w) : WorkedAs (F s) (F w) p c := by
  refine ⟨h.only.fabric hf hF, ?_⟩
  have hw : F w = (F s).beside w := (congrArg F h.only.eq_beside).trans (hF w)
  rw [hw]
  exact h.core

theorem transmit_beside (s w : State) (f : Nat) (p : Pkt) : (s.beside w).transmit f p = (s.transmit f p).beside w := by
  have h : (s.beside w).portFor f p.typ p.seq.toNat = s.portFor f p.typ p.seq.toNat := rfl
  unfold State.transmit
  rw [h]
  split <;> rfl

theorem sendSeq_beside (s w : State) (f typ flags field : Nat) (coll tree : Word) (ofs : Nat) (step : DWord) (pay : List Byte) :
    (s.beside w).sendSeq f typ flags field coll tree ofs step pay = (s.sendSeq f typ flags field coll tree ofs step pay).beside w :=
  transmit_beside (s.setFlow f _) w f _

theorem sendPieces_beside (f typ flags field : Nat) (coll tree : Word) (step : DWord) (nf : Bool) (n base : Nat) (bs : List Byte) (s w : State) :
    State.sendPieces f typ flags field coll tree step nf n base bs (s.beside w) =
      (State.sendPieces f typ flags field coll tree step nf n base bs s).beside w := by
  induction n generalizing base bs s with
  | zero => rfl
  | succ n ih =>
    unfold State.sendPieces
    dsimp only
    rw [sendSeq_beside]
    split
    · rfl
    · exact ih _ _ _

theorem sendMsg_beside (s w : State) (f typ flags field : Nat) (coll tree : Word) (step : DWord) (nf : Bool) (base : Nat) (bs : List Byte) :
    (s.beside w).sendMsg f typ flags field coll tree step nf base bs = (s.sendMsg f typ flags field coll tree step nf base bs).beside w :=
  sendPieces_beside ..

/-! ### NSEND -/

/-- A descriptor is read in one access. -/
theorem readDesc_plain {s : State} {i : Iss} {p : Nat} {a : DWord} {q : Issue} (h : s.plainRef i p a 64 64) (r : Run) (ho : r.old = []) :
    ∃ r', readDesc (s.ctxOf i.v p) q a r = .ok (some (bytesAt r.c.cm (refOff a) 64), r') ∧ SameWork r r' := by
  refine ⟨{ r with prog := { r.prog with log := bytesAt r.c.cm (refOff a) 64 :: r.prog.log } }, ?_, rfl, rfl, ho⟩
  rw [readDesc, if_pos h.1, read_plain r ho h.2]
  rfl

theorem readSource_plain {s : State} {i : Iss} {p n : Nat} {a : DWord} {q : Issue} (h : s.plainRef i p a (64 * n) 64) (r : Run) (ho : r.old = []) :
    ∃ r', readSource (s.ctxOf i.v p) q a n r = .ok (bytesAt r.c.cm (refOff a) (64 * n), r') ∧ SameWork r r' := by
  rw [readSource, if_pos h.1]
  exact readGrains_plain h.2 r ho

section
variable {s : State} {i : Iss} {x : FmtM} {p : Nat}

theorem descOf_atIssue (a : AsySt) (f : Nat) (op : IsaOp) :
    descOf ((s.atIssue p a f).ctxOf i.v p) ((s.atIssue p a f).core p) (s.issueOf p i.st op) x =
      descOf (s.ctxOf i.v p) (s.core p) (s.issueOf p i.st op) x := by
  rw [core_atIssue]
  rfl

/-- A flow that no message waits in takes an arm as it is. -/
theorem matchRecv_idle {s : State} {f : Nat} (h : (s.flow f).waiting = []) (n : Nat) : State.matchRecv f n s = s := by
  cases n with
  | zero => rfl
  | succ n =>
    unfold State.matchRecv
    dsimp only
    rw [h]
    cases (s.flow f).arms <;> rfl

variable (hdesc : s.plainRef i p (s.scalarOf i p x.sb) 64 64)
include hdesc

/-- NSEND reads its descriptor and its granules, and its flow takes them. -/
theorem issue_nsend (h : s.canIssue i (.nsend x) p = true) (hsrc : s.plainRef i p (s.scalarOf i p x.sa) (64 * x.len.toNat) 64)
    (hok : sendOk (s.bytesOf p (s.scalarOf i p x.sb) 64) = true) (hc : countable (s.core p) x.enR x.ctrR) (S : State)
    (hS : S = s.sendMsg (leNat ((s.bytesOf p (s.scalarOf i p x.sb) 64).take 2)) 0 0 (i.v / 32)
      (BitVec.ofNat 32 (leNat (((s.bytesOf p (s.scalarOf i p x.sb) 64).drop 4).take 4))) 0 s.stroke.step false 0
      (s.bytesOf p (s.scalarOf i p x.sa) (64 * x.len.toNat))) :
    ∃ t, exec (.nsend i x) s = .next t ∧ t.core p = (countOnce (s.core p) x.enR x.ctrR).goOn i.st ∧
      CoreAndRegs S t p (pairAt (Reg.muBusyCycLo p)) ∧ PairRose S t (Reg.muBusyCycLo p) x.len.toNat := by
  have e1 : (s.issueOf p i.st (.nsend x)).s x.sa = s.scalarOf i p x.sa := rfl
  have e2 : (s.issueOf p i.st (.nsend x)).s x.sb = s.scalarOf i p x.sb := rfl
  refine issue_mover (op := .nsend x) (countOnce (s.core p) x.enR x.ctrR) _ S h rfl (fun a f => ?_) fun lim fin => ?_
  · change (((descOf _ _ _ x).filter sendOk).isSome && _) = (((descOf _ _ _ x).filter sendOk).isSome && _)
    rw [descOf_atIssue]
    rfl
  · obtain ⟨r, hr, hs⟩ := readDesc_plain (q := s.issueOf p i.st (.nsend x)) hdesc (.again (s.core p).took prog0 lim fin) rfl
    obtain ⟨r', hr', hs'⟩ := readSource_plain (q := s.issueOf p i.st (.nsend x)) hsrc r hs.fresh
    have hsame := hs.trans hs'
    have hcm : r.c.cm = (s.core p).cm := (congrArg Core.cm hs.core).trans rfl
    have hup := ctrUp_countable (r := r') (en := x.enR) (k := x.ctrR) (by rw [hsame.core]; exact hc) 4
    have hperf : doNsend (s.ctxOf i.v p) (s.issueOf p i.st (.nsend x)) x (.again (s.core p).took prog0 lim fin) =
        .ok (Run.emit { r' with c := countOnce r'.c x.enR x.ctrR } (.nsend i.st (some (s.bytesOf p (s.scalarOf i p x.sb) 64))
          (s.bytesOf p (s.scalarOf i p x.sa) (64 * x.len.toNat)) ((s.scalarOf i p x.sb).toNat % 2 ^ 32))) := by
      unfold doNsend
      simp only [e1, e2, hr, hr', hup, hcm, bind, Except.bind]
      rfl
    refine ⟨_, hperf, (congrArg (countOnce · x.enR x.ctrR) hsame.core).trans (countOnce_took ..), fun w hw => ?_⟩
    rw [Run.emit, hsame.fx]
    change WorkedAs S (w.nsendGo _ _ _ _ _) p _
    unfold State.nsendGo
    rw [Option.filter_some_pos hok]
    have hstep : w.stroke.step = s.stroke.step := by rw [hw.only.eq_beside]; rfl
    dsimp only
    rw [hstep, hS]
    exact hw.fabric (F := fun u => u.sendMsg _ _ _ _ _ _ _ _ _ _) (fabricOnly_sendPieces ..) (fun w => sendMsg_beside ..)

theorem issue_nrecv (h : s.canIssue i (.nrecv x) p = true)
    (hdst : cmOk (s.ctxOf i.v p) (s.scalarOf i p x.sa) (64 * x.len.toNat) true 64 = true)
    (hok : recvOk (s.bytesOf p (s.scalarOf i p x.sb) 64) = true)
    (hw : (s.flow (leNat ((s.bytesOf p (s.scalarOf i p x.sb) 64).take 2))).waiting = []) (hne : s.scalarOf i p x.sa ≠ BitVec.allOnes 64) :
    ∃ t, exec (.nrecv i x) s = .next t ∧ t.core p = (s.core p).goOn i.st ∧
      OnlyCore (s.setFlow (leNat ((s.bytesOf p (s.scalarOf i p x.sb) 64).take 2))
        { s.flow (leNat ((s.bytesOf p (s.scalarOf i p x.sb) 64).take 2)) with
          arms := (s.flow (leNat ((s.bytesOf p (s.scalarOf i p x.sb) 64).take 2))).arms ++ [⟨i.v, i.st, s.scalarOf i p x.sa, true, x.len.toNat,
            BitVec.ofNat 64 (leNat (((s.bytesOf p (s.scalarOf i p x.sb) 64).drop 8).take 8)), if x.enD then some x.ctrD.toNat else none⟩] }) t p := by
  have e1 : (s.issueOf p i.st (.nrecv x)).s x.sa = s.scalarOf i p x.sa := rfl
  have e2 : (s.issueOf p i.st (.nrecv x)).s x.sb = s.scalarOf i p x.sb := rfl
  refine issue_still (op := .nrecv x) (s.core p) _ _ h rfl (fun a f => ?_) (fun lim fin => ?_) rfl
  · change (match (descOf ((s.atIssue p a f).ctxOf i.v p) ((s.atIssue p a f).core p) (s.issueOf p i.st (.nrecv x)) x).filter recvOk with
      | none => false
      | some d => decide (4 ≤ (s.flow (leNat (d.take 2))).arms.length)) = _
    rw [descOf_atIssue]
    rfl
  · obtain ⟨r, hr, hs⟩ := readDesc_plain (q := s.issueOf p i.st (.nrecv x)) hdesc (.again (s.core p).took prog0 lim fin) rfl
    have hperf : doNrecv (s.ctxOf i.v p) (s.issueOf p i.st (.nrecv x)) x (.again (s.core p).took prog0 lim fin) =
        .ok (Run.emit r (.nrecv i.st (some (s.bytesOf p (s.scalarOf i p x.sb) 64)) (s.scalarOf i p x.sa) x.len.toNat
          (if x.enD then some x.ctrD.toNat else none) ((s.scalarOf i p x.sb).toNat % 2 ^ 32))) := by
      unfold doNrecv
      simp only [e1, e2, hr, hdst, if_true, bind, Except.bind]
      rfl
    refine ⟨_, hperf, hs.core, fun w hww => ?_⟩
    rw [Run.emit, hs.fx]
    change WorkedAs _ (w.nrecvGo _ _ _ _ _ _ _) p _
    have hflow : w.flow = s.flow := by rw [hww.only.eq_beside]; rfl
    have hb : (s.scalarOf i p x.sa != BitVec.allOnes 64) = true := by simpa using hne
    unfold State.nrecvGo
    rw [Option.filter_some_pos hok]
    dsimp only
    rw [hb, hflow, matchRecv_idle (by rw [flow_setFlow_self]; exact hw)]
    exact hww.fabric (F := fun u => u.setFlow _ _) rfl fun _ => rfl

end

/-- Settles O14. -/
theorem sendAndReceive : Obligations.SendAndReceive := by
  unfold Obligations.SendAndReceive
  intro s i x p d hdesc
  refine ⟨fun h hsrc hok hc => issue_nsend hdesc h hsrc hok hc _ rfl, fun h hdst hok hw hne => issue_nrecv hdesc h hdst hok hw hne⟩

end Sys2Proof.Machine
end


section
/-! PROOFS. NCOLL of a one-stage collective whose roots are elsewhere (R206, R312): O15. -/

namespace Sys2Proof.Machine

open Sys2Proof

/-! ### What sending leaves -/

/-- Only flows, ports and the frames sent differ. -/
def OnlySent (s t : State) : Prop := ∃ flows ports sent, t = { s with fab := { s.fab with flows := flows, ports := ports, sent := sent } }

theorem OnlySent.refl (s : State) : OnlySent s s := ⟨_, _, _, rfl⟩

theorem OnlySent.trans {s t u : State} (h : OnlySent s t) (k : OnlySent t u) : OnlySent s u := by
  obtain ⟨_, _, _, rfl⟩ := h
  obtain ⟨_, _, _, rfl⟩ := k
  exact ⟨_, _, _, rfl⟩

theorem OnlySent.fabricOnly {s t : State} (h : OnlySent s t) : FabricOnly s t := by
  obtain ⟨_, _, _, rfl⟩ := h
  rfl

theorem onlySent_transmit (s : State) (f : Nat) (p : Pkt) : OnlySent s (s.transmit f p) := by
  unfold State.transmit
  split
  · exact .refl s
  · exact ⟨_, _, _, rfl⟩

theorem onlySent_sendPieces (f typ flags field : Nat) (coll tree : Word) (step : DWord) (nf : Bool) (n base : Nat) (bs : List Byte) (s : State) :
    OnlySent s (State.sendPieces f typ flags field coll tree step nf n base bs s) := by
  induction n generalizing base bs s with
  | zero => exact .refl s
  | succ n ih =>
    unfold State.sendPieces
    extract_lets pay last fl u
    have hu : OnlySent s u := OnlySent.trans (t := s.setFlow f _) ⟨_, _, _, rfl⟩ (onlySent_transmit _ f _)
    split
    · exact hu
    · exact hu.trans (ih _ _ _)

theorem onlySent_sendNode (s : State) (c : CollCfg) (m seg field : Nat) (late : Bool) (step : DWord) (nd : CNode) :
    OnlySent s (s.sendNode c m seg field late step nd) := by
  unfold State.sendNode State.sendMsg
  split
  · exact .refl s
  · exact onlySent_sendPieces ..

theorem sendNode_beside (s w : State) (c : CollCfg) (m seg field : Nat) (late : Bool) (step : DWord) (nd : CNode) :
    (s.beside w).sendNode c m seg field late step nd = (s.sendNode c m seg field late step nd).beside w := by
  have h : (s.beside w).flowTo m c.tc = s.flowTo m c.tc := rfl
  unfold State.sendNode
  rw [h]
  split
  · rfl
  · exact sendMsg_beside ..

/-! ### The run of a collective that begins -/

/-- The segments of a node, each sent to a member. -/
def State.sendSegs (s : State) (c : CollCfg) (root : Nat → Nat) (field : Nat) (step : DWord) (nd : CNode) (segs : List Nat) : State :=
  segs.foldl (fun u seg => u.sendNode c (root seg) seg field false step (segNode c seg nd)) s

theorem onlySent_sendSegs (c : CollCfg) (root : Nat → Nat) (field : Nat) (step : DWord) (nd : CNode) (segs : List Nat) (s : State) :
    OnlySent s (s.sendSegs c root field step nd segs) := by
  induction segs generalizing s with
  | nil => exact .refl s
  | cons seg segs ih =>
    rw [State.sendSegs, List.foldl_cons]
    exact (onlySent_sendNode s c (root seg) seg field false step (segNode c seg nd)).trans (ih _)

theorem sendSegs_beside (c : CollCfg) (root : Nat → Nat) (field : Nat) (step : DWord) (nd : CNode) (segs : List Nat) (s w : State) :
    (s.beside w).sendSegs c root field step nd segs = (s.sendSegs c root field step nd segs).beside w := by
  induction segs generalizing s with
  | nil => rfl
  | cons seg segs ih =>
    rw [State.sendSegs, State.sendSegs, List.foldl_cons, List.foldl_cons, sendNode_beside]
    exact ih _

section
variable {s : State} {c : CollCfg} (ha : s.job.assay = false) (hr : ∀ seg < c.segs, s.rootMember c 1 0 seg ≠ s.member) (field : Nat)
  (step run : DWord) (nd : CNode)

/-- One segment of a node in the first stage: to a root of this device, or on its way to another member's. -/
def contribStep (c : CollCfg) (field : Nat) (step run : DWord) (nd : CNode) (acc : State × List CAct) (seg : Nat) : State × List CAct :=
  if acc.1.rootMember c 1 0 seg = acc.1.member then (acc.1, acc.2 ++ [.arrive c.coll run 0 seg acc.1.member (segNode c seg nd)])
  else if acc.1.job.assay && acc.1.replicaOf (acc.1.rootMember c 1 0 seg) != acc.1.replica then acc
  else (acc.1.sendNode c (acc.1.rootMember c 1 0 seg) seg field false step (segNode c seg nd), acc.2)

include ha hr

theorem contribStep_elsewhere {t : State} (ht : OnlySent s t) {seg : Nat} (hseg : seg < c.segs) :
    contribStep c field step run nd (t, []) seg = (t.sendNode c (s.rootMember c 1 0 seg) seg field false step (segNode c seg nd), []) := by
  have hroot : t.rootMember c 1 0 seg = s.rootMember c 1 0 seg ∧ t.member = s.member ∧ t.job = s.job := by
    obtain ⟨_, _, _, rfl⟩ := ht
    exact ⟨rfl, rfl, rfl⟩
  unfold contribStep
  dsimp only
  rw [hroot.1, hroot.2.1, if_neg (hr seg hseg), hroot.2.2, ha, Bool.false_and, if_neg Bool.false_ne_true]

/-- A node of a one-stage collective, its roots at other members, is sent segment by segment. -/
theorem contribute_elsewhere (h2 : c.two = false) :
    s.contribute c field false step run nd = (s.sendSegs c (s.rootMember c 1 0) field step nd (List.range c.segs), []) := by
  have hstage : c.stageOf nd.level = 1 := by simp [CollCfg.stageOf, CollCfg.final, h2]
  have hgroup : c.groupOf 1 nd.shard = 0 := by simp [CollCfg.groupOf, h2]
  have key : ∀ (segs : List Nat) (t : State), OnlySent s t → (∀ seg ∈ segs, seg < c.segs) →
      segs.foldl (contribStep c field step run nd) (t, []) = (t.sendSegs c (s.rootMember c 1 0) field step nd segs, []) := by
    intro segs
    induction segs with
    | nil => intro t _ _; rfl
    | cons seg segs ih =>
      intro t ht hseg
      rw [List.foldl_cons, contribStep_elsewhere ha hr field step run nd ht (hseg seg List.mem_cons_self),
        ih _ (ht.trans (onlySent_sendNode ..)) fun k hk => hseg k (List.mem_cons_of_mem _ hk), State.sendSegs, State.sendSegs, List.foldl_cons]
  unfold State.contribute
  dsimp only
  rw [hstage, hgroup]
  exact key _ s (.refl s) fun seg hs => List.mem_range.mp hs

end

/-! ### The run -/

/-- A run that none stands for yet joins the others, and is found. -/
theorem setCollRun_new {s : State} {x : CollRun} (h : s.collRun? x.coll x.step = none) :
    s.setCollRun x = { s with fab := { s.fab with colls := s.fab.colls ++ [x] } } := by
  have hn : s.fab.colls.any (fun y => y.coll == x.coll && y.step == x.step) = false := by
    rw [List.any_eq_false]
    exact List.find?_eq_none.mp h
  unfold State.setCollRun
  dsimp only
  rw [hn, if_neg Bool.false_ne_true]

theorem collRun?_setCollRun_new {s : State} {x : CollRun} (h : s.collRun? x.coll x.step = none) :
    (s.setCollRun x).collRun? x.coll x.step = some x := by
  rw [setCollRun_new h]
  change (s.fab.colls ++ [x]).find? (fun y => y.coll == x.coll && y.step == x.step) = some x
  rw [List.find?_append, show s.fab.colls.find? (fun y => y.coll == x.coll && y.step == x.step) = none from h]
  simp

theorem collRun?_setCollRun_other {s : State} {x : CollRun} (h : s.collRun? x.coll x.step = none) {coll : Word} {step : DWord}
    (hne : step ≠ x.step) (hs : s.collRun? coll step = none) : (s.setCollRun x).collRun? coll step = none := by
  rw [setCollRun_new h]
  change (s.fab.colls ++ [x]).find? (fun y => y.coll == coll && y.step == step) = none
  rw [List.find?_append, show s.fab.colls.find? (fun y => y.coll == coll && y.step == step) = none from hs]
  simp [hne.symm]

/-- A run is written over. -/
theorem setCollRun_setCollRun_new {s : State} {x y : CollRun} (h : s.collRun? x.coll x.step = none) (hc : y.coll = x.coll) (hs : y.step = x.step) :
    (s.setCollRun x).setCollRun y = s.setCollRun y := by
  have h' : s.collRun? y.coll y.step = none := by rw [hc, hs]; exact h
  have hall : ∀ z ∈ s.fab.colls, (z.coll == x.coll && z.step == x.step) = false := fun z hz => by
    simpa using List.find?_eq_none.mp h z hz
  rw [setCollRun_new h', setCollRun_new h]
  unfold State.setCollRun
  dsimp only
  rw [hc, hs, if_pos (by simp)]
  congr 3
  rw [List.map_append, List.map_singleton, if_pos (by simp)]
  congr 1
  calc s.fab.colls.map (fun z => if (z.coll == x.coll && z.step == x.step) = true then y else z)
      = s.fab.colls.map id := List.map_congr_left fun z hz => by rw [hall z hz, if_neg Bool.false_ne_true]; rfl
    _ = s.fab.colls := List.map_id _

theorem collGo_nil (s : State) : s.collGo [] = s := rfl

/-- A device that roots no segment of a one-stage collective starts no root. -/
theorem startRoots_elsewhere {s : State} {c : CollCfg} (h2 : c.two = false) (hr : ∀ seg < c.segs, s.rootMember c 1 0 seg ≠ s.member) (v : Nat)
    (step : DWord) : s.startRoots c v step = (s, []) := by
  have hparts : s.rootParts c = [(1, 0)] := by simp [State.rootParts, h2]
  unfold State.startRoots
  rw [hparts, List.foldl_cons, List.foldl_nil]
  dsimp only
  have hseg : ∀ seg ∈ List.range c.segs, seg < c.segs := fun seg hs => List.mem_range.mp hs
  revert hseg
  generalize List.range c.segs = segs
  induction segs with
  | nil => intro _; rfl
  | cons seg segs ih =>
    intro hseg
    have hne : ¬ (s.rootMember c 1 0 seg = s.member ∧ s.rootPos c 1 0 seg = v) := fun h => hr seg (hseg seg List.mem_cons_self) h.1
    rw [List.foldl_cons]
    dsimp only
    rw [if_neg hne]
    exact ih fun k hk => hseg k (List.mem_cons_of_mem _ hk)

theorem fillScratch_none {s : State} {c : CollCfg} {step : DWord} (h : ∀ r ∈ s.fab.roots, r.coll = c.coll → r.step ≠ step) (v : Nat) :
    s.fillScratch c v step = s := by
  have hf : s.fab.roots.filter (fun r => r.coll == c.coll && r.step == step && s.runPos c r == v) = [] := by
    rw [List.filter_eq_nil_iff]
    intro r hr
    by_cases hc : r.coll = c.coll
    · simp [hc, h r hr hc]
    · simp [hc]
  unfold State.fillScratch
  rw [hf]
  rfl

/-- The part of a collective's node that a core's data is. -/
def State.ownNode (s : State) (c : CollCfg) (v : Nat) (d data : List Byte) : CNode :=
  ⟨dsc d 4 4, dsc d 8 1, s.member, !c.int && nonFinite (data.length / 4) data, data, false, v / 32⟩

/-- The first core of a device, with the roots elsewhere: its node is kept, and its segments are sent. -/
theorem ncollRun_elsewhere {s : State} {c : CollCfg} {step : DWord} {d : List Byte} (h2 : c.two = false) (hnorm : c.normEn = false)
    (ha : s.job.assay = false) (hb : s.stp.broken = none) (hshard : dsc d 4 4 < c.n) (hfwd : s.forwards c = true)
    (hr : ∀ seg < c.segs, s.rootMember c 1 0 seg ≠ s.member) (hroots : ∀ r ∈ s.fab.roots, r.coll = c.coll → r.step ≠ step)
    (hnone : s.collRun? c.coll step = none) (hprev : s.collRun? c.coll (step - 1) = none) (v : Nat) (st : Stream) (data : List Byte)
    (ctr : Option Nat) :
    s.ncollRun c v st step d data ctr = (s.setCollRun { s.collRunOrNew c.coll step with
      cores := [collCore v st d ctr], nodes := [s.ownNode c v d data] }).sendSegs c (s.rootMember c 1 0) (v / 32) step (s.ownNode c v d data)
        (List.range c.segs) := by
  have hnew : s.collRunOrNew c.coll step = ⟨c.coll, step, s.epoch.cur, [], [], [], [], [], 0, [], [], none, none, false, false, false⟩ := by
    rw [State.collRunOrNew, hnone]
    rfl
  obtain ⟨x, hx⟩ : ∃ x : CollRun, x = { s.collRunOrNew c.coll step with cores := [collCore v st d ctr] } := ⟨_, rfl⟩
  have hxc : x.coll = c.coll := by rw [hx, hnew]
  have hxs : x.step = step := by rw [hx, hnew]
  have hxn : s.collRun? x.coll x.step = none := by rw [hxc, hxs]; exact hnone
  have hset := setCollRun_new hxn
  have hfind := collRun?_setCollRun_new hxn
  have hother := collRun?_setCollRun_other hxn (coll := c.coll) (step := step - 1) (by rw [hxs]; bv_omega) hprev
  have hover : ∀ y : CollRun, y.coll = c.coll → y.step = step → (s.setCollRun x).setCollRun y = s.setCollRun y := fun y hc hs =>
    setCollRun_setCollRun_new hxn (hc.trans hxc.symm) (hs.trans hxs.symm)
  have hkept : (s.setCollRun x).fab.roots = s.fab.roots ∧ (s.setCollRun x).stp = s.stp ∧ (s.setCollRun x).job = s.job ∧
      (s.setCollRun x).member = s.member ∧ (s.setCollRun x).forwards c = s.forwards c ∧
      (s.setCollRun x).rootMember c 1 0 = s.rootMember c 1 0 := by
    rw [hset]
    exact ⟨rfl, rfl, rfl, rfl, rfl, rfl⟩
  have hfirst : s.setCollRun { s.collRunOrNew c.coll step with
      cores := (s.collRunOrNew c.coll step).cores ++ [collCore v st d ctr] } = s.setCollRun x := by
    rw [hx, hnew]
    rfl
  rw [hxc, hxs] at hfind
  have hfill := fillScratch_none (s := s.setCollRun x) (c := c) (step := step) (by rw [hkept.1]; exact hroots) v
  have hstart := startRoots_elsewhere (s := s.setCollRun x) h2 (by rw [hkept.2.2.2.1, hkept.2.2.2.2.2]; exact hr) v step
  have hlate : (s.setCollRun x).sendLate c step = (s.setCollRun x, []) := by
    unfold State.sendLate
    rw [hother]
  have hmay : (s.setCollRun x).mayContribute = true := by
    unfold State.mayContribute
    rw [hkept.2.1, hb]
    rfl
  have hrun : (s.setCollRun x).collRunOrNew c.coll step = x := by
    rw [State.collRunOrNew, hfind]
    rfl
  obtain ⟨y, hy⟩ : ∃ y : CollRun, y = { s.collRunOrNew c.coll step with
      cores := [collCore v st d ctr], nodes := [s.ownNode c v d data] } := ⟨_, rfl⟩
  have hyc : y.coll = c.coll := by rw [hy, hnew]
  have hys : y.step = step := by rw [hy, hnew]
  have hyn : s.collRun? y.coll y.step = none := by rw [hyc, hys]; exact hnone
  have hsecond : s.setCollRun { x with waiting := x.waiting, nodes := x.nodes ++ [s.ownNode c v d data] } = s.setCollRun y := by
    rw [hx, hy, hnew]
    rfl
  have hkept' : (s.setCollRun y).job = s.job ∧ (s.setCollRun y).member = s.member ∧
      (s.setCollRun y).rootMember c 1 0 = s.rootMember c 1 0 := by
    rw [setCollRun_new hyn]
    exact ⟨rfl, rfl, rfl⟩
  have hcontrib := contribute_elsewhere (s := s.setCollRun y) (c := c) (by rw [hkept'.1]; exact ha)
    (by rw [hkept'.2.1, hkept'.2.2]; exact hr) (v / 32) step step (s.ownNode c v d data) h2
  rw [hkept'.2.2] at hcontrib
  have hdone : (((s.setCollRun y).sendSegs c (s.rootMember c 1 0) (v / 32) step (s.ownNode c v d data) (List.range c.segs)).collRunOrNew
      c.coll step).done = false := by
    have hy' := collRun?_setCollRun_new hyn
    obtain ⟨_, _, _, ht⟩ := onlySent_sendSegs c (s.rootMember c 1 0) (v / 32) step (s.ownNode c v d data) (List.range c.segs) (s.setCollRun y)
    rw [ht]
    rw [hyc, hys] at hy'
    have hfound : (s.setCollRun y).collRunOrNew c.coll step = y := by
      rw [State.collRunOrNew, hy']
      rfl
    exact (congrArg CollRun.done hfound).trans (by rw [hy, hnew])
  rw [← hy]
  unfold State.ncollRun
  simp only [hnone, Option.isNone_none, hfirst, hnorm, hfill, hstart, hlate, hmay, hrun, hkept.2.2.2.1, hkept.2.2.2.2.1, hfwd, hshard,
    Bool.false_eq_true, if_false, if_true, Bool.true_and, decide_true, State.raiseFlagsAt]
  rw [show (⟨dsc d 4 4, dsc d 8 1, s.member, !c.int && nonFinite (data.length / 4) data, data, false, v / 32⟩ : CNode) =
    s.ownNode c v d data from rfl,
    hover { x with waiting := x.waiting, nodes := x.nodes ++ [s.ownNode c v d data] } hxc hxs, hsecond, hcontrib]
  dsimp only
  rw [show ([] ++ [] ++ [] ++ [] : List CAct) = [] from rfl, collGo_nil, hdone, if_neg Bool.false_ne_true]

/-- A collective that begins at this device, its roots elsewhere. -/
def State.contributed (s : State) (c : CollCfg) (v : Nat) (st : Stream) (step : DWord) (d data : List Byte) (ctr : Option Nat) : State :=
  (s.setCollRun { s.collRunOrNew c.coll step with cores := [collCore v st d ctr], nodes := [s.ownNode c v d data] }).sendSegs c
    (s.rootMember c 1 0) (v / 32) step (s.ownNode c v d data) (List.range c.segs)

theorem contributed_beside (s w : State) (c : CollCfg) (v : Nat) (st : Stream) (step : DWord) (d data : List Byte) (ctr : Option Nat) :
    (s.beside w).contributed c v st step d data ctr = (s.contributed c v st step d data ctr).beside w :=
  sendSegs_beside c (s.rootMember c 1 0) (v / 32) step (s.ownNode c v d data) (List.range c.segs) (s.setCollRun _) w

theorem fabricOnly_contributed (s : State) (c : CollCfg) (v : Nat) (st : Stream) (step : DWord) (d data : List Byte) (ctr : Option Nat) :
    FabricOnly s (s.contributed c v st step d data ctr) :=
  FabricOnly.trans (t := s.setCollRun _) rfl (onlySent_sendSegs ..).fabricOnly

/-- A sound descriptor of a configured collective runs it. -/
theorem ncollGo_of_sound {s : State} {c : CollCfg} {d data : List Byte} (hok : collDscOk d = true) (hcfg : s.collCfg (wOf (dsc d 0 4)) = some c)
    (hlen : c.lenG = data.length / 64) (v : Nat) (st : Stream) (step : DWord) (ctr : Option Nat) (ref : Nat) :
    s.ncollGo v st step (some d) data ctr ref = s.ncollRun c v st step d data ctr := by
  unfold State.ncollGo
  rw [Option.filter_some_pos hok]
  dsimp only [Option.bind_some]
  rw [hcfg, Option.filter_some_pos (by simp [hlen])]
  rfl

/-- Settles O15: nothing of the run that begins reaches this device's roots, so that its segments are sent and nothing else follows. -/
theorem contribution : Obligations.Contribution := by
  unfold Obligations.Contribution
  intro s i x p c h d data step nd hdesc hsrc hc hok hcfg hlen hst hnorm ha hb hshard hfwd hr hroots hnone hprev u
  have h2 : c.two = false := by rw [CollCfg.two, hst]; rfl
  have hforw : s.forwards c = true := by
    rcases hfwd with hf | hf | hf <;> simp [State.forwards, hf]
  have e1 : (s.issueOf p i.st (.ncoll x)).s x.sa = s.scalarOf i p x.sa := rfl
  have e2 : (s.issueOf p i.st (.ncoll x)).s x.sb = s.scalarOf i p x.sb := rfl
  have hdl : c.lenG = data.length / 64 := by
    rw [hlen, show data.length = 64 * x.len.toNat from length_bytesAt .., Nat.mul_div_cancel_left _ (by omega)]
  have hu : u = s.contributed c i.v i.st step d data (enCtr x.enD x.ctrD) := rfl
  have hgo : ∀ w ref, (s.beside w).ncollGo i.v i.st step (some d) data (enCtr x.enD x.ctrD) ref =
      (s.beside w).contributed c i.v i.st step d data (enCtr x.enD x.ctrD) := fun w ref =>
    (ncollGo_of_sound (s := s.beside w) hok hcfg hdl ..).trans
      (ncollRun_elsewhere (s := s.beside w) h2 hnorm ha hb hshard hforw hr hroots hnone hprev ..)
  have key : ∃ t, exec (.ncoll i x) s = .next t ∧ t.core p = (countOnce (s.core p) x.enR x.ctrR).goOn i.st ∧
      CoreAndRegs u t p (pairAt (Reg.muBusyCycLo p)) ∧
      PairRose u t (Reg.muBusyCycLo p) (portGranules (u.rowBytes i.v) (s.issueOf p i.st (.ncoll x))) := by
    refine issue_mover (op := .ncoll x) (countOnce (s.core p) x.enR x.ctrR) _ u h rfl (fun a f => ?_) fun lim fin => ?_
    · change (((descOf _ _ _ x).filter collDscOk).isSome && _ && _) = (((descOf _ _ _ x).filter collDscOk).isSome && _ && _)
      rw [descOf_atIssue]
      rfl
    · obtain ⟨r, hrd, hs⟩ := readDesc_plain (q := s.issueOf p i.st (.ncoll x)) hdesc (.again (s.core p).took prog0 lim fin) rfl
      obtain ⟨r', hrs, hs'⟩ := readSource_plain (q := s.issueOf p i.st (.ncoll x)) hsrc r hs.fresh
      have hsame := hs.trans hs'
      have hcm : r.c.cm = (s.core p).cm := (congrArg Core.cm hs.core).trans rfl
      have hup := ctrUp_countable (r := r') (en := x.enR) (k := x.ctrR) (by rw [hsame.core]; exact hc) 4
      have hperf : doNcoll (s.ctxOf i.v p) (s.issueOf p i.st (.ncoll x)) x (.again (s.core p).took prog0 lim fin) =
          .ok (Run.emit { r' with c := countOnce r'.c x.enR x.ctrR } (.ncoll i.st step (some d) data (enCtr x.enD x.ctrD)
            ((s.scalarOf i p x.sb).toNat % 2 ^ 32))) := by
        unfold doNcoll
        simp only [e1, e2, hrd, hrs, hup, hcm, bind, Except.bind]
        rfl
      refine ⟨_, hperf, (congrArg (countOnce · x.enR x.ctrR) hsame.core).trans (countOnce_took ..), fun w hw => ?_⟩
      rw [Run.emit, hsame.fx]
      change WorkedAs u (w.ncollGo _ _ _ _ _ _ _) p _
      have hwgo := hgo w ((s.scalarOf i p x.sb).toNat % 2 ^ 32)
      rw [← hw.only.eq_beside] at hwgo
      rw [hwgo, hu]
      exact hw.fabric (F := fun u => u.contributed _ _ _ _ _ _ _) (fabricOnly_contributed ..) fun w => contributed_beside ..
  obtain ⟨t, ht, hcore, hregs, -⟩ := key
  exact ⟨t, ht, hcore, hregs⟩

end Sys2Proof.Machine
end


section
/-! PROOFS. HANDOFF regions: loads and stores at the valid bits, held instructions and their cycles (R247 to R249, R254): O9. -/

namespace Sys2Proof.Machine

open Sys2Proof

/-! ### Eight bytes of a granule -/

theorem bytesKept_setBytes {m : List Host.Cell} {off n : Nat} {bs : List Byte} (h : bs.length = n) :
    BytesKept m (setBytes m off bs) (within off n) := fun b hb => byteAt_setBytes_of_outside (by unfold within at hb; omega)

/-- A good reference of eight bytes lies in one granule. -/
theorem granules_of_cmOk {x : Ctx} {a : DWord} (h : cmOk x a 8 true 8 = true) : granules (refOff a) 8 = [refOff a / 64] := by
  have ha : refOff a % 8 = 0 := by
    unfold cmOk at h
    split at h
    · cases h
    · split at h
      · cases h
      next hn => exact not_not.1 (not_or.1 hn).1
  have hone : (refOff a + 8 - 1) / 64 - refOff a / 64 + 1 = 1 := by omega
  unfold granules
  rw [if_neg (by decide), hone]
  rfl

/-- Its last byte is the granule's last byte. -/
theorem lastByte_of_cmOk {x : Ctx} {a : DWord} (h : cmOk x a 8 true 8 = true) :
    (64 * (refOff a / 64) + 63 < refOff a + 8) ↔ refOff a % 64 = 56 := by
  have hg := granules_of_cmOk h
  have hm : ∀ g, g ∈ granules (refOff a) 8 → g = refOff a / 64 := fun g h => by rwa [hg, List.mem_singleton] at h
  have := hm ((refOff a + 7) / 64) (mem_granules.2 ⟨by decide, by omega, by omega⟩)
  omega

/-! ### Valid bits (R247 to R249) -/

/-- A core behind a store of eight bytes at `off`, to a granule of region `e` that is not valid. -/
def Core.filled (c : Core) (e : Region) (off : Nat) : Core :=
  { c with
    gran := if off % 64 = 56 then tset gran0 c.gran (off / 64) ⟨true, (tget rgn0 c.rgn e.idx).wg, e.readers⟩ else c.gran
    rgn := if off % 64 = 56 ∧ off / 64 = e.last then
        tset rgn0 c.rgn e.idx { tget rgn0 c.rgn e.idx with wg := (tget rgn0 c.rgn e.idx).wg + 1 }
      else c.rgn }

/-- A core behind a load of the valid granule `g` of region `e`. -/
def Core.drunk (c : Core) (e : Region) (g : Nat) (st : Stream) : Core :=
  { c with
    gran := tset gran0 c.gran g ⟨(tget gran0 c.gran g).left - 1 != 0, (tget gran0 c.gran g).gen, (tget gran0 c.gran g).left - 1⟩
    rgn := if g = e.last then tset rgn0 c.rgn e.idx ((tget rgn0 c.rgn e.idx).bumpRp st) else c.rgn }

section
variable {x : Ctx} {e : Region} {a : DWord} {c : Core} (hc : cmOk x a 8 true 8 = true) (he : regionOf x (refOff a / 64) = some e)
include hc he

theorem writeGranules_free (hq : (tget gran0 c.gran (refOff a / 64)).v = false) :
    writeGranules x (refOff a) 8 (granules (refOff a) 8) c = some (c.filled e (refOff a)) := by
  have hw : hwWrite x (refOff a / 64) (decide (64 * (refOff a / 64) + 63 < refOff a + 8)) c = some (c.filled e (refOff a)) := by
    simp only [hwWrite, he, hq, lastByte_of_cmOk hc, Bool.false_eq_true, if_false, decide_eq_true_eq, Core.filled]
    by_cases h : refOff a % 64 = 56
    · by_cases hl : refOff a / 64 = e.last <;> simp [h, hl]
    · simp [h]
  rw [granules_of_cmOk hc]
  simp only [writeGranules, hw]

theorem writeGranules_valid (hq : (tget gran0 c.gran (refOff a / 64)).v = true) :
    writeGranules x (refOff a) 8 (granules (refOff a) 8) c = none := by
  rw [granules_of_cmOk hc]
  simp only [writeGranules, hwWrite, he, hq, if_true]

theorem readGranules_valid {st : Stream} (hq : (tget gran0 c.gran (refOff a / 64)).v = true)
    (hg : (tget gran0 c.gran (refOff a / 64)).gen = (tget rgn0 c.rgn e.idx).rp st) :
    readGranules x st (granules (refOff a) 8) c = some (c.drunk e (refOff a / 64) st, []) := by
  rw [granules_of_cmOk hc]
  simp only [readGranules, hwRead, he, hq, hg, if_true, Core.drunk]
  by_cases hl : refOff a / 64 = e.last <;> simp [hl]

theorem readGranules_empty {st : Stream} (hq : (tget gran0 c.gran (refOff a / 64)).v = false) :
    readGranules x st (granules (refOff a) 8) c = none := by
  rw [granules_of_cmOk hc]
  simp only [readGranules, hwRead, he, hq, Bool.false_eq_true, if_false]

end

/-! ### STS and LDS in a region -/

section
variable {x : Ctx} {e : Region} {i : Issue} {f : FmtI} {r : Run} (hc : cmOk x (refI i f) 8 true 8 = true)
  (he : regionOf x (refOff (refI i f) / 64) = some e) (ho : r.old = [])
include hc he ho

theorem doSts_free (hq : (tget gran0 r.c.gran (refOff (refI i f) / 64)).v = false) : ∃ r', doSts x i f r = .ok r' ∧ r'.fx = r.fx ∧
    r'.c = { r.c.filled e (refOff (refI i f)) with cm := setBytes r.c.cm (refOff (refI i f)) (leBytes 8 (i.s f.sd).toNat) } := by
  rw [doSts, if_pos hc]
  unfold Run.write Run.access
  simp only [ho, Option.bind_none, List.length_map, length_leBytes, writeGranules_free hc he hq, Option.map_some, writeBytes_some, Except.map]
  exact ⟨_, rfl, rfl, rfl⟩

theorem doSts_valid (hq : (tget gran0 r.c.gran (refOff (refI i f) / 64)).v = true) : doSts x i f r = .error r := by
  rw [doSts, if_pos hc]
  unfold Run.write Run.access
  simp only [Option.bind_none, List.length_map, length_leBytes, writeGranules_valid hc he hq, ho, Option.map_none]
  rfl

theorem doLds_valid (hq : (tget gran0 r.c.gran (refOff (refI i f) / 64)).v = true)
    (hg : (tget gran0 r.c.gran (refOff (refI i f) / 64)).gen = (tget rgn0 r.c.rgn e.idx).rp i.st) : ∃ r', doLds x i f r = .ok r' ∧ r'.fx = r.fx ∧
    r'.c = (r.c.drunk e (refOff (refI i f) / 64) i.st).setStream i.st ((r.c.stream i.st).setS f.sd.toNat
      (BitVec.ofNat 64 (leNat (bytesAt r.c.cm (refOff (refI i f)) 8)))) := by
  rw [doLds, if_pos hc]
  unfold Run.read Run.access
  simp only [ho, Option.bind_none, readGranules_valid hc he hq hg, List.map_nil, List.foldl_nil, maskStale_nil, Except.map]
  refine ⟨_, rfl, rfl, ?_⟩
  cases i.st <;> rfl

theorem doLds_empty (hq : (tget gran0 r.c.gran (refOff (refI i f) / 64)).v = false) : doLds x i f r = .error r := by
  rw [doLds, if_pos hc]
  unfold Run.read Run.access
  simp only [Option.bind_none, readGranules_empty hc he hq, ho]
  rfl

end

/-! ### An instruction that is held at its first access -/

theorem tryPerform_error {s : State} {v p pc : Nat} {i : Issue} {r : Run} (hb : blocked (s.core p) i = false)
    (hd : s.devHold v p i = false) (he : engineOf i.op = none)
    (hp : perform (s.ctxOf v p) (s.rowBytes v) pc i
      (.again (s.core p) i.prog (rowLimit (s.core p) i) (mayFinish (s.core p) i)) = .error r) :
    s.tryPerform v p pc i = ((s.setCore p r.c).applyAll p v r.fx, some r.prog) := by
  unfold State.tryPerform
  have hr : s.reachHead p i = (s, i) := by unfold State.reachHead; rw [he]
  simp only [hb, hd, Bool.or_self, Bool.false_eq_true, if_false, hr, hp]

/-- The issue of an operation that is held before it has done anything: it joins the held ones, and its stream goes on. -/
theorem issue_held {s : State} {i : Iss} {op : IsaOp} {p : Nat} (h : s.canIssue i op p = true) (hq : quietOp op = true)
    (hp : ∀ lim fin, perform (s.ctxOf i.v p) (s.rowBytes i.v) (s.streamOf i p).pc.toNat (s.issueOf p i.st op)
      (.again (s.core p).took prog0 lim fin) = .error (.again (s.core p).took prog0 lim fin)) :
    ∃ t, exec (cmdOf i op) s = .next t ∧ OnlyCore s t p ∧
      t.core p = { s.core p with held := (s.core p).held ++ [s.issueOf p i.st op] }.goOn i.st := by
  obtain ⟨-, -, -, -, -, -, -, -, -, hb, -, -, -⟩ := (canIssue_iff s i op p).mp h
  obtain ⟨a, f, haf, e⟩ := issueOp_eq h
  have ht := tryPerform_error (s := s.atIssue p a f) (v := i.v) (p := p) (pc := (s.streamOf i p).pc.toNat)
    (i := s.issueOf p i.st op) (by rw [core_atIssue]; exact hb) (devHold_of_quiet hq ..) (engineOf_of_quiet hq)
    ((congrArg (perform _ _ _ _) (by rw [core_atIssue]; rfl)).trans (hp (rowLimit ((s.atIssue p a f).core p) (s.issueOf p i.st op))
      (mayFinish ((s.atIssue p a f).core p) (s.issueOf p i.st op))))
  refine ⟨_, (exec_cmd ..).trans (congrArg Host.Outcome.next (e.trans (by rw [ht]))), ?_, core_next ?_⟩
  · exact ((onlyCore_atIssue haf _).setCore _).next
  · have hcore : (((s.atIssue p a f).setCore p (s.core p).took).applyAll p i.v []).core p = (s.core p).took := core_setCore_self ..
    rw [core_setCore_self]
    exact congrArg (fun c : Core => { c with held := c.held ++ [s.issueOf p i.st op] }) hcore

/-! ### The cycles of holds (R254) -/

/-- The low word of a stall class's counter. -/
def stallLow (p : Nat) : StallClass → Nat
  | .read => Reg.coreCvReadLo p | .write => Reg.coreCvWriteLo p | .bank => Reg.coreCvBankLo p
  | .reg => Reg.coreCvRegLo p | .queue => Reg.coreCvQueueLo p

theorem rpair_of_kept {s t : State} {b : Nat → Prop} (h : RegsKept s t b) {lo : Nat} (h0 : ¬ b lo) (h4 : ¬ b (lo + 4)) : t.rpair lo = s.rpair lo := by
  unfold State.rpair
  rw [h lo h0, h (lo + 4) h4]

/-- A count of a stall raises the counter of its class, and writes registers only. -/
theorem countStall_counts (s : State) (p : Nat) (lanes : Bool) (cls : StallClass) (n : Nat) :
    s.countStall p lanes cls n = { s with regs := (s.countStall p lanes cls n).regs } ∧ PairRose s (s.countStall p lanes cls n) (stallLow p cls) n ∧
      RegsKept s (s.countStall p lanes cls n) (fun o => pairAt (stallLow p cls) o ∨ o = Reg.coreCvStep p ∨
        ((lanes && cls == .queue) = true ∧ pairAt (Reg.veQfullCycLo p) o)) := by
  by_cases hn : n = 0
  · subst hn
    rw [countStall_zero]
    exact ⟨rfl, rose_bumpPair s (stallLow p cls) 0, fun _ _ => rfl⟩
  have hrest : RegsKept (s.bumpPair (stallLow p cls) n) (s.countStall p lanes cls n)
      (fun o => o = Reg.coreCvStep p ∨ ((lanes && cls == .queue) = true ∧ pairAt (Reg.veQfullCycLo p) o)) ∧
      s.countStall p lanes cls n = { s.bumpPair (stallLow p cls) n with regs := (s.countStall p lanes cls n).regs } := by
    have he : s.countStall p lanes cls n = if (lanes && cls == .queue) = true then
        ((s.bumpPair (stallLow p cls) n).bump (Reg.coreCvStep p) n).bumpPair (Reg.veQfullCycLo p) n
      else (s.bumpPair (stallLow p cls) n).bump (Reg.coreCvStep p) n := by
      unfold State.countStall
      rw [if_neg hn]
      cases cls <;> rfl
    rw [he]
    split
    next hq =>
      refine ⟨RegsKept.trans (kept_bump _ _ _ (.inl rfl)) ((kept_bumpPair _ _ _).mono fun o ho => .inr ⟨hq, ho⟩), ?_⟩
      rw [onlyRegs_bumpPair, onlyRegs_bump]
    · exact ⟨kept_bump _ _ _ (.inl rfl), onlyRegs_bump ..⟩
  obtain ⟨hk, ho⟩ := hrest
  refine ⟨?_, ?_, ((kept_bumpPair _ _ _).mono fun _ => .inl).trans (hk.mono fun _ => .inr)⟩
  · rw [ho, onlyRegs_bumpPair]
  · refine (rpair_of_kept hk ?_ ?_).trans (rose_bumpPair ..)
    all_goals
      unfold pairAt Reg.coreCvStep Reg.veQfullCycLo
      cases cls <;> simp only [stallLow, Reg.coreCvReadLo, Reg.coreCvWriteLo, Reg.coreCvBankLo, Reg.coreCvRegLo, Reg.coreCvQueueLo] <;> omega

theorem issueOp_counts {s : State} {i : Iss} {op : IsaOp} {p : Nat}
    (h : s.canIssue { i with regWait := 0, queueWait := 0, bankWait := 0 } op p = true) :
    s.issueOp i op = (s.issueOp { i with regWait := 0, queueWait := 0, bankWait := 0 } op).countIssue p i op := by
  obtain ⟨-, hh, hr, -, hc, hq, -, -, -, -, -, -, -⟩ := (canIssue_iff s _ op p).mp h
  unfold State.issueOp
  simp only [show s.holder i.v = some p from hh, show s.ready p i.st = true from hr,
    show (s.core p).held.any (fun h => h.st == i.st && clashes (regUse op) (regUse h.op)) = false from hc, hq, Bool.not_true,
    Bool.false_eq_true, if_false, Bool.or_self]
  rw [countIssue_zero (i := { i with regWait := 0, queueWait := 0, bankWait := 0 }) _ _ _ rfl rfl rfl]

/-- The offsets of the counters of a core's holds. -/
theorem stallLow_eq (p : Nat) : stallLow p .reg = coreWin p + 0x118 ∧ stallLow p .queue = coreWin p + 0x120 ∧ stallLow p .bank = coreWin p + 0x110 ∧
    Reg.coreCvStep p = coreWin p + 0x13C ∧ Reg.veQfullCycLo p = coreWin p + 0x2108 ∧ Reg.veBusyCycLo p = coreWin p + 0x2100 :=
  ⟨rfl, rfl, rfl, rfl, rfl, rfl⟩

/-- The registers that the counts of an issue may write. -/
def holdRegs (p o : Nat) : Prop :=
  pairAt (stallLow p .reg) o ∨ pairAt (stallLow p .queue) o ∨ pairAt (stallLow p .bank) o ∨ o = Reg.coreCvStep p ∨
    pairAt (Reg.veQfullCycLo p) o ∨ pairAt (Reg.veBusyCycLo p) o

/-- The cycles of an issue's holds count, by class. -/
theorem countIssue_counts (u : State) (p : Nat) (i : Iss) (op : IsaOp) :
    u.countIssue p i op = { u with regs := (u.countIssue p i op).regs } ∧
    RegsKept u (u.countIssue p i op) (holdRegs p) ∧
    PairRose u (u.countIssue p i op) (stallLow p .reg) i.regWait ∧ PairRose u (u.countIssue p i op) (stallLow p .queue) i.queueWait ∧
    PairRose u (u.countIssue p i op) (stallLow p .bank) i.bankWait := by
  obtain ⟨ha, hra, hka⟩ := countStall_counts u p (isVector op) .reg i.regWait
  obtain ⟨hb, hrb, hkb⟩ := countStall_counts (u.countStall p (isVector op) .reg i.regWait) p (isVector op) .queue i.queueWait
  obtain ⟨hc, hrc, hkc⟩ := countStall_counts ((u.countStall p (isVector op) .reg i.regWait).countStall p (isVector op) .queue i.queueWait) p
    (isVector op) .bank i.bankWait
  have ht : ∀ w : State, (if isVector op then w.bumpPair (Reg.veBusyCycLo p) i.bankWait else w) =
      { w with regs := (if isVector op then w.bumpPair (Reg.veBusyCycLo p) i.bankWait else w).regs } ∧
      RegsKept w (if isVector op then w.bumpPair (Reg.veBusyCycLo p) i.bankWait else w) (pairAt (Reg.veBusyCycLo p)) := by
    intro w
    split
    · exact ⟨onlyRegs_bumpPair .., kept_bumpPair _ _ _⟩
    · exact ⟨rfl, fun _ _ => rfl⟩
  obtain ⟨hd, hkd⟩ := ht (((u.countStall p (isVector op) .reg i.regWait).countStall p (isVector op) .queue i.queueWait).countStall p
    (isVector op) .bank i.bankWait)
  have hu : u.countIssue p i op = if isVector op then (((u.countStall p (isVector op) .reg i.regWait).countStall p (isVector op) .queue
      i.queueWait).countStall p (isVector op) .bank i.bankWait).bumpPair (Reg.veBusyCycLo p) i.bankWait else
      ((u.countStall p (isVector op) .reg i.regWait).countStall p (isVector op) .queue i.queueWait).countStall p (isVector op) .bank i.bankWait := rfl
  rw [hu]
  generalize ((u.countStall p (isVector op) .reg i.regWait).countStall p (isVector op) .queue i.queueWait).countStall p
    (isVector op) .bank i.bankWait = w3 at *
  generalize (u.countStall p (isVector op) .reg i.regWait).countStall p (isVector op) .queue i.queueWait = w2 at *
  generalize u.countStall p (isVector op) .reg i.regWait = w1 at *
  generalize (if isVector op then w3.bumpPair (Reg.veBusyCycLo p) i.bankWait else w3) = w4 at *
  obtain ⟨e1, e2, e3, e4, e5, e6⟩ := stallLow_eq p
  have h1 : RegsKept u w1 (holdRegs p) := hka.mono fun o ho => by unfold holdRegs; tauto
  have h2 : RegsKept w1 w2 (holdRegs p) := hkb.mono fun o ho => by unfold holdRegs; tauto
  have h3 : RegsKept w2 w3 (holdRegs p) := hkc.mono fun o ho => by unfold holdRegs; tauto
  have h4 : RegsKept w3 w4 (holdRegs p) := hkd.mono fun o ho => by unfold holdRegs; tauto
  simp only [e1, e2, e3, e4, e5, e6] at hra hrb hrc hka hkb hkc hkd ⊢
  refine ⟨?_, ?_, ?_, ?_, ?_⟩
  · rw [hd, hc, hb, ha]
  · exact ((h1.trans h2).trans h3).trans h4
  · exact ((rpair_of_kept hkd (by unfold pairAt; omega) (by unfold pairAt; omega)).trans
      ((rpair_of_kept hkc (by unfold pairAt; omega) (by unfold pairAt; omega)).trans
        (rpair_of_kept hkb (by unfold pairAt; omega) (by unfold pairAt; omega)))).trans hra
  · refine ((rpair_of_kept hkd (by unfold pairAt; omega) (by unfold pairAt; omega)).trans
      (rpair_of_kept hkc (by unfold pairAt; omega) (by unfold pairAt; omega))).trans (hrb.trans ?_)
    rw [rpair_of_kept hka (by unfold pairAt; omega) (by unfold pairAt; omega)]
  · refine (rpair_of_kept hkd (by unfold pairAt; omega) (by unfold pairAt; omega)).trans (hrc.trans ?_)
    rw [rpair_of_kept hkb (by unfold pairAt; omega) (by unfold pairAt; omega),
      rpair_of_kept hka (by unfold pairAt; omega) (by unfold pairAt; omega)]

/-! ### A held store is released -/

theorem not_blocked_of_first {c : Core} {h : Issue} (hs : ∀ j ∈ c.held, j.seq = h.seq ∨ h.seq < j.seq) : blocked c h = false := by
  unfold blocked
  rw [List.any_eq_false]
  intro j hj hb
  rw [Bool.and_eq_true, decide_eq_true_eq] at hb
  have := hs j hj
  omega

/-- A held store that goes first and whose granule has been read to the end is done when it is released. -/
theorem release_sts {s : State} {v : Fin 128} {k p : Nat} {h : Issue} {x : FmtI} {e : Region} (hv : s.holder v = some p)
    (hk : (s.core p).held[k]? = some h) (ho : h.op = .sts x) (hg : h.prog = prog0)
    (hs : ∀ j ∈ (s.core p).held, j.seq = h.seq ∨ h.seq < j.seq) (hc : cmOk (s.ctxOf v p) (refI h x) 8 true 8 = true)
    (he : regionOf (s.ctxOf v p) (refOff (refI h x) / 64) = some e) (hq : (tget gran0 (s.core p).gran (refOff (refI h x) / 64)).v = false)
    (cycles : Nat) (cls : StallClass) :
    ∃ c, exec (.interlockRelease v k ⟨cycles, none⟩ cls) s = .next (((s.setCore p c).setCore p { (s.core p).filled e (refOff (refI h x)) with
      cm := setBytes (s.core p).cm (refOff (refI h x)) (leBytes 8 (h.s x.sd).toNat)
      held := (s.core p).held.filter (fun j => j.seq != h.seq) }).countStall p false cls cycles) := by
  obtain ⟨r, hr, hfx, hcore⟩ := doSts_free (r := .again (s.core p) h.prog (rowLimit (s.core p) h) (mayFinish (s.core p) h)) hc he
    (by rw [hg]; rfl) hq
  have hquiet : quietOp h.op = true := by rw [ho]; rfl
  have ht := tryPerform_ok (s := s) (v := v) (p := p) (pc := 0) (i := h) (r := r) (not_blocked_of_first hs) (devHold_of_quiet hquiet ..)
    (engineOf_of_quiet hquiet) (by unfold perform; rw [ho]; exact hr)
  rw [portGranules_of_quiet hquiet, show r.fx = [] from hfx, hcore] at ht
  have hu : unitOf h.op = .control := by rw [ho]; rfl
  refine ⟨{ (s.core p).filled e (refOff (refI h x)) with
    cm := setBytes (s.core p).cm (refOff (refI h x)) (leBytes 8 (h.s x.sd).toNat) }, ?_⟩
  rw [exec]
  unfold execInterlockRelease
  simp only [hv, hk, ht, hu, State.applyAll, List.foldl_nil, State.bumpPair, if_true, core_setCore_self, State.lateCheck]
  rfl

/-- Settles O9. -/
theorem handoffAccess : Obligations.HandoffAccess := by
  unfold Obligations.HandoffAccess
  refine ⟨?_, ?_, ?_⟩
  · intro s i x p e a g q w hc he
    refine ⟨fun h => ⟨fun hq => ?_, fun hq => ?_⟩, fun h => ⟨fun hq hg => ?_, fun hq => ?_⟩⟩
    · obtain ⟨t, ht, hcore, honly⟩ := issue_quiet (op := .sts x) { (s.core p).filled e (refOff a) with
          cm := setBytes (s.core p).cm (refOff a) (leBytes 8 (sget (s.streamOf i p).sreg x.sd.toNat).toNat) } h rfl fun lim fin => by
        obtain ⟨r, hr, hfx, hrc⟩ := doSts_free (i := s.issueOf p i.st (.sts x)) (r := .again (s.core p).took prog0 lim fin) hc he rfl hq
        exact ⟨r, hr, hrc, hfx⟩
      have hm := bytesAt_setBytes_self (s.core p).cm (refOff a) (leBytes 8 (sget (s.streamOf i p).sreg x.sd.toNat).toNat)
      exact ⟨t, _, ht, honly, hm, bytesKept_setBytes (length_leBytes ..), hcore⟩
    · exact issue_held (op := .sts x) h rfl fun lim fin =>
        doSts_valid (i := s.issueOf p i.st (.sts x)) (r := .again (s.core p).took prog0 lim fin) hc he rfl hq
    · obtain ⟨t, ht, hcore, honly⟩ := issue_quiet (op := .lds x) (((s.core p).drunk e g i.st).setStream i.st
          ((s.streamOf i p).setS x.sd.toNat (BitVec.ofNat 64 (leNat (bytesAt (s.core p).cm (refOff a) 8))))) h rfl fun lim fin => by
        obtain ⟨r, hr, hfx, hrc⟩ := doLds_valid (i := s.issueOf p i.st (.lds x)) (r := .again (s.core p).took prog0 lim fin) hc he rfl hq hg
        refine ⟨r, hr, hrc.trans ?_, hfx⟩
        rw [c_again, stream_took, ← took_setStream]
        rfl
      exact ⟨t, ht, honly, hcore⟩
    · exact issue_held (op := .lds x) h rfl fun lim fin =>
        doLds_empty (i := s.issueOf p i.st (.lds x)) (r := .again (s.core p).took prog0 lim fin) hc he rfl hq
  · intro s v k cycles p cls h x e a g w low hv hk ho hg hs hc he hq hl hne
    have hlow : low = stallLow p cls := by cases cls <;> rfl
    obtain ⟨c, ht⟩ := release_sts hv hk ho hg hs hc he hq cycles cls
    obtain ⟨hregs, hrose, hkept⟩ := countStall_counts ((s.setCore p c).setCore p { (s.core p).filled e (refOff (refI h x)) with
      cm := setBytes (s.core p).cm (refOff (refI h x)) (leBytes 8 (h.s x.sd).toNat)
      held := (s.core p).held.filter (fun j => j.seq != h.seq) }) p false cls cycles
    have hm := bytesAt_setBytes_self (s.core p).cm (refOff (refI h x)) (leBytes 8 (h.s x.sd).toNat)
    refine ⟨_, _, ht, hm, bytesKept_setBytes (length_leBytes ..), ?_, ?_, ?_⟩
    · rw [hregs]
      refine (core_setCore_self ..).trans ?_
      rw [Core.filled, if_pos (show refOff (refI h x) % 64 = 56 from hl), if_neg (fun h => hne h.2)]
      rfl
    · rw [hlow]
      refine ⟨hkept.mono fun o ho => by simpa using ho, ?_⟩
      rw [hregs]
      exact (onlyCore_setCore ..).setCore _
    · rw [hlow]; exact hrose
  · intro s i op p j h
    obtain ⟨hr, hk, h1, h2, h3⟩ := countIssue_counts (s.issueOp j op) p i op
    exact ⟨_, _, exec_cmd j op s, (exec_cmd i op s).trans (congrArg _ (issueOp_counts h)), hr, hk, h1, h2, h3⟩

end Sys2Proof.Machine
end


section
/-! PROOFS. Vector instructions: the elements of a register group, flags and lane cycles (R158 to R166, R219 to R223). -/

namespace Sys2Proof.Machine

open Sys2Proof

/-! ### Elements behind a write (R159) -/

theorem vword_setVword (x : StreamSt) (n w : Nat) (v : Word) : (x.setVword n v).vword w = if w = n then v else x.vword w :=
  tget_tset ..

/-- Words of a register in a mode hold two elements, or one. -/
def perWord (m : Nat) : Nat := if m = 1 then 2 else 1

/-- The word that holds element `k` of a group. -/
def vWordOf (m r k : Nat) : Nat := 64 * r + k / perWord m

theorem setVElem_only (x : StreamSt) (m r k : Nat) (v : Word) : setVElem x m r k v = { x with vreg := (setVElem x m r k v).vreg } := by
  unfold setVElem
  split <;> rfl

theorem vword_setVElem (x : StreamSt) {m r k w : Nat} (v : Word) (h : w ≠ vWordOf m r k) : (setVElem x m r k v).vword w = x.vword w := by
  unfold setVElem
  split
  next hm =>
    subst hm
    exact (vword_setVword ..).trans (if_neg h)
  next hm => exact (vword_setVword ..).trans (if_neg (by simpa [vWordOf, perWord, hm] using h))

theorem lowMask_bit (j : Nat) : (0xFFFF#32).getLsbD j = decide (j < 16) := by
  have h : ∀ j : Fin 32, (0xFFFF#32).getLsbD j.val = decide (j.val < 16) := by decide
  by_cases hj : j < 32
  · exact h ⟨j, hj⟩
  · rw [BitVec.getLsbD_of_ge _ _ (by omega), decide_eq_false (by omega)]

theorem highMask_bit (j : Nat) : (0xFFFF0000#32).getLsbD j = decide (16 ≤ j ∧ j < 32) := by
  have h : ∀ j : Fin 32, (0xFFFF0000#32).getLsbD j.val = decide (16 ≤ j.val ∧ j.val < 32) := by decide
  by_cases hj : j < 32
  · exact h ⟨j, hj⟩
  · rw [BitVec.getLsbD_of_ge _ _ (by omega), decide_eq_false (by omega)]

/-! The two halves of a word of BF16 elements behind a write of one. -/

theorem lowHalf_of_low (w v : Word) : ((w &&& 0xFFFF0000#32) ||| (v &&& 0xFFFF#32)) &&& 0xFFFF#32 = v &&& 0xFFFF#32 := by
  refine BitVec.eq_of_getLsbD_eq fun j hj => ?_
  simp only [BitVec.getLsbD_or, BitVec.getLsbD_and, lowMask_bit, highMask_bit]
  by_cases h : j < 16 <;> simp [h]

theorem highHalf_of_low (w v : Word) : ((w &&& 0xFFFF0000#32) ||| (v &&& 0xFFFF#32)) >>> 16 = w >>> 16 := by
  refine BitVec.eq_of_getLsbD_eq fun j hj => ?_
  simp only [BitVec.getLsbD_ushiftRight, BitVec.getLsbD_or, BitVec.getLsbD_and, lowMask_bit, highMask_bit]
  by_cases h : 16 + j < 32
  · simp [h]
  · simp [BitVec.getLsbD_of_ge w (16 + j) (by omega)]

theorem lowHalf_of_high (w v : Word) : ((w &&& 0xFFFF#32) ||| (v <<< 16)) &&& 0xFFFF#32 = w &&& 0xFFFF#32 := by
  refine BitVec.eq_of_getLsbD_eq fun j hj => ?_
  simp only [BitVec.getLsbD_or, BitVec.getLsbD_and, BitVec.getLsbD_shiftLeft, lowMask_bit]
  by_cases h : j < 16 <;> simp [h]

theorem highHalf_of_high (w v : Word) : ((w &&& 0xFFFF#32) ||| (v <<< 16)) >>> 16 = v &&& 0xFFFF#32 := by
  refine BitVec.eq_of_getLsbD_eq fun j hj => ?_
  simp only [BitVec.getLsbD_ushiftRight, BitVec.getLsbD_or, BitVec.getLsbD_and, BitVec.getLsbD_shiftLeft, lowMask_bit]
  by_cases h : j < 16
  · simp [h, show 16 + j < 32 by omega]
  · simp [h, show ¬ 16 + j < 32 by omega]

/-- What an element reads as behind a write of one of its group. -/
theorem vElem_setVElem (x : StreamSt) (m r k j : Nat) (v : Word) :
    vElem (setVElem x m r k v) m r j = if j = k then elemOf m v else vElem x m r j := by
  unfold vElem setVElem elemOf
  by_cases hm : m = 1
  · simp only [if_pos hm, vword_setVword]
    by_cases hw : 64 * r + j / 2 = 64 * r + k / 2
    · have hk : k / 2 = j / 2 := by omega
      rw [if_pos hw, hk]
      by_cases hjp : j % 2 = 0 <;> by_cases hkp : k % 2 = 0
      · rw [if_pos hjp, if_pos hkp, if_pos (show j = k by omega)]
        exact lowHalf_of_low _ _
      · rw [if_pos hjp, if_neg hkp, if_neg (show j ≠ k by omega), if_pos hjp]
        exact lowHalf_of_high _ _
      · rw [if_neg hjp, if_pos hkp, if_neg (show j ≠ k by omega), if_neg hjp]
        exact highHalf_of_low _ _
      · rw [if_neg hjp, if_neg hkp, if_pos (show j = k by omega)]
        exact highHalf_of_high _ _
    · rw [if_neg hw, if_neg (show j ≠ k by omega)]
  · simp only [if_neg hm, vword_setVword]
    by_cases hj : j = k
    · rw [if_pos (by omega), if_pos hj]
    · rw [if_neg (by omega), if_neg hj]

theorem setVElems_only (m r : Nat) (vs : List (Option Word)) : ∀ (x : StreamSt) (k : Nat),
    setVElems x m r k vs = { x with vreg := (setVElems x m r k vs).vreg } := by
  induction vs with
  | nil => intro x k; rfl
  | cons v vs ih =>
    intro x k
    cases v with
    | none => exact ih x (k + 1)
    | some v =>
      rw [setVElems, ih, setVElem_only x]

/-- What an element reads as behind a write of a row of them. -/
theorem vElem_setVElems (m r : Nat) (vs : List (Option Word)) : ∀ (x : StreamSt) (k j : Nat),
    vElem (setVElems x m r k vs) m r j = if k ≤ j then ((vs.getD (j - k) none).map (elemOf m)).getD (vElem x m r j) else vElem x m r j := by
  induction vs with
  | nil => intro x k j; simp [setVElems]
  | cons v vs ih =>
    intro x k j
    have hstep : ∀ y : StreamSt, (∀ j, j ≠ k → vElem y m r j = vElem x m r j) → vElem y m r k = (v.map (elemOf m)).getD (vElem x m r k) →
        (if k + 1 ≤ j then ((vs.getD (j - (k + 1)) none).map (elemOf m)).getD (vElem y m r j) else vElem y m r j) =
        if k ≤ j then (((v :: vs).getD (j - k) none).map (elemOf m)).getD (vElem x m r j) else vElem x m r j := by
      intro y hne hk
      rcases Nat.lt_trichotomy j k with h | h | h
      · rw [if_neg (by omega), if_neg (by omega), hne j (by omega)]
      · subst h
        rw [if_neg (by omega), if_pos (Nat.le_refl j), Nat.sub_self, List.getD_cons_zero, hk]
      · rw [if_pos (by omega), if_pos (by omega), show j - k = (j - (k + 1)) + 1 by omega, List.getD_cons_succ, hne j (by omega)]
    cases v with
    | none => exact (ih x (k + 1) j).trans (hstep x (fun _ _ => rfl) rfl)
    | some v =>
      exact (ih _ (k + 1) j).trans (hstep _ (fun j hj => (vElem_setVElem ..).trans (if_neg hj)) ((vElem_setVElem ..).trans (if_pos rfl)))

/-- Words beside the group stand. -/
theorem vword_setVElems (m r : Nat) (vs : List (Option Word)) : ∀ (x : StreamSt) (k w : Nat),
    (∀ j, j < vs.length → w ≠ vWordOf m r (k + j)) → (setVElems x m r k vs).vword w = x.vword w := by
  induction vs with
  | nil => intro x k w _; rfl
  | cons v vs ih =>
    intro x k w h
    have ht : ∀ j, j < vs.length → w ≠ vWordOf m r (k + 1 + j) := fun j hj => by
      have := h (j + 1) (by simpa using hj)
      rwa [show k + (j + 1) = k + 1 + j by omega] at this
    cases v with
    | none => exact ih x (k + 1) w ht
    | some v => exact (ih _ (k + 1) w ht).trans (vword_setVElem x v (h 0 (by simp)))

/-- The group of `n` elements, as whole words. -/
theorem vword_setVElems_group {m r n w : Nat} {vs : List (Option Word)} (hl : vs.length = n) (hn : n % perWord m = 0) (x : StreamSt)
    (hw : w < 64 * r ∨ 64 * r + n / perWord m ≤ w) : (setVElems x m r 0 vs).vword w = x.vword w := by
  refine vword_setVElems m r vs x 0 w fun j hj => ?_
  unfold vWordOf perWord at *
  by_cases hm : m = 1
  · rw [if_pos hm] at *
    omega
  · rw [if_neg hm] at *
    omega

/-! ### Flags and cycles behind a vector instruction (R94, R179, R229) -/

/-- The effects of a vector instruction outside its core. -/
def vecFx (fl : Flg) (n : Nat) : List Fx := (if fl = 0 then [] else [.flags fl]) ++ [.veBusy n]

@[simp] theorem held_setStream (c : Core) (st : Stream) (x : StreamSt) : (c.setStream st x).held = c.held := by cases st <;> rfl
@[simp] theorem seq_setStream (c : Core) (st : Stream) (x : StreamSt) : (c.setStream st x).seq = c.seq := by cases st <;> rfl

/-- Flags join the stream's word of a run whose core is `c` with the stream `x`, the instruction counted. -/
theorem raiseFlags_c {r : Run} {i : Issue} {c : Core} {x : StreamSt} (hr : r.c = (c.setStream i.st x).took) (hq : i.seq = c.seq) (fl : Flg) :
    (r.raiseFlags i fl).c = (c.setStream i.st (withFlags c i.st x fl)).took := by
  have hx : r.c.stream i.st = x := by rw [hr, stream_took, stream_setStream_self]
  have hw : flagsWaits r.c i.st i.seq = flagsWaits c i.st c.seq := by
    have hh : r.c.held = c.held := by rw [hr]; exact held_setStream ..
    unfold flagsWaits
    rw [hh, hq]
  unfold Run.raiseFlags withFlags
  by_cases hf : fl = 0
  · rw [if_pos hf, if_pos hf, hr]
  · rw [if_neg hf, if_neg hf]
    dsimp only [Run.emit]
    rw [hw, hx, hr, took_setStream, setStream_setStream, hq]

theorem raiseFlags_fx (r : Run) (i : Issue) (fl : Flg) (n : Nat) : ((r.raiseFlags i fl).emit (.veBusy n)).fx = r.fx ++ vecFx fl n := by
  unfold Run.raiseFlags vecFx
  split
  · rfl
  · exact List.append_assoc ..

/-- The state behind flags that join NUM_FLAG_SUM. -/
def State.flagged (s : State) (fl : Flg) : State := if fl = 0 then s else s.rset Reg.numFlagSum (s.rget Reg.numFlagSum ||| fl.zeroExtend 32)

theorem rget_flagged (s : State) (fl : Flg) : (s.flagged fl).rget Reg.numFlagSum = s.rget Reg.numFlagSum ||| fl.zeroExtend 32 := by
  unfold State.flagged
  split
  next h => subst h; exact (BitVec.or_zero ..).symm
  · exact rget_rset_self ..

theorem kept_flagged (s : State) (fl : Flg) : RegsKept s (s.flagged fl) (fun o => o = Reg.numFlagSum) := by
  unfold State.flagged
  split
  · exact fun _ _ => rfl
  · exact kept_rset _ _ _ rfl

theorem flagged_only (s : State) (fl : Flg) : s.flagged fl = { s with regs := (s.flagged fl).regs } := by
  unfold State.flagged
  split <;> rfl

theorem WorkedAs.flagged {s w : State} {p : Nat} {c : Core} (h : WorkedAs s w p c) (v : Nat) (fl : Flg) :
    WorkedAs (s.flagged fl) (w.applyAll p v (if fl = 0 then [] else [.flags fl])) p c := by
  unfold State.flagged
  split
  · exact h
  · obtain ⟨⟨hc, hw, hf⟩, hcore⟩ := h
    change WorkedAs _ (w.rset Reg.numFlagSum (w.rget Reg.numFlagSum ||| fl.zeroExtend 32)) p c
    have hr : w.rget Reg.numFlagSum = s.rget Reg.numFlagSum := by rw [hw]; rfl
    rw [hr]
    refine ⟨⟨hc, ?_, hf⟩, hcore⟩
    rw [hw]
    rfl

/-- What differs from a state with joined flags differs from the state in NUM_FLAG_SUM beside. -/
theorem CoreAndRegs.of_flagged {s t : State} {p : Nat} {fl : Flg} {b : Nat → Prop} (h : CoreAndRegs (s.flagged fl) t p b) :
    CoreAndRegs s t p (fun o => o = Reg.numFlagSum ∨ b o) := by
  obtain ⟨hk, ho⟩ := h
  refine ⟨RegsKept.trans ((kept_flagged s fl).mono fun _ => .inl) (hk.mono fun _ => .inr), ?_⟩
  rw [flagged_only] at ho
  exact ho

theorem pairRose_of_flagged {s t : State} {fl : Flg} {lo n : Nat} (h0 : lo ≠ Reg.numFlagSum) (h4 : lo + 4 ≠ Reg.numFlagSum)
    (h : PairRose (s.flagged fl) t lo n) : PairRose s t lo n := by
  unfold PairRose at h ⊢
  rw [h, rpair_of_kept (kept_flagged s fl) h0 h4]

/-- The issue of a vector instruction, from its core, its flags and its lane cycles. -/
theorem issue_vector {s : State} {i : Iss} {op : IsaOp} {p n : Nat} {fl : Flg} (c : Core) (h : s.canIssue i op p = true) (hq : quietOp op = true)
    (hp : ∀ lim fin, ∃ r, perform (s.ctxOf i.v p) (s.rowBytes i.v) (s.streamOf i p).pc.toNat (s.issueOf p i.st op)
      (.again (s.core p).took prog0 lim fin) = .ok r ∧ r.c = c.took ∧ r.fx = vecFx fl n) :
    ∃ t, exec (cmdOf i op) s = .next t ∧ t.core p = c.goOn i.st ∧ VectorFrame s t p fl n := by
  obtain ⟨a, f, lim, fin, haf, ex⟩ := exec_quiet h hq
  obtain ⟨r, hr, hc, hf⟩ := hp lim fin
  have hw := WorkedAs.flagged (p := p) ⟨onlyCore_atIssue haf r.c, (core_setCore_self ..).trans hc⟩ i.v fl
  obtain ⟨hregs, hrose⟩ := hw.only.bumpPair (Reg.veBusyCycLo p) n
  have hfx : ∀ w : State, w.applyAll p i.v (vecFx fl n) =
      (w.applyAll p i.v (if fl = 0 then [] else [.flags fl])).bumpPair (Reg.veBusyCycLo p) n := fun w => by
    unfold State.applyAll vecFx
    rw [List.foldl_append]
    rfl
  have hne : Reg.veBusyCycLo p ≠ Reg.numFlagSum ∧ Reg.veBusyCycLo p + 4 ≠ Reg.numFlagSum := by
    unfold Reg.veBusyCycLo coreWin Reg.numFlagSum
    omega
  refine ⟨_, (ex r hr).trans (by rw [hf, hfx]), core_next ((core_bumpPair ..).trans hw.core), ?_, ?_, pairRose_of_flagged hne.1 hne.2 hrose⟩
  · exact hregs.next.of_flagged
  · refine Eq.trans (hregs.1 _ ?_) (rget_flagged s fl)
    unfold pairAt
    omega

end Sys2Proof.Machine
end


section
/-! PROOFS. Element-wise vector instructions (R164, R166, R219 to R222): O20. -/

namespace Sys2Proof.Machine

open Sys2Proof

/-! ### One value or nothing for each element (R164) -/

/-- What a job writes at element `k`. -/
def LaneJob.write (j : LaneJob) (k : Nat) : Option Word :=
  if j.pred.getLsbD k then some (j.val k).1 else if j.clear then some 0 else none

theorem vMap_eq (pr : BitVec 1024) (zero : Bool) (n : Nat) (f : Nat → Word × Flg) (m r c : Nat) :
    vMap pr zero n f = ((List.range n).map (LaneJob.write ⟨m, r, n, c, pr, zero, f⟩), LaneJob.flags ⟨m, r, n, c, pr, zero, f⟩) := by
  unfold vMap LaneJob.flags
  dsimp only
  generalize List.range n = ks
  induction ks with
  | nil => rfl
  | cons k ks ih =>
    rw [List.foldr_cons, ih, List.map_cons, List.filter_cons, LaneJob.write]
    by_cases hk : pr.getLsbD k = true
    · rw [if_pos hk, if_pos hk, if_pos hk]
      rfl
    · rw [if_neg hk, if_neg hk, if_neg hk]

/-- A row of values written from element 0 on does what the job says. -/
theorem lanesWritten_setVElems (x : StreamSt) (j : LaneJob) (hn : j.n % perWord j.mode = 0) :
    LanesWritten x (setVElems x j.mode j.reg 0 ((List.range j.n).map j.write)) j := by
  refine ⟨fun k hk => ?_, fun w hw => vword_setVElems_group (by simp) hn x hw⟩
  rw [vElem_setVElems, if_pos (Nat.zero_le k), Nat.sub_zero, List.getD_eq_getElem?_getD, List.getElem?_map, List.getElem?_range hk]
  change ((j.write k).map (elemOf j.mode)).getD _ = _
  unfold LaneJob.write
  split
  · rfl
  · split
    · change elemOf j.mode 0 = 0
      unfold elemOf
      split <;> rfl
    · rfl

/-- The issue of a vector instruction that does a job. -/
theorem issue_lanes {s : State} {i : Iss} {op : IsaOp} {p : Nat} (j : LaneJob) (h : s.canIssue i op p = true) (hq : quietOp op = true)
    (hn : j.n % perWord j.mode = 0)
    (hp : ∀ r : Run, r.c = (s.core p).took → r.old = [] → ∃ r' : Run, r'.c = r.c ∧ r'.fx = r.fx ∧
      perform (s.ctxOf i.v p) (s.rowBytes i.v) (s.streamOf i p).pc.toNat (s.issueOf p i.st op) r =
      .ok (((r'.setElems i.st j.mode j.reg ((List.range j.n).map j.write)).raiseFlags (s.issueOf p i.st op) j.flags).emit (.veBusy j.cycles))) :
    ∃ t, exec (cmdOf i op) s = .next t ∧ LanesDone s t i p j := by
  have hx := setVElems_only j.mode j.reg ((List.range j.n).map j.write) (s.streamOf i p) 0
  obtain ⟨t, ht, hcore, hf⟩ := issue_vector (n := j.cycles) (fl := j.flags) ((s.core p).setStream i.st (withFlags (s.core p) i.st
      (setVElems (s.streamOf i p) j.mode j.reg 0 ((List.range j.n).map j.write)) j.flags)) h hq fun lim fin => by
    obtain ⟨r', hc, hfx, hr⟩ := hp (.again (s.core p).took prog0 lim fin) rfl rfl
    refine ⟨_, hr, raiseFlags_c (i := s.issueOf p i.st op) (c := s.core p) ?_ rfl _, (raiseFlags_fx ..).trans ?_⟩
    · unfold Run.setElems
      rw [hc]
      simp [State.streamOf]
    · exact congrArg (· ++ _) hfx
  refine ⟨t, ht, (setVElems (s.streamOf i p) j.mode j.reg 0 ((List.range j.n).map j.write)).vreg, ?_, ?_, hf⟩
  · rw [← hx]
    exact lanesWritten_setVElems _ j hn
  · rw [← hx]
    exact hcore

/-- Groups fill whole words. -/
theorem vCount_even (g : BitVec 2) (m : Nat) : vCount g m % perWord m = 0 := by
  unfold vCount lanesPerReg perWord
  split <;> omega

theorem vCount_whole (g : BitVec 2) (m d : Nat) : vCount g m % perWord d = 0 := by
  unfold vCount lanesPerReg perWord
  split <;> split <;> omega

theorem stream_of_took {s : State} {i : Iss} {p : Nat} {r : Run} (h : r.c = (s.core p).took) : r.c.stream i.st = s.streamOf i p := by
  rw [h, stream_took, State.streamOf]

/-- A lane instruction. -/
theorem issue_vLane {s : State} {i : Iss} {op : IsaOp} {p : Nat} (f : FmtV) (g : Nat → Word → Word → Word → Word × Flg)
    (h : s.canIssue i op p = true) (hq : quietOp op = true)
    (hp : ∀ r, perform (s.ctxOf i.v p) (s.rowBytes i.v) (s.streamOf i p).pc.toNat (s.issueOf p i.st op) r =
      .ok (vLane g (s.issueOf p i.st op) f r)) :
    ∃ t, exec (cmdOf i op) s = .next t ∧ LanesDone s t i p ⟨f.mode.toNat, f.vd.toNat, vCount f.g f.mode.toNat, gOf f.g, s.predOf i p f.pr, f.zero,
      fun k => g f.mode.toNat (vElem (s.streamOf i p) f.mode.toNat f.va.toNat k) (bElem (s.issueOf p i.st op) f (s.streamOf i p) k)
        (vElem (s.streamOf i p) f.mode.toNat f.vc.toNat k)⟩ := by
  refine issue_lanes _ h hq (vCount_even ..) fun r hr ho => ⟨r, rfl, rfl, (hp r).trans ?_⟩
  unfold vLane
  dsimp only
  rw [vMap_eq _ _ _ _ f.mode.toNat f.vd.toNat (gOf f.g), st_issueOf, stream_of_took hr]
  rfl

/-! ### Expansion (R166, R167) -/

/-- The active elements in front of element `k`. -/
def rankOf (pr : BitVec 1024) (k : Nat) : Nat := ((List.range k).filter (fun h => pr.getLsbD h)).length

theorem rankOf_succ (pr : BitVec 1024) (k : Nat) : rankOf pr (k + 1) = rankOf pr k + if pr.getLsbD k then 1 else 0 := by
  unfold rankOf
  rw [List.range_succ, List.filter_append, List.length_append, List.filter_singleton]
  cases pr.getLsbD k <;> rfl

/-- Values are dealt out by rank. -/
theorem expandElems_eq (pr : BitVec 1024) (zero : Bool) (f : Nat → Option Word) : ∀ n a,
    expandElems pr zero f (rankOf pr a) (List.range' a n) =
      (List.range' a n).map (fun k => if pr.getLsbD k then f (rankOf pr k) else if zero then some 0 else none)
  | 0, _ => rfl
  | n + 1, a => by
    have ih := expandElems_eq pr zero f n (a + 1)
    rw [rankOf_succ] at ih
    rw [List.range'_succ, List.map_cons, expandElems]
    by_cases hp : pr.getLsbD a = true
    · rw [if_pos hp] at ih
      rw [if_pos hp, if_pos hp, ih]
    · rw [if_neg hp] at ih
      rw [if_neg hp, if_neg hp]
      exact congrArg _ ih

theorem expandElems_range (pr : BitVec 1024) (zero : Bool) (f : Nat → Option Word) (n : Nat) : expandElems pr zero f 0 (List.range n) =
    (List.range n).map (fun k => if pr.getLsbD k then f (rankOf pr k) else if zero then some 0 else none) := by
  rw [List.range_eq_range']
  exact expandElems_eq pr zero f n 0

/-- Where no value raises a flag, the job raises none. -/
theorem flags_of_zero (j : LaneJob) (h : ∀ k, (j.val k).2 = 0) : j.flags = 0 := by
  unfold LaneJob.flags
  generalize (List.range j.n).filter (fun k => j.pred.getLsbD k) = ks
  induction ks with
  | nil => rfl
  | cons k ks ih =>
    rw [List.foldr_cons, ih, h]
    rfl

theorem raiseFlags_zero (r : Run) (i : Issue) : r.raiseFlags i 0 = r := if_pos rfl

/-- A mode field is 1 where its number is. -/
theorem mode_one {α : Type} (m : BitVec 2) (x y : α) : (if m.toNat = 1 then x else y) = if m = 1 then x else y :=
  if_congr (by rw [← BitVec.toNat_inj]; rfl) rfl rfl

/-- Settles O20. -/
theorem vectorLanes : Obligations.VectorLanes := by
  unfold Obligations.VectorLanes
  intro s i op p j h hj
  cases op with
  | vadd f => cases hj; exact issue_vLane (op := .vadd f) f laneAdd h rfl fun _ => rfl
  | vsub f => cases hj; exact issue_vLane (op := .vsub f) f laneSub h rfl fun _ => rfl
  | vmul f => cases hj; exact issue_vLane (op := .vmul f) f laneMul h rfl fun _ => rfl
  | vfma f => cases hj; exact issue_vLane (op := .vfma f) f laneFma h rfl fun _ => rfl
  | vmin f => cases hj; exact issue_vLane (op := .vmin f) f laneMin h rfl fun _ => rfl
  | vmax f => cases hj; exact issue_vLane (op := .vmax f) f laneMax h rfl fun _ => rfl
  | vand f => cases hj; exact issue_vLane (op := .vand f) f laneAnd h rfl fun _ => rfl
  | vor f => cases hj; exact issue_vLane (op := .vor f) f laneOr h rfl fun _ => rfl
  | vxor f => cases hj; exact issue_vLane (op := .vxor f) f laneXor h rfl fun _ => rfl
  | vshl f => cases hj; exact issue_vLane (op := .vshl f) f laneShl h rfl fun _ => rfl
  | vshr f => cases hj; exact issue_vLane (op := .vshr f) f laneShr h rfl fun _ => rfl
  | vsra f => cases hj; exact issue_vLane (op := .vsra f) f laneSra h rfl fun _ => rfl
  | vsgn f => cases hj; exact issue_vLane (op := .vsgn f) f (fun m a b _ => laneSgn f.opx.toNat m a b) h rfl fun _ => rfl
  | vsel f =>
    cases hj
    refine issue_lanes (op := .vsel f) _ h rfl (vCount_even ..) fun r hr ho => ⟨r, rfl, rfl, ?_⟩
    change Except.ok (doVsel _ f r) = _
    unfold doVsel
    dsimp only
    rw [vMap_eq _ _ _ _ f.mode.toNat f.vd.toNat (gOf f.g), st_issueOf, stream_of_took hr]
    rfl
  | vxpd f =>
    cases hj
    refine issue_lanes (op := .vxpd f) _ h rfl (vCount_even ..) fun r hr ho => ⟨r, rfl, rfl, ?_⟩
    rw [flags_of_zero _ fun _ => rfl, raiseFlags_zero]
    change Except.ok (doVxpd _ f r) = _
    unfold doVxpd
    dsimp only
    rw [expandElems_range, st_issueOf, stream_of_took hr]
    rfl
  | vcvt f =>
    cases hj
    refine issue_lanes (op := .vcvt f) _ h rfl (vCount_whole ..) fun r hr ho => ⟨r, rfl, rfl, ?_⟩
    change Except.ok (doVcvt _ _ f r) = _
    unfold doVcvt
    dsimp only
    rw [vMap_eq _ _ _ _ (f.opx.toNat % 4) f.vd.toNat (max (gOf f.g) (vcvtRegs f)), st_issueOf, stream_of_took hr]
    rfl
  | vrnd f =>
    cases hj
    obtain ⟨-, -, -, hl, -⟩ := (canIssue_iff s i _ p).mp h
    have hm : f.mode.toNat = 0 := by
      have hl : okVrnd f = true := hl
      simp only [okVrnd, Bool.and_eq_true, beq_iff_eq] at hl
      rw [hl.1.1.1.2]
      rfl
    have hf : BitVec.ofNat 4 (f.opx.toNat % 16) = f.opx.extractLsb' 0 4 := by
      apply BitVec.eq_of_toNat_eq
      simp
    refine issue_lanes (op := .vrnd f) _ h rfl (vCount_whole ..) fun r hr ho => ⟨r, rfl, rfl, ?_⟩
    change Except.ok (doVrnd _ _ f r) = _
    unfold doVrnd
    dsimp only
    rw [vMap_eq _ _ _ _ 0 f.vd.toNat (gOf f.g), st_issueOf, stream_of_took hr, hm, hf]
    rfl
  | vtr f =>
    cases hj
    refine issue_lanes (op := .vtr f) _ h rfl (vCount_whole ..) fun r hr ho => ⟨r, rfl, rfl, ?_⟩
    change Except.ok (doVtr _ f r) = _
    unfold doVtr
    dsimp only
    rw [vMap_eq _ _ _ _ 0 f.vd.toNat (trCycles (trFnOf f.opx.toNat) * (if f.mode.toNat = 1 then 2 * gOf f.g else gOf f.g)), st_issueOf,
      stream_of_took hr]
    simp only [mode_one]
    rfl
  | _ => cases hj

end Sys2Proof.Machine
end


section
/-! PROOFS. VCMP, VRED and VCPR (R166, R219, R223): O21. -/

namespace Sys2Proof.Machine

open Sys2Proof

/-! ### Bits from a row of conditions (R219) -/

/-- The number whose bit `k` below `n` is `b k`. -/
def bitSum (b : Nat → Bool) (n : Nat) : Nat := (List.range n).foldl (fun w k => if b k then w + 2 ^ k else w) 0

theorem bitSum_succ (b : Nat → Bool) (n : Nat) : bitSum b (n + 1) = if b n then bitSum b n + 2 ^ n else bitSum b n := by
  unfold bitSum
  rw [List.range_succ, List.foldl_append]
  rfl

theorem bitSum_lt (b : Nat → Bool) : ∀ n, bitSum b n < 2 ^ n
  | 0 => Nat.one_pos
  | n + 1 => by
    have ih := bitSum_lt b n
    rw [bitSum_succ, Nat.pow_succ]
    split <;> omega

theorem testBit_bitSum (b : Nat → Bool) : ∀ n k, (bitSum b n).testBit k = (decide (k < n) && b k)
  | 0, k => by simp [bitSum]
  | n + 1, k => by
    have ih := testBit_bitSum b n k
    rw [bitSum_succ]
    rcases Nat.lt_trichotomy k n with h | h | h
    · have hk : (if b n then bitSum b n + 2 ^ n else bitSum b n).testBit k = (bitSum b n).testBit k := by
        split
        · rw [Nat.add_comm, Nat.testBit_two_pow_add_gt h]
        · rfl
      rw [hk, ih]
      simp [h, Nat.lt_succ_of_lt h]
    · subst h
      have hz : (bitSum b k).testBit k = false := Nat.testBit_lt_two_pow (bitSum_lt b k)
      cases hb : b k
      · simpa using hz
      · simp [Nat.add_comm, Nat.testBit_two_pow_add_eq, hz]
    · have hlt : (if b n then bitSum b n + 2 ^ n else bitSum b n) < 2 ^ k := by
        rw [← bitSum_succ]
        exact (bitSum_lt b (n + 1)).trans_le (Nat.pow_le_pow_right (by decide) h)
      rw [Nat.testBit_lt_two_pow hlt]
      simp [show ¬ k < n + 1 by omega]

theorem getLsbD_firstBits (n k : Nat) : (firstBits n).getLsbD k = (decide (k < 1024) && decide (k < n)) := by
  rw [firstBits, BitVec.getLsbD_ofNat, Nat.testBit_two_pow_sub_one]

/-- A group has at most 1024 elements. -/
theorem vCount_le (g : BitVec 2) (m : Nat) : vCount g m ≤ 1024 := by
  have hg : gOf g ≤ 8 := by
    have := g.isLt
    exact Nat.pow_le_pow_right (j := 3) (by decide) (by omega)
  unfold vCount lanesPerReg
  split <;> omega

/-- A group of registers holds 64 words of each. -/
theorem vCount_words (g : BitVec 2) (m : Nat) : vCount g m / perWord m = 64 * gOf g := by
  unfold vCount lanesPerReg perWord
  split <;> omega

/-! ### VCMP -/

section
variable {s : State} {i : Iss} {f : FmtV} {p : Nat}

/-- The bit that VCMP gives the predicate at an element of its group. -/
def vcmpBit (s : State) (i : Iss) (p : Nat) (f : FmtV) (k : Nat) : Bool :=
  if (s.predOf i p f.pr).getLsbD k then vcmpHolds f.opx.toNat f.mode.toNat (vElem (s.streamOf i p) f.mode.toNat f.va.toNat k)
    (bElem (s.issueOf p i.st (.vcmp f)) f (s.streamOf i p) k)
  else !f.zero && (pget (s.streamOf i p).preg (f.vd.toNat % 8)).getLsbD k

/-- The predicate behind it. -/
def vcmpPred (s : State) (i : Iss) (p : Nat) (f : FmtV) : BitVec 1024 :=
  (pget (s.streamOf i p).preg (f.vd.toNat % 8) &&& ~~~(firstBits (vCount f.g f.mode.toNat))) |||
    BitVec.ofNat 1024 (bitSum (vcmpBit s i p f) (vCount f.g f.mode.toNat))

theorem getLsbD_vcmpPred {k : Nat} (hk : k < 1024) : (vcmpPred s i p f).getLsbD k =
    if vCount f.g f.mode.toNat ≤ k then (pget (s.streamOf i p).preg (f.vd.toNat % 8)).getLsbD k else vcmpBit s i p f k := by
  unfold vcmpPred
  rw [BitVec.getLsbD_or, BitVec.getLsbD_and, BitVec.getLsbD_not, getLsbD_firstBits, BitVec.getLsbD_ofNat, testBit_bitSum]
  by_cases hn : vCount f.g f.mode.toNat ≤ k
  · simp [hk, hn, Nat.not_lt.2 hn]
  · simp [hk, hn, Nat.lt_of_not_le hn]

theorem issue_vcmp (h : s.canIssue i (.vcmp f) p = true) : ∃ t, exec (.vcmp i f) s = .next t ∧
    t.core p = ((s.core p).setStream i.st ((s.streamOf i p).setP (f.vd.toNat % 8) (vcmpPred s i p f))).goOn i.st ∧
    VectorFrame s t p 0 (gOf f.g) := by
  refine issue_vector (op := .vcmp f) _ h rfl fun lim fin => ⟨_, rfl, ?_, rfl⟩
  unfold doVcmp Run.setP
  dsimp only [Run.emit, c_again]
  rw [st_issueOf, stream_took, took_setStream]
  rfl

/-! ### VRED -/

theorem issue_vred (h : s.canIssue i (.vred f) p = true) {r : DWord × Flg} (hr : r = redEval f.opx.toNat f.mode.toNat
      (redLeaves (s.streamOf i p) (s.predOf i p f.pr) f.mode.toNat f.va.toNat (vCount f.g f.mode.toNat))) :
    ∃ t, exec (.vred i f) s = .next t ∧ t.core p = ((s.core p).setStream i.st (withFlags (s.core p) i.st
      ((s.streamOf i p).setS f.ss.toNat r.1) r.2)).goOn i.st ∧ VectorFrame s t p r.2 (gOf f.g) := by
  refine issue_vector (op := .vred f) _ h rfl fun lim fin => ?_
  have hd : doVred (s.issueOf p i.st (.vred f)) f (.again (s.core p).took prog0 lim fin) =
      (((Run.again (s.core p).took prog0 lim fin).setS i.st f.ss.toNat r.1).raiseFlags (s.issueOf p i.st (.vred f)) r.2).emit
        (.veBusy (gOf f.g)) := by
    unfold doVred
    rw [st_issueOf, c_again, stream_took, hr]
    rfl
  refine ⟨_, congrArg Except.ok hd, raiseFlags_c (i := s.issueOf p i.st (.vred f)) (c := s.core p) ?_ rfl _, raiseFlags_fx ..⟩
  unfold Run.setS
  rw [c_again, stream_took, took_setStream]
  rfl

/-! ### VCPR -/

theorem activeElems_eq (x : StreamSt) (pr : BitVec 1024) (m r n : Nat) : activeElems x pr m r n = activeOf x pr m r n := by
  unfold activeElems activeOf
  generalize List.range n = ks
  induction ks with
  | nil => rfl
  | cons k ks ih =>
    rw [List.filterMap_cons, List.filter_cons, ih]
    by_cases hk : pr.getLsbD k = true <;> simp [hk]

theorem length_activeOf_le (x : StreamSt) (pr : BitVec 1024) (m r n : Nat) : (activeOf x pr m r n).length ≤ n := by
  unfold activeOf
  rw [List.length_map]
  exact (List.length_filter_le _ _).trans (by rw [List.length_range])

/-- An element that was read fits an element. -/
theorem elemOf_vElem (x : StreamSt) (m r k : Nat) : elemOf m (vElem x m r k) = vElem x m r k := by
  unfold elemOf vElem
  by_cases hm : m = 1
  · simp only [if_pos hm]
    refine BitVec.eq_of_getLsbD_eq fun j hj => ?_
    split
    · simp [BitVec.getLsbD_and]
    · rw [BitVec.getLsbD_and, BitVec.getLsbD_ushiftRight]
      by_cases h : j < 16
      · rw [show (0xFFFF : Word).getLsbD j = decide (j < 16) from lowMask_bit j, decide_eq_true h, Bool.and_true]
      · rw [BitVec.getLsbD_of_ge _ (16 + j) (by omega), Bool.false_and]
  · simp only [if_neg hm]

/-- What a compressed group reads as. -/
theorem elemOf_activeOf (x : StreamSt) (pr : BitVec 1024) (m r n k : Nat) :
    elemOf m ((activeOf x pr m r n).getD k 0) = (activeOf x pr m r n).getD k 0 := by
  have hz : elemOf m 0 = 0 := by
    unfold elemOf
    split <;> rfl
  rw [List.getD_eq_getElem?_getD]
  rcases hk : (activeOf x pr m r n)[k]? with _ | w
  · exact hz
  · obtain ⟨e, -, rfl⟩ := List.mem_map.1 (List.mem_of_getElem? hk)
    exact elemOf_vElem ..

/-- The active elements, and zeros behind them. -/
def compressed (x : StreamSt) (pr : BitVec 1024) (m r n : Nat) : List (Option Word) :=
  (activeOf x pr m r n ++ List.replicate (n - (activeOf x pr m r n).length) 0).map some

theorem length_compressed (x : StreamSt) (pr : BitVec 1024) (m r n : Nat) : (compressed x pr m r n).length = n := by
  have := length_activeOf_le x pr m r n
  unfold compressed
  rw [List.length_map, List.length_append, List.length_replicate]
  omega

theorem vElem_compressed (x y : StreamSt) (pr : BitVec 1024) {m r n k : Nat} (d : Nat) (hk : k < n) :
    vElem (setVElems x m d 0 (compressed y pr m r n)) m d k = (activeOf y pr m r n).getD k 0 := by
  have hg : (compressed y pr m r n).getD k none = some ((activeOf y pr m r n).getD k 0) := by
    unfold compressed
    rw [List.getD_eq_getElem?_getD, List.getElem?_map, List.getElem?_append, List.getD_eq_getElem?_getD]
    split
    next h => rw [List.getElem?_eq_getElem h]; rfl
    next h =>
      rw [List.getElem?_replicate_of_lt (by omega), List.getElem?_eq_none (by omega)]
      rfl
  rw [vElem_setVElems, if_pos (Nat.zero_le k), Nat.sub_zero, hg]
  exact elemOf_activeOf ..

theorem issue_vcpr (h : s.canIssue i (.vcpr f) p = true) : ∃ t, exec (.vcpr i f) s = .next t ∧
    t.core p = ((s.core p).setStream i.st ((setVElems (s.streamOf i p) f.mode.toNat f.vd.toNat 0
      (compressed (s.streamOf i p) (s.predOf i p f.pr) f.mode.toNat f.va.toNat (vCount f.g f.mode.toNat))).setS f.ss.toNat
      (BitVec.ofNat 64 (activeOf (s.streamOf i p) (s.predOf i p f.pr) f.mode.toNat f.va.toNat (vCount f.g f.mode.toNat)).length))).goOn i.st ∧
    VectorFrame s t p 0 (gOf f.g) := by
  refine issue_vector (op := .vcpr f) _ h rfl fun lim fin => ⟨_, rfl, ?_, rfl⟩
  unfold doVcpr Run.setElems Run.setS
  dsimp only [Run.emit, c_again]
  rw [st_issueOf, stream_took, stream_setStream_self, activeElems_eq, took_setStream, took_setStream, setStream_setStream]
  rfl

end

/-- Settles O21. -/
theorem vectorResults : Obligations.VectorResults := by
  unfold Obligations.VectorResults
  intro s i f p x m n pr
  refine ⟨fun h => ?_, fun h => ?_, fun h => ?_⟩
  · obtain ⟨t, ht, hcore, hf⟩ := issue_vcmp h
    exact ⟨t, _, ht, hf, hcore, fun k hk => getLsbD_vcmpPred hk⟩
  · intro leaf r
    have hr : r = redEval f.opx.toNat m (redLeaves x pr m f.va.toNat n) := rfl
    clear_value r
    obtain ⟨t, ht, hcore, hf⟩ := issue_vred h hr
    exact ⟨t, ht, hf, hcore⟩
  · obtain ⟨t, ht, hcore, hf⟩ := issue_vcpr h
    rw [setVElems_only] at hcore
    refine ⟨t, _, ht, hf, hcore, fun k hk => ?_, fun w hw => ?_⟩
    · rw [← setVElems_only]
      exact vElem_compressed _ _ _ _ hk
    · rw [← setVElems_only]
      refine vword_setVElems_group (length_compressed ..) (vCount_even ..) _ ?_
      rwa [vCount_words, ← Nat.mul_add]

end Sys2Proof.Machine
end


section
/-! PROOFS. VCPST and VXPLD (R167, R224): O23. -/

namespace Sys2Proof.Machine

open Sys2Proof

theorem setStream_stream_cm (c : Core) (m : List Host.Cell) (st : Stream) :
    Core.setStream { c with cm := m } st (c.stream st) = { c with cm := m } := by
  cases st <;> rfl

/-! ### Accesses that meet no HANDOFF region -/

section
variable {x : Ctx} {q : Issue} {f : Option Fmt} {eng off : Nat}

theorem read_same {len : Nat} (r : Run) (ho : r.old = []) (h : Plain x off len) :
    ∃ r', r.read x q f eng off len = .ok (bytesAt r.c.cm off len, r') ∧ SameWork r r' :=
  ⟨_, read_plain r ho h, rfl, rfl, ho⟩

theorem write_same {bs : List (Option Byte)} (r : Run) (ho : r.old = []) (h : Plain x off bs.length) :
    ∃ r', r.write x q f eng off bs = .ok r' ∧ SameWork { r with c := { r.c with cm := writeBytes r.c.cm off bs } } r' :=
  ⟨_, write_plain r ho h, rfl, rfl, ho⟩

/-- Successive accesses read what stands. -/
theorem readRuns_same (rs : List (Nat × Nat)) : ∀ (r : Run), r.old = [] → (∀ a ∈ rs, Plain x a.1 a.2) →
    ∃ r', readRuns x q f eng rs r = .ok (rs.flatMap (fun a => bytesAt r.c.cm a.1 a.2), r') ∧ SameWork r r' := by
  induction rs with
  | nil => exact fun r ho _ => ⟨r, rfl, rfl, rfl, ho⟩
  | cons a rs ih =>
    intro r ho h
    obtain ⟨off, len⟩ := a
    obtain ⟨r₁, hr, hs⟩ := read_same (q := q) (f := f) (eng := eng) r ho (h (off, len) List.mem_cons_self)
    obtain ⟨r₂, hr', hs'⟩ := ih r₁ hs.fresh (fun a ha => h a (List.mem_cons_of_mem _ ha))
    refine ⟨r₂, ?_, hs.trans hs'⟩
    rw [hs.core] at hr'
    simp only [readRuns, hr, hr', bind, Except.bind, List.flatMap_cons]
    rfl

end

section
variable {s : State} {i : Iss} {f : FmtVB} {p : Nat}

/-- The scalars of the buffer behind a count of elements. -/
theorem bufScalars_c {r : Run} {q : Issue} {c : Core} {x : StreamSt} (n : Nat) (hq : q.st = i.st) (hs : ∀ k, q.s k = s.scalarOf i p k)
    (hr : r.c = (c.setStream i.st x).took) : (r.bufScalars q f n).c = (c.setStream i.st (bufferScalars s i p f n x)).took := by
  unfold Run.bufScalars bufAdvance bufferScalars Run.setS
  dsimp only
  simp only [hq, hs, hr, stream_took, stream_setStream_self, took_setStream, setStream_setStream]

theorem bufScalars_fx (r : Run) (q : Issue) (n : Nat) : (r.bufScalars q f n).fx = r.fx := rfl

theorem length_flatMap_leBytes (sz : Nat) (ws : List Word) : (ws.flatMap (fun w => leBytes sz w.toNat)).length = sz * ws.length := by
  induction ws with
  | nil => rfl
  | cons w ws ih =>
    rw [List.flatMap_cons, List.length_append, ih, length_leBytes, List.length_cons, Nat.mul_succ, Nat.add_comm]

theorem bytesAt_slice (m : List Host.Cell) (off : Nat) {n a k : Nat} (h : a + k ≤ n) :
    ((bytesAt m off n).drop a).take k = bytesAt m (off + a) k := by
  obtain ⟨d, rfl⟩ := Nat.exists_eq_add_of_le h
  rw [Nat.add_assoc, bytesAt_add, List.drop_left' (length_bytesAt ..), bytesAt_add, List.take_left' (length_bytesAt ..)]

theorem leNat_lt : ∀ bs : List Byte, leNat bs < 2 ^ (8 * bs.length)
  | [] => Nat.one_pos
  | b :: bs => by
    have ih := leNat_lt bs
    have hb := b.isLt
    rw [List.length_cons, Nat.mul_succ, Nat.pow_add, leNat]
    omega

/-- Elements of a buffer fit an element of a register. -/
theorem elemOf_leNat {m : Nat} {bs : List Byte} (h : bs.length = bufSize m) :
    elemOf m (BitVec.ofNat 32 (leNat bs)) = BitVec.ofNat 32 (leNat bs) := by
  unfold elemOf
  split
  next hm =>
    have hlt := leNat_lt bs
    rw [h, bufSize, if_pos hm] at hlt
    apply BitVec.eq_of_toNat_eq
    rw [BitVec.toNat_and]
    change (BitVec.ofNat 32 (leNat bs)).toNat &&& (2 ^ 16 - 1) = _
    rw [Nat.and_two_pow_sub_one_eq_mod, BitVec.toNat_ofNat]
    omega
  · rfl

/-- The active elements of the buffered group. -/
def bufActive (s : State) (i : Iss) (p : Nat) (f : FmtVB) : List Word :=
  activeOf (s.streamOf i p) (s.predOf i p f.pr) f.mode.toNat f.vr.toNat (vCount f.g f.mode.toNat)

/-- The elements that the buffer's capacity lets through. -/
def bufRoom (s : State) (i : Iss) (p : Nat) (f : FmtVB) : Nat :=
  min (bufActive s i p f).length ((s.scalarOf i p f.scap).toNat - (s.scalarOf i p f.sn).toNat)

/-- Where the buffer goes on. -/
def bufOff (s : State) (i : Iss) (p : Nat) (f : FmtVB) : Nat :=
  refOff (s.scalarOf i p f.sa) + bufSize f.mode.toNat * (s.scalarOf i p f.sn).toNat

theorem length_bufActive : (bufActive s i p f).length = popCount (s.predOf i p f.pr) (vCount f.g f.mode.toNat) := by
  unfold bufActive activeOf
  rw [List.length_map, popCount]

theorem length_bufBytes : (((bufActive s i p f).take (bufRoom s i p f)).flatMap (fun w => leBytes (bufSize f.mode.toNat) w.toNat)).length =
    bufSize f.mode.toNat * bufRoom s i p f := by
  rw [length_flatMap_leBytes, List.length_take, Nat.min_eq_left (show bufRoom s i p f ≤ _ from Nat.min_le_left ..)]

section
variable {x : Ctx} {q : Issue} {r : Run} (ho : r.old = []) (hc : cmOk x (q.s f.sa) (bufSize f.mode.toNat * (q.s f.scap).toNat) true 64 = true)
include ho hc

theorem doVcpst_plain {bs : List Byte} (hp : Plain x (refOff (q.s f.sa) + bufSize f.mode.toNat * (q.s f.sn).toNat) bs.length)
    {ws : List Word} (hw : ws = activeElems (r.c.stream q.st) (q.p f.pr) f.mode.toNat f.vr.toNat (vCount f.g f.mode.toNat))
    (hb : bs = (ws.take ((q.s f.scap).toNat - (q.s f.sn).toNat)).flatMap (fun v => leBytes (bufSize f.mode.toNat) v.toNat)) :
    ∃ r' : Run, doVcpst x q f r = .ok ((r'.bufScalars q f ws.length).emit (.veBusy (gOf f.g))) ∧ r'.fx = r.fx ∧ r'.c = { r.c with
      cm := setBytes r.c.cm (refOff (q.s f.sa) + bufSize f.mode.toNat * (q.s f.sn).toNat) bs } := by
  obtain ⟨r', hwr, hs⟩ := write_same (q := q) (f := some (bufFmt f.mode.toNat)) (eng := 0) (bs := bs.map some) r ho (by rwa [List.length_map])
  rw [writeBytes_some] at hs
  refine ⟨r', ?_, hs.fx, hs.core⟩
  unfold doVcpst
  dsimp only
  rw [if_pos hc, ← hw, ← hb, hwr]
  rfl

theorem doVxpld_plain {k : Nat} (hk : k = min (popCount (q.p f.pr) (vCount f.g f.mode.toNat)) ((q.s f.scap).toNat - (q.s f.sn).toNat))
    (hp : Plain x (refOff (q.s f.sa) + bufSize f.mode.toNat * (q.s f.sn).toNat) (bufSize f.mode.toNat * k)) :
    ∃ r' : Run, doVxpld x q f r = .ok (((r'.setElems q.st f.mode.toNat f.vr.toNat (expandElems (q.p f.pr) false
      (fun j => if j < k then some (BitVec.ofNat 32 (leNat (((bytesAt r.c.cm (refOff (q.s f.sa) + bufSize f.mode.toNat * (q.s f.sn).toNat)
        (bufSize f.mode.toNat * k)).drop (bufSize f.mode.toNat * j)).take (bufSize f.mode.toNat)))) else none)
      0 (List.range (vCount f.g f.mode.toNat)))).bufScalars q f (popCount (q.p f.pr) (vCount f.g f.mode.toNat))).emit (.veBusy (gOf f.g))) ∧
      r'.fx = r.fx ∧ r'.c = r.c := by
  obtain ⟨r', hrd, hs⟩ := read_same (q := q) (f := some (bufFmt f.mode.toNat)) (eng := 0) r ho hp
  refine ⟨r', ?_, hs.fx, hs.core⟩
  unfold doVxpld
  dsimp only
  rw [if_pos hc, ← hk, hrd]
  rfl

end

/-- What VXPLD writes at element `k`: the buffer's next element, where it is active and the buffer holds one. -/
def bufDealt (s : State) (i : Iss) (p : Nat) (f : FmtVB) (k : Nat) : Option Word :=
  if (s.predOf i p f.pr).getLsbD k ∧ rankOf (s.predOf i p f.pr) k < bufRoom s i p f then some (BitVec.ofNat 32 (leNat (bytesAt (s.core p).cm
    (bufOff s i p f + bufSize f.mode.toNat * rankOf (s.predOf i p f.pr) k) (bufSize f.mode.toNat)))) else none

theorem bufDealt_slice (s : State) (i : Iss) (p : Nat) (f : FmtVB) (k : Nat) : (if (s.predOf i p f.pr).getLsbD k then
      (if rankOf (s.predOf i p f.pr) k < bufRoom s i p f then some (BitVec.ofNat 32 (leNat (((bytesAt (s.core p).cm (bufOff s i p f)
        (bufSize f.mode.toNat * bufRoom s i p f)).drop (bufSize f.mode.toNat * rankOf (s.predOf i p f.pr) k)).take
          (bufSize f.mode.toNat)))) else none)
    else if false then some 0 else none) = bufDealt s i p f k := by
  unfold bufDealt
  by_cases hp : (s.predOf i p f.pr).getLsbD k = true
  · by_cases hr : rankOf (s.predOf i p f.pr) k < bufRoom s i p f
    · rw [if_pos hp, if_pos hr, if_pos ⟨hp, hr⟩, bytesAt_slice]
      rw [← Nat.mul_succ]
      exact Nat.mul_le_mul_left _ hr
    · rw [if_pos hp, if_neg hr, if_neg fun h => hr h.2]
  · rw [if_neg hp, if_neg Bool.false_ne_true, if_neg fun h => hp h.1]

section
variable (hc : cmOk (s.ctxOf i.v p) (s.scalarOf i p f.sa) (bufSize f.mode.toNat * (s.scalarOf i p f.scap).toNat) true 64 = true)
  (hp : Plain (s.ctxOf i.v p) (bufOff s i p f) (bufSize f.mode.toNat * bufRoom s i p f))
include hc hp

theorem issue_vcpst (h : s.canIssue i (.vcpst f) p = true) : ∃ t, exec (.vcpst i f) s = .next t ∧
    t.core p = (Core.setStream { s.core p with
      cm := setBytes (s.core p).cm (bufOff s i p f)
        (((bufActive s i p f).take (bufRoom s i p f)).flatMap (fun w => leBytes (bufSize f.mode.toNat) w.toNat)) } i.st
      (bufferScalars s i p f (bufActive s i p f).length (s.streamOf i p))).goOn i.st ∧ VectorFrame s t p 0 (gOf f.g) := by
  have htake : (bufActive s i p f).take (bufRoom s i p f) =
      (bufActive s i p f).take ((s.scalarOf i p f.scap).toNat - (s.scalarOf i p f.sn).toNat) := by
    rw [bufRoom, Nat.min_comm, ← List.take_take, List.take_length]
  refine issue_vector (op := .vcpst f) _ h rfl fun lim fin => ?_
  obtain ⟨r', hr, hfx, hcore⟩ := doVcpst_plain (q := s.issueOf p i.st (.vcpst f)) (r := .again (s.core p).took prog0 lim fin) rfl hc
    (bs := ((bufActive s i p f).take (bufRoom s i p f)).flatMap (fun w => leBytes (bufSize f.mode.toNat) w.toNat))
    (by rw [length_bufBytes]; exact hp) (ws := bufActive s i p f) (by rw [activeElems_eq, st_issueOf, c_again, stream_took]; rfl) (by rw [htake]; rfl)
  refine ⟨_, hr, bufScalars_c (i := i) (x := s.streamOf i p) _ rfl (fun _ => rfl) ?_, congrArg (· ++ _) hfx⟩
  exact hcore.trans (congrArg Core.took (setStream_stream_cm (s.core p) _ i.st)).symm

theorem issue_vxpld (h : s.canIssue i (.vxpld f) p = true) : ∃ t, exec (.vxpld i f) s = .next t ∧
    t.core p = ((s.core p).setStream i.st (bufferScalars s i p f (bufActive s i p f).length
      (setVElems (s.streamOf i p) f.mode.toNat f.vr.toNat 0 ((List.range (vCount f.g f.mode.toNat)).map (bufDealt s i p f))))).goOn i.st ∧
    VectorFrame s t p 0 (gOf f.g) := by
  refine issue_vector (op := .vxpld f) _ h rfl fun lim fin => ?_
  obtain ⟨r', hr, hfx, hcore⟩ := doVxpld_plain (q := s.issueOf p i.st (.vxpld f)) (r := .again (s.core p).took prog0 lim fin) rfl hc
    (k := bufRoom s i p f) (by rw [bufRoom, length_bufActive]; rfl) hp
  rw [expandElems_range] at hr
  have hd := List.map_congr_left (l := List.range (vCount f.g f.mode.toNat)) fun k _ => bufDealt_slice s i p f k
  refine ⟨_, hr.trans (congrArg (fun vs => Except.ok (((r'.setElems i.st f.mode.toNat f.vr.toNat vs).bufScalars (s.issueOf p i.st (.vxpld f)) f
    (popCount (s.predOf i p f.pr) (vCount f.g f.mode.toNat))).emit (.veBusy (gOf f.g)))) hd), ?_, congrArg (· ++ _) hfx⟩
  rw [length_bufActive]
  refine bufScalars_c (i := i) _ rfl (fun _ => rfl) ?_
  unfold Run.setElems
  rw [hcore, c_again, stream_took, took_setStream]
  rfl

end

end

/-- Settles O23. -/
theorem compressBuffer : Obligations.CompressBuffer := by
  unfold Obligations.CompressBuffer
  intro s i f p x m sz cap pos off pr act kk rank hc hp
  refine ⟨fun h => ?_, fun h => ?_⟩
  · obtain ⟨t, ht, hcore, hf⟩ := issue_vcpst hc hp h
    have hm := bytesAt_setBytes_self (s.core p).cm off ((act.take kk).flatMap (fun w => leBytes sz w.toNat))
    refine ⟨t, _, ht, hf, hcore, hm, bytesKept_setBytes length_bufBytes⟩
  · obtain ⟨t, ht, hcore, hf⟩ := issue_vxpld hc hp h
    rw [setVElems_only] at hcore
    refine ⟨t, _, ht, hf, hcore, fun k hk => ?_, fun w hw => ?_⟩
    · rw [← setVElems_only, vElem_setVElems, if_pos (Nat.zero_le k), Nat.sub_zero, List.getD_eq_getElem?_getD, List.getElem?_map,
        List.getElem?_range hk]
      change ((bufDealt s i p f k).map (elemOf m)).getD (vElem x m f.vr.toNat k) = _
      unfold bufDealt
      by_cases hr : (s.predOf i p f.pr).getLsbD k = true ∧ rankOf (s.predOf i p f.pr) k < bufRoom s i p f
      · rw [if_pos hr]
        refine Eq.trans ?_ (if_pos hr).symm
        exact elemOf_leNat (length_bytesAt ..)
      · rw [if_neg hr]
        exact (if_neg hr).symm
    · rw [← setVElems_only]
      refine vword_setVElems_group (n := vCount f.g m) (by simp [m]) (vCount_even ..) _ ?_
      rwa [vCount_words, ← Nat.mul_add]

end Sys2Proof.Machine
end


section
/-! PROOFS. VLD and packed elements in memory (R85, R225, R226). -/

namespace Sys2Proof.Machine

open Sys2Proof

/-! ### Packed elements as bits of bytes (R85) -/

/-- Bit `b` of a row of bytes, little-endian. -/
theorem testBit_leNat : ∀ (bs : List Byte) (b : Nat), (leNat bs).testBit b = (bs.getD (b / 8) 0).getLsbD (b % 8)
  | [], b => by simp [leNat]
  | x :: bs, b => by
    have ih := testBit_leNat bs
    rw [leNat, Nat.add_comm, show (256 : Nat) = 2 ^ 8 from rfl, Nat.testBit_two_pow_mul_add _ x.isLt]
    by_cases h : b < 8
    · rw [if_pos h, Nat.div_eq_of_lt h, Nat.mod_eq_of_lt h]
      rfl
    · rw [if_neg h, ih, show b / 8 = (b - 8) / 8 + 1 by omega, show b % 8 = (b - 8) % 8 by omega]
      rfl

/-- Bit `j` of packed element `k`. -/
theorem getLsbD_packedElem (f : Fmt) (bs : List Byte) (k j : Nat) : (packedElem f bs k).getLsbD j =
    (decide (j < 32) && (decide (j < f.width) && (bs.getD ((f.width * k + j) / 8) 0).getLsbD ((f.width * k + j) % 8))) := by
  rw [packedElem, bitsAt, BitVec.getLsbD_ofNat, Nat.testBit_mod_two_pow, Nat.testBit_shiftRight, testBit_leNat]

theorem width_le (f : Fmt) : f.width ≤ 32 := by cases f <;> decide

/-- Packed elements that agree in their bits agree. -/
theorem packedElem_ext {f : Fmt} {bs : List Byte} {k : Nat} {v : Word} (hv : ∀ j, f.width ≤ j → v.getLsbD j = false)
    (h : ∀ j, j < f.width → (bs.getD ((f.width * k + j) / 8) 0).getLsbD ((f.width * k + j) % 8) = v.getLsbD j) : packedElem f bs k = v := by
  refine BitVec.eq_of_getLsbD_eq fun j hj => ?_
  rw [getLsbD_packedElem]
  by_cases hw : j < f.width
  · rw [h j hw]
    simp [hj, hw]
  · simp [hw, hv j (Nat.not_lt.1 hw)]

/-! ### The registers of a group in memory (R225) -/

/-- The bytes of one register of packed elements. -/
theorem packedBytes_regs (f : Fmt) (m g : Nat) : packedBytes f (g * lanesPerReg m) = g * packedBytes f (lanesPerReg m) := by
  have h : ∃ c, f.width * lanesPerReg m = 8 * c := by
    unfold lanesPerReg
    split
    · exact ⟨16 * f.width, by omega⟩
    · exact ⟨8 * f.width, by omega⟩
  obtain ⟨c, hc⟩ := h
  unfold packedBytes
  rw [Nat.mul_assoc, Nat.mul_comm _ f.width, hc]
  rw [show g * (8 * c) = 8 * (g * c) by rw [Nat.mul_left_comm]]
  rw [show (8 * (g * c) + 7) / 8 = g * c by omega, show (8 * c + 7) / 8 = c by omega]

theorem flatMap_bytesAt (m : List Host.Cell) (off per : Nat) : ∀ g,
    (List.range g).flatMap (fun j => bytesAt m (off + per * j) per) = bytesAt m off (g * per)
  | 0 => by simp [bytesAt]
  | g + 1 => by
    rw [List.range_succ, List.flatMap_append, flatMap_bytesAt m off per g, List.flatMap_singleton, Nat.succ_mul, bytesAt_add, Nat.mul_comm g]

/-! ### VLD (R226) -/

theorem flags_congr {j j' : LaneJob} (hn : j.n = j'.n) (hp : j.pred = j'.pred) (h : ∀ k < j.n, j.val k = j'.val k) : j.flags = j'.flags := by
  unfold LaneJob.flags
  rw [← hn, ← hp]
  refine List.foldr_ext _ _ _ fun k hk a => ?_
  rw [h k (List.mem_range.1 (List.mem_filter.1 hk).1)]

theorem write_congr {j j' : LaneJob} {k : Nat} (hp : j.pred = j'.pred) (hc : j.clear = j'.clear) (h : j.val k = j'.val k) : j.write k = j'.write k := by
  unfold LaneJob.write
  rw [hp, hc, h]

/-- The scale of a block of 32, as a list holds it and as it lies in memory. -/
theorem scale_getD (m : List Host.Cell) (off : Nat) {n k : Nat} (h : k / 32 < n) : (bytesAt m off n).getD (k / 32) 0 = byteAt m (off + k / 32) := by
  rw [bytesAt_eq_map, List.getD_eq_getElem?_getD, List.getElem?_map, List.getElem?_range h]
  rfl

theorem vmemOk_good {x : Ctx} {q : Issue} {f : FmtVM} {n : Nat} {g : Fmt} (ha : cmOk x (q.s f.sa) (packedBytes g n) true (alignOf g) = true)
    (hs : f.mx = true → cmOk x (q.s f.ssc) (n / 32) true 1 = true) : vmemOk x q f g n = (true, 0) := by
  unfold vmemOk
  dsimp only
  rw [ha, if_neg (by simp)]
  cases hm : f.mx with
  | false => rfl
  | true => rw [hs hm]; rfl

/-- The runs of a group's registers meet no HANDOFF region. -/
theorem runs_plain {x : Ctx} {f : Fmt} {off m g : Nat} (ha : Plain x off (packedBytes f (g * lanesPerReg m))) :
    ∀ j < g, Plain x (off + packedBytes f (lanesPerReg m) * j) (packedBytes f (lanesPerReg m)) := by
  intro j hj
  refine ha.sub (Nat.le_add_right _ _) ?_
  have hle : packedBytes f (lanesPerReg m) * (j + 1) ≤ packedBytes f (lanesPerReg m) * g := Nat.mul_le_mul_left _ hj
  rw [packedBytes_regs, Nat.mul_comm g]
  rw [Nat.mul_succ] at hle
  omega

/-- Every element has its block. -/
theorem block_lt {g : BitVec 2} {m k : Nat} (hk : k < vCount g m) : k / 32 < vCount g m / 32 := by
  unfold vCount lanesPerReg at *
  split at hk <;> split <;> omega

/-- The elements of a load, from the bytes in memory and a scale for each. -/
def loadJob (q : Issue) (f : FmtVM) (cm : List Host.Cell) (scale : Nat → Option Byte) : LaneJob :=
  ⟨f.mode.toNat, f.vr.toNat, vCount f.g f.mode.toNat, gOf f.g, q.p f.pr, f.zero, fun k => vldElem f.mode.toNat (formatOf f.fmt)
    (packedElem (formatOf f.fmt) (bytesAt cm (refOff (q.s f.sa)) (packedBytes (formatOf f.fmt) (vCount f.g f.mode.toNat))) k) (scale k)⟩

/-- The scale of each element, as it lies in memory. -/
def scaleAt (q : Issue) (f : FmtVM) (cm : List Host.Cell) (k : Nat) : Option Byte :=
  if f.mx then some (byteAt cm (refOff (q.s f.ssc) + k / 32)) else none

theorem bind_ite {α β ε : Type} (c : Bool) (a b : Except ε α) (k : α → Except ε β) :
    (if c = true then a >>= k else b >>= k) = (if c = true then a else b) >>= k := by
  cases c <;> rfl

theorem doVld_plain {x : Ctx} {q : Issue} {f : FmtVM} {r : Run} (ho : r.old = [])
    (hok : vmemOk x q f (formatOf f.fmt) (vCount f.g f.mode.toNat) = (true, 0))
    (ha : Plain x (refOff (q.s f.sa)) (packedBytes (formatOf f.fmt) (vCount f.g f.mode.toNat)))
    (hs : f.mx = true → Plain x (refOff (q.s f.ssc)) (vCount f.g f.mode.toNat / 32)) (j : LaneJob) (hj : j = loadJob q f r.c.cm (scaleAt q f r.c.cm)) :
    ∃ r' : Run, r'.c = r.c ∧ r'.fx = r.fx ∧ doVld x q f r =
      .ok (((r'.setElems q.st j.mode j.reg ((List.range j.n).map j.write)).raiseFlags q j.flags).emit (.veBusy j.cycles)) := by
  have hsc : ∃ sc r₁, (if f.mx then r.read x q (some .e8m0) 0 (refOff (q.s f.ssc)) (vCount f.g f.mode.toNat / 32) else .ok ([], r)) = .ok (sc, r₁) ∧
      SameWork r r₁ ∧ (f.mx = true → sc = bytesAt r.c.cm (refOff (q.s f.ssc)) (vCount f.g f.mode.toNat / 32)) := by
    cases hm : f.mx with
    | false => exact ⟨[], r, rfl, ⟨rfl, rfl, ho⟩, nofun⟩
    | true =>
      obtain ⟨r₁, hr, hw⟩ := read_same (q := q) (f := some .e8m0) (eng := 0) r ho (hs hm)
      exact ⟨_, r₁, hr, hw, fun _ => rfl⟩
  obtain ⟨sc, r₁, hr₁, hw₁, hsc⟩ := hsc
  obtain ⟨r₂, hr₂, hw₂⟩ := readRuns_same (q := q) (f := some (formatOf f.fmt)) (eng := 0) ((List.range (gOf f.g)).map (fun j =>
      (refOff (q.s f.sa) + packedBytes (formatOf f.fmt) (lanesPerReg f.mode.toNat) * j, packedBytes (formatOf f.fmt) (lanesPerReg f.mode.toNat))))
    r₁ hw₁.fresh (by
      intro a hm
      obtain ⟨j, hj, rfl⟩ := List.mem_map.1 hm
      exact runs_plain ha j (List.mem_range.1 hj))
  rw [List.flatMap_map, flatMap_bytesAt, ← packedBytes_regs, hw₁.core] at hr₂
  have hscale : ∀ k < vCount f.g f.mode.toNat, (if f.mx then some (sc.getD (k / 32) 0) else none) = scaleAt q f r.c.cm k := by
    intro k hk
    unfold scaleAt
    cases hm : f.mx with
    | false => rfl
    | true => rw [if_pos rfl, if_pos rfl, hsc hm, scale_getD _ _ (block_lt hk)]
  have hval : ∀ k < vCount f.g f.mode.toNat, (loadJob q f r.c.cm (fun k => if f.mx then some (sc.getD (k / 32) 0) else none)).val k =
      (loadJob q f r.c.cm (scaleAt q f r.c.cm)).val k := fun k hk => congrArg (vldElem _ _ _) (hscale k hk)
  refine ⟨r₂, hw₂.core.trans hw₁.core, hw₂.fx.trans hw₁.fx, ?_⟩
  unfold doVld
  dsimp only
  change (match vmemOk x q f (formatOf f.fmt) (vCount f.g f.mode.toNat) with | (false, d) => _ | (true, _) => _) = _
  rw [hok]
  have hmap : (List.range (vCount f.g f.mode.toNat)).map (loadJob q f r.c.cm (fun k => if f.mx then some (sc.getD (k / 32) 0) else none)).write =
      (List.range (vCount f.g f.mode.toNat)).map (loadJob q f r.c.cm (scaleAt q f r.c.cm)).write :=
    List.map_congr_left fun k hk => write_congr rfl rfl (hval k (List.mem_range.1 hk))
  have hfl := flags_congr (j := loadJob q f r.c.cm (fun k => if f.mx then some (sc.getD (k / 32) 0) else none))
    (j' := loadJob q f r.c.cm (scaleAt q f r.c.cm)) rfl rfl hval
  refine (bind_ite ..).trans ?_
  rw [hr₁]
  change (readRuns x q (some (formatOf f.fmt)) 0 ((List.range (gOf f.g)).map (fun j =>
    (refOff (q.s f.sa) + packedBytes (formatOf f.fmt) (lanesPerReg f.mode.toNat) * j, packedBytes (formatOf f.fmt) (lanesPerReg f.mode.toNat))))
    r₁ >>= _) = _
  rw [hr₂]
  rw [hj, ← hfl]
  change _ = Except.ok (((r₂.setElems q.st _ _ ((List.range (vCount f.g f.mode.toNat)).map _)).raiseFlags q _).emit _)
  rw [← hmap]
  change Except.ok (((r₂.setElems q.st _ _ (vMap (q.p f.pr) f.zero (vCount f.g f.mode.toNat) _).1).raiseFlags q
    (vMap (q.p f.pr) f.zero (vCount f.g f.mode.toNat) _).2).emit _) = _
  rw [vMap_eq _ _ _ _ f.mode.toNat f.vr.toNat (gOf f.g)]
  rfl

/-- VLD from own memory outside HANDOFF regions. -/
theorem issue_vld {s : State} {i : Iss} {f : FmtVM} {p : Nat} (h : s.canIssue i (.vld f) p = true)
    (ha : s.plainRef i p (s.scalarOf i p f.sa) (packedBytes (formatOf f.fmt) (vCount f.g f.mode.toNat)) (alignOf (formatOf f.fmt)))
    (hs : f.mx = true → s.plainRef i p (s.scalarOf i p f.ssc) (vCount f.g f.mode.toNat / 32) 1) :
    ∃ t, exec (.vld i f) s = .next t ∧ LanesDone s t i p (vldJob s i p f) := by
  refine issue_lanes (op := .vld f) _ h rfl (vCount_even ..) fun r hr ho => ?_
  have hcm : r.c.cm = (s.core p).cm := by rw [hr]; rfl
  exact doVld_plain (q := s.issueOf p i.st (.vld f)) ho (vmemOk_good ha.1 fun hm => (hs hm).1) ha.2 (fun hm => (hs hm).2) _ (by rw [hcm]; rfl)

end Sys2Proof.Machine
end


section
/-! PROOFS. Packed elements written to memory (R85, R227). -/

namespace Sys2Proof.Machine

open Sys2Proof

/-! ### The bytes of packed elements (R85) -/

theorem getD_leBytes : ∀ (n v b : Nat), (leBytes n v).getD b 0 = if b < n then BitVec.ofNat 8 (v >>> (8 * b)) else 0
  | 0, v, b => by simp [leBytes]
  | n + 1, v, 0 => by simp [leBytes]
  | n + 1, v, b + 1 => by
    rw [leBytes, List.getD_cons_succ, getD_leBytes n (v / 256) b]
    rw [show v / 256 = v >>> 8 from (Nat.shiftRight_eq_div_pow v 8).symm, ← Nat.shiftRight_add, show 8 + 8 * b = 8 * (b + 1) by omega]
    simp only [Nat.succ_lt_succ_iff]

/-- Bit `t` of byte `b` of a number. -/
theorem bit_leBytes {n v b t : Nat} (hb : b < n) (ht : t < 8) : ((leBytes n v).getD b 0).getLsbD t = v.testBit (8 * b + t) := by
  rw [getD_leBytes, if_pos hb, BitVec.getLsbD_ofNat, Nat.testBit_shiftRight]
  simp [ht]

theorem length_packElems (f : Fmt) (old : Nat → Byte) (es : List (Option Word)) : (packElems f old es).length = packedBytes f es.length := by
  unfold packElems packedBytes
  split
  next h => rw [List.length_map, List.length_range, h]; omega
  next h4 =>
    split
    next h =>
      rw [List.length_map, length_leBytes]
    next h6 =>
      have hl : (es.flatMap (fun e => match e with
          | some v => (leBytes (f.width / 8) v.toNat).map some
          | none => List.replicate (f.width / 8) none)).length = es.length * (f.width / 8) := by
        induction es with
        | nil => simp
        | cons e es ih =>
          rw [List.flatMap_cons, List.length_append, ih, List.length_cons, Nat.succ_mul, Nat.add_comm]
          cases e <;> simp
      have hw : f.width = 8 * (f.width / 8) := by cases f <;> simp_all [Fmt.width]
      refine hl.trans ?_
      have he : es.length * f.width = 8 * (es.length * (f.width / 8)) := by
        rw [Nat.mul_left_comm, ← hw]
      rw [he]
      omega

/-- Bit `t` of byte `b` of packed elements over old bytes. -/
def packedBit (f : Fmt) (old : Nat → Byte) (es : List (Option Word)) (b : Nat) : Bool :=
  (((packElems f old es).getD (b / 8) none).getD (old (b / 8))).getLsbD (b % 8)

/-- The halves of a byte of two elements, over an old byte. -/
def lowPart (e : Option Word) (o : Byte) : Byte := match e with | some v => BitVec.ofNat 8 (v.toNat % 16) | none => o &&& 0x0F
def highPart (e : Option Word) (o : Byte) : Byte := match e with | some v => BitVec.ofNat 8 (v.toNat % 16 * 16) | none => o &&& 0xF0

/-- Bit `t` of an element, or the old bit. -/
def bitOr (e : Option Word) (old : Bool) (t : Nat) : Bool := match e with | some v => v.getLsbD t | none => old

theorem nibbleMask_bit (t : Nat) : (0x0F : Byte).getLsbD t = decide (t < 4) ∧ (0xF0 : Byte).getLsbD t = decide (4 ≤ t ∧ t < 8) := by
  by_cases ht : t < 8
  · have h : ∀ t : Fin 8, (0x0F : Byte).getLsbD t.val = decide (t.val < 4) ∧ (0xF0 : Byte).getLsbD t.val = decide (4 ≤ t.val ∧ t.val < 8) := by decide
    exact h ⟨t, ht⟩
  · rw [BitVec.getLsbD_of_ge _ _ (by omega), BitVec.getLsbD_of_ge _ _ (by omega), decide_eq_false (by omega), decide_eq_false (by omega)]
    exact ⟨rfl, rfl⟩

theorem lowPart_bit (e : Option Word) (o : Byte) (t : Nat) : (lowPart e o).getLsbD t = (decide (t < 4) && bitOr e (o.getLsbD t) t) := by
  cases e with
  | none => rw [lowPart, BitVec.getLsbD_and, (nibbleMask_bit t).1, Bool.and_comm]; rfl
  | some v =>
    rw [lowPart, BitVec.getLsbD_ofNat, show (16 : Nat) = 2 ^ 4 from rfl, Nat.testBit_mod_two_pow]
    by_cases h : t < 4
    · simp [h, show t < 8 by omega, bitOr, BitVec.testBit_toNat]
    · simp [h]

theorem highPart_bit (e : Option Word) (o : Byte) (t : Nat) :
    (highPart e o).getLsbD t = (decide (4 ≤ t ∧ t < 8) && bitOr e (o.getLsbD t) (t - 4)) := by
  cases e with
  | none => rw [highPart, BitVec.getLsbD_and, (nibbleMask_bit t).2, Bool.and_comm]; rfl
  | some v =>
    rw [highPart, BitVec.getLsbD_ofNat, show (16 : Nat) = 2 ^ 4 from rfl, Nat.testBit_mul_two_pow, Nat.testBit_mod_two_pow]
    by_cases h : 4 ≤ t ∧ t < 8
    · simp [h, show t - 4 < 4 by omega, bitOr, BitVec.testBit_toNat]
    · rcases not_and_or.1 h with h | h <;> simp [h]

theorem parts_none (o : Byte) : lowPart none o ||| highPart none o = o := by
  refine BitVec.eq_of_getLsbD_eq fun t ht => ?_
  rw [BitVec.getLsbD_or, lowPart_bit, highPart_bit]
  by_cases h : t < 4
  · simp [h, bitOr, show ¬ 4 ≤ t by omega]
  · simp [h, bitOr, ht, show 4 ≤ t by omega]

/-- Nibbles. -/
theorem packedBit_nibble {f : Fmt} (hf : f.width = 4) {old : Nat → Byte} {es : List (Option Word)} {k j : Nat} (hk : k < es.length) (hj : j < 4) :
    packedBit f old es (4 * k + j) = bitOr (es.getD k none) ((old ((4 * k + j) / 8)).getLsbD ((4 * k + j) % 8)) j := by
  have hb : (4 * k + j) / 8 = k / 2 := by omega
  have hl : k / 2 < (es.length + 1) / 2 := by omega
  have hbyte : ((packElems f old es).getD (k / 2) none).getD (old (k / 2)) =
      lowPart (es.getD (2 * (k / 2)) none) (old (k / 2)) ||| highPart (es.getD (2 * (k / 2) + 1) none) (old (k / 2)) := by
    unfold packElems
    rw [if_pos hf, List.getD_eq_getElem?_getD, List.getElem?_map, List.getElem?_range hl]
    dsimp only [Option.map_some, Option.getD_some]
    generalize es.getD (2 * (k / 2)) none = lo
    generalize es.getD (2 * (k / 2) + 1) none = hi
    cases lo with
    | some v => rfl
    | none =>
      cases hi with
      | some v => rfl
      | none => exact (parts_none _).symm
  unfold packedBit
  rw [hb, hbyte, BitVec.getLsbD_or, lowPart_bit, highPart_bit]
  by_cases he : k % 2 = 0
  · have ht : (4 * k + j) % 8 = j := by omega
    have h2 : 2 * (k / 2) = k := by omega
    simp [ht, h2, hj, show ¬ 4 ≤ j by omega]
  · have ht : (4 * k + j) % 8 = 4 + j := by omega
    have h2 : 2 * (k / 2) + 1 = k := by omega
    simp [ht, h2, show ¬ 4 + j < 4 by omega, show 4 + j < 8 by omega]

/-- Whole bytes. -/
theorem packedBit_bytes {f : Fmt} (h4 : f.width ≠ 4) (h6 : f.width ≠ 6) {old : Nat → Byte} {es : List (Option Word)} {k j : Nat}
    (hk : k < es.length) (hj : j < f.width) : packedBit f old es (f.width * k + j) =
      bitOr (es.getD k none) ((old ((f.width * k + j) / 8)).getLsbD ((f.width * k + j) % 8)) j := by
  obtain ⟨sz, hsz⟩ : ∃ sz, f.width = 8 * sz := ⟨f.width / 8, by cases f <;> simp_all [Fmt.width]⟩
  have hdiv : f.width / 8 = sz := by omega
  have hb : (f.width * k + j) / 8 = sz * k + j / 8 := by rw [hsz, Nat.mul_assoc]; omega
  have hm : (f.width * k + j) % 8 = j % 8 := by rw [hsz, Nat.mul_assoc]; omega
  have hcell : (packElems f old es).getD (sz * k + j / 8) none = ((es.getD k none).map (fun v => (leBytes sz v.toNat).getD (j / 8) 0)) := by
    unfold packElems
    rw [if_neg h4, if_neg h6, hdiv]
    have hlt : j / 8 < sz := by omega
    generalize j / 8 = t at hlt
    clear hb hm hj
    induction es generalizing k with
    | nil => exact absurd hk (Nat.not_lt_zero k)
    | cons e es ih =>
      rw [List.flatMap_cons]
      cases k with
      | zero =>
        rw [List.getD_append _ _ _ _ (by cases e <;> simpa using hlt)]
        cases e with
        | none => simp [List.getD_eq_getElem?_getD, List.getElem?_replicate_of_lt hlt]
        | some v => simp [List.getD_eq_getElem?_getD, hlt]
      | succ k =>
        rw [List.getD_append_right _ _ _ _ (by cases e <;> simp [Nat.mul_succ] <;> omega), List.getD_cons_succ, ← ih (Nat.lt_of_succ_lt_succ hk)]
        congr 1
        cases e <;> simp [Nat.mul_succ] <;> omega
  unfold packedBit
  rw [hb, hm, hcell]
  cases he : es.getD k none with
  | none => rfl
  | some v =>
    change ((leBytes sz v.toNat).getD (j / 8) 0).getLsbD (j % 8) = v.getLsbD j
    rw [bit_leBytes (by omega) (by omega), show 8 * (j / 8) + j % 8 = j by omega, BitVec.testBit_toNat]

/-- Sextets in a row. -/
def sextets (es : List (Option Word)) : Nat := es.foldr (fun e acc => acc * 64 + (e.getD 0).toNat % 64) 0

theorem testBit_sextets : ∀ (es : List (Option Word)) (k j : Nat), j < 6 →
    (sextets es).testBit (6 * k + j) = ((es.getD k none).getD 0).getLsbD j
  | [], k, j, _ => by simp [sextets]
  | e :: es, k, j, hj => by
    have hs : sextets (e :: es) = 2 ^ 6 * sextets es + (e.getD 0).toNat % 2 ^ 6 := by
      rw [Nat.mul_comm]
      rfl
    rw [hs, Nat.testBit_two_pow_mul_add _ (Nat.mod_lt _ (by decide))]
    cases k with
    | zero =>
      rw [if_pos (by omega), Nat.testBit_mod_two_pow, Nat.mul_zero, Nat.zero_add, decide_eq_true hj, Bool.true_and, BitVec.testBit_toNat]
      rfl
    | succ k =>
      rw [if_neg (by omega), show 6 * (k + 1) + j - 6 = 6 * k + j by omega, testBit_sextets es k j hj, List.getD_cons_succ]

theorem packedBit_sextet {f : Fmt} (hf : f.width = 6) {old : Nat → Byte} {es : List (Option Word)} {k j : Nat} (hk : k < es.length) (hj : j < 6)
    (hs : (es.getD k none).isSome = true) (b : Bool) : packedBit f old es (6 * k + j) = bitOr (es.getD k none) b j := by
  have hlt : (6 * k + j) / 8 < packedBytes f es.length := by
    unfold packedBytes
    rw [hf]
    omega
  have hcell : (packElems f old es).getD ((6 * k + j) / 8) none =
      some ((leBytes (packedBytes f es.length) (sextets es)).getD ((6 * k + j) / 8) 0) := by
    unfold packElems
    rw [if_neg (by omega), if_pos hf]
    change ((leBytes (packedBytes f es.length) (sextets es)).map some).getD _ none = _
    rw [List.getD_eq_getElem?_getD, List.getElem?_map, List.getD_eq_getElem?_getD, List.getElem?_eq_getElem (by rw [length_leBytes]; exact hlt)]
    rfl
  obtain ⟨v, hv⟩ := Option.isSome_iff_exists.1 hs
  unfold packedBit
  rw [hcell]
  change ((leBytes _ _).getD _ 0).getLsbD _ = _
  rw [bit_leBytes hlt (Nat.mod_lt _ (by decide)), show 8 * ((6 * k + j) / 8) + (6 * k + j) % 8 = 6 * k + j by omega, testBit_sextets es k j hj, hv]
  rfl

/-- A packed element is written, or stands. -/
theorem packedBit_elem {f : Fmt} {old : Nat → Byte} {es : List (Option Word)} {k j : Nat} (hk : k < es.length) (hj : j < f.width)
    (hs : f.width = 6 → (es.getD k none).isSome = true) : packedBit f old es (f.width * k + j) =
      bitOr (es.getD k none) ((old ((f.width * k + j) / 8)).getLsbD ((f.width * k + j) % 8)) j := by
  by_cases h4 : f.width = 4
  · rw [h4] at hj ⊢
    exact packedBit_nibble h4 hk hj
  · by_cases h6 : f.width = 6
    · have hs := hs h6
      rw [h6] at hj ⊢
      exact packedBit_sextet h6 hk hj hs _
    · exact packedBit_bytes h4 h6 hk hj

/-! ### Register after register (R225) -/

/-- Writes of rows of bytes, one behind the other. -/
theorem writeRuns_same {x : Ctx} {q : Issue} {f : Option Fmt} {eng : Nat} (rs : List (Nat × List (Option Byte))) : ∀ (r : Run), r.old = [] →
    (∀ a ∈ rs, Plain x a.1 a.2.length) → ∃ r', writeRuns x q f eng rs r = .ok r' ∧
      SameWork { r with c := { r.c with cm := rs.foldl (fun m a => writeBytes m a.1 a.2) r.c.cm } } r' := by
  induction rs with
  | nil => exact fun r ho _ => ⟨r, rfl, rfl, rfl, ho⟩
  | cons a rs ih =>
    intro r ho h
    obtain ⟨off, bs⟩ := a
    obtain ⟨r₁, hr, hs⟩ := write_same (q := q) (f := f) (eng := eng) r ho (h (off, bs) List.mem_cons_self)
    obtain ⟨r₂, hr', hs'⟩ := ih r₁ hs.fresh (fun a ha => h a (List.mem_cons_of_mem _ ha))
    refine ⟨r₂, ?_, hs'.core.trans ?_, hs'.fx.trans hs.fx, hs'.fresh⟩
    · simp only [writeRuns, hr, bind, Except.bind]
      exact hr'
    · rw [hs.core]
      rfl

/-- What a byte reads as behind rows of `per` bytes each. -/
theorem byteAt_rows (m : List Host.Cell) (off per : Nat) (row : Nat → List (Option Byte)) (k : Nat) : ∀ g, (∀ j < g, (row j).length = per) →
    byteAt (((List.range g).map (fun j => (off + per * j, row j))).foldl (fun m a => writeBytes m a.1 a.2) m) k =
      if off ≤ k ∧ k < off + per * g then ((row ((k - off) / per)).getD ((k - off) % per) none).getD (byteAt m k) else byteAt m k
  | 0, _ => by rw [if_neg (by omega)]; rfl
  | g + 1, hl => by
    rw [List.range_succ, List.map_append, List.foldl_append]
    change byteAt (writeBytes _ (off + per * g) (row g)) k = _
    rw [byteAt_writeBytes, hl g (Nat.lt_succ_self g), byteAt_rows m off per row k g fun j hj => hl j (Nat.lt_succ_of_lt hj), Nat.mul_succ]
    by_cases h1 : off + per * g ≤ k ∧ k < off + per * g + per
    · obtain ⟨hlo, hhi⟩ := h1
      have hd : (k - off) / per = g := by
        refine Nat.div_eq_of_lt_le ?_ ?_
        · rw [Nat.mul_comm]; omega
        · rw [Nat.succ_mul, Nat.mul_comm]; omega
      have hm : (k - off) % per = k - (off + per * g) := by
        have := Nat.div_add_mod (k - off) per
        rw [hd] at this
        omega
      rw [if_pos ⟨hlo, hhi⟩, if_neg (by omega), if_pos (by omega), hd, hm]
    · rw [if_neg h1]
      by_cases h2 : off ≤ k ∧ k < off + per * g
      · rw [if_pos h2, if_pos (by omega)]
      · rw [if_neg h2, if_neg (by omega)]

/-- The bytes of one register of a store. -/
def storeRow (f : Fmt) (m : List Host.Cell) (off lpr : Nat) (es : List (Option Word)) (j : Nat) : List (Option Byte) :=
  packElems f (fun k => byteAt m (off + packedBytes f lpr * j + k)) ((es.drop (lpr * j)).take lpr)

/-- Memory behind a store of `g` registers. -/
def stored (f : Fmt) (m : List Host.Cell) (off lpr g : Nat) (es : List (Option Word)) : List Host.Cell :=
  ((List.range g).map (fun j => (off + packedBytes f lpr * j, storeRow f m off lpr es j))).foldl (fun m a => writeBytes m a.1 a.2) m

section
variable {f : Fmt} {m : List Host.Cell} {off lpr g : Nat} {es : List (Option Word)} (hl : es.length = g * lpr)
include hl

theorem length_storeRow {j : Nat} (hj : j < g) : (storeRow f m off lpr es j).length = packedBytes f lpr := by
  have hle : lpr * (j + 1) ≤ g * lpr := by rw [Nat.mul_comm g]; exact Nat.mul_le_mul_left _ hj
  rw [Nat.mul_succ] at hle
  rw [storeRow, length_packElems, List.length_take, List.length_drop, hl, Nat.min_eq_left (by omega)]

theorem byteAt_stored (k : Nat) : byteAt (stored f m off lpr g es) k =
    if off ≤ k ∧ k < off + packedBytes f lpr * g then
      ((storeRow f m off lpr es ((k - off) / packedBytes f lpr)).getD ((k - off) % packedBytes f lpr) none).getD (byteAt m k)
    else byteAt m k :=
  byteAt_rows m off (packedBytes f lpr) (storeRow f m off lpr es) k g fun _ hj => length_storeRow hl hj

variable (h8 : lpr % 8 = 0)
include h8

/-- Bit `j` of element `k` of a store is as given, or stands. -/
theorem storedBit {k j : Nat} (hk : k < g * lpr) (hj : j < f.width) (hs : f.width = 6 → (es.getD k none).isSome = true) :
    ((bytesAt (stored f m off lpr g es) off (packedBytes f lpr * g)).getD ((f.width * k + j) / 8) 0).getLsbD ((f.width * k + j) % 8) =
      bitOr (es.getD k none) (((bytesAt m off (packedBytes f lpr * g)).getD ((f.width * k + j) / 8) 0).getLsbD ((f.width * k + j) % 8)) j := by
  have hlpr : 0 < lpr := Nat.pos_of_ne_zero (by rintro rfl; simp at hk)
  obtain ⟨d, hd⟩ : ∃ d, lpr = 8 * d := ⟨lpr / 8, by omega⟩
  have hper : packedBytes f lpr = f.width * d := by
    unfold packedBytes
    rw [hd, show 8 * d * f.width = 8 * (f.width * d) by rw [Nat.mul_assoc, Nat.mul_comm d]]
    omega
  have hkd := Nat.div_add_mod k lpr
  have hmod := Nat.mod_lt k hlpr
  have hc : k / lpr < g := (Nat.div_lt_iff_lt_mul hlpr).2 hk
  generalize k / lpr = c at hkd hc
  generalize k % lpr = k' at hkd hmod
  have hb : f.width * k + j = 8 * (packedBytes f lpr * c) + (f.width * k' + j) := by
    rw [← hkd, Nat.mul_add, hper, hd]
    ring
  have hin : f.width * k' + j < 8 * packedBytes f lpr := by
    have := Nat.mul_le_mul_left f.width (Nat.succ_le_of_lt hmod)
    rw [hd] at this
    rw [hper]
    rw [Nat.mul_succ] at this
    rw [Nat.mul_left_comm] at this
    omega
  have hdiv : (f.width * k + j) / 8 = packedBytes f lpr * c + (f.width * k' + j) / 8 := by omega
  have hrem : (f.width * k + j) % 8 = (f.width * k' + j) % 8 := by omega
  have hlt : (f.width * k + j) / 8 < packedBytes f lpr * g := by
    have := Nat.mul_le_mul_left (packedBytes f lpr) (Nat.succ_le_of_lt hc)
    rw [Nat.mul_succ] at this
    omega
  have hget : ∀ M : List Host.Cell, (bytesAt M off (packedBytes f lpr * g)).getD ((f.width * k + j) / 8) 0 = byteAt M (off + (f.width * k + j) / 8) := by
    intro M
    rw [bytesAt_eq_map, List.getD_eq_getElem?_getD, List.getElem?_map, List.getElem?_range hlt]
    rfl
  have hq : (packedBytes f lpr * c + (f.width * k' + j) / 8) / packedBytes f lpr = c := by
    rw [Nat.mul_add_div (by omega), Nat.div_eq_of_lt (by omega), Nat.add_zero]
  have hr : (packedBytes f lpr * c + (f.width * k' + j) / 8) % packedBytes f lpr = (f.width * k' + j) / 8 := by
    rw [Nat.mul_add_mod, Nat.mod_eq_of_lt (by omega)]
  have hes : ((es.drop (lpr * c)).take lpr).getD k' none = es.getD k none := by
    rw [List.getD_eq_getElem?_getD, List.getElem?_take_of_lt hmod, List.getElem?_drop, hkd, List.getD_eq_getElem?_getD]
  have hlen : k' < ((es.drop (lpr * c)).take lpr).length := by
    have hle : lpr * (c + 1) ≤ g * lpr := by rw [Nat.mul_comm g]; exact Nat.mul_le_mul_left _ hc
    rw [Nat.mul_succ] at hle
    rw [List.length_take, List.length_drop, hl]
    omega
  rw [hget, hget, byteAt_stored hl, if_pos ⟨Nat.le_add_right _ _, by omega⟩, Nat.add_sub_cancel_left, hdiv, hrem, hq, hr]
  have := packedBit_elem (f := f) (old := fun b => byteAt m (off + packedBytes f lpr * c + b)) hlen hj (by rw [hes]; exact hs)
  rw [hes] at this
  rw [← Nat.add_assoc]
  exact this

/-- Each element of a store is as given, or stands. -/
theorem packedElem_stored {k : Nat} (hk : k < g * lpr) (hs : f.width = 6 → (es.getD k none).isSome = true) :
    packedElem f (bytesAt (stored f m off lpr g es) off (packedBytes f lpr * g)) k =
      match es.getD k none with
      | some v => BitVec.ofNat 32 (v.toNat % 2 ^ f.width)
      | none => packedElem f (bytesAt m off (packedBytes f lpr * g)) k := by
  have hbit := fun j hj => storedBit (m := m) (off := off) hl h8 (j := j) hk hj hs
  rcases he : es.getD k none with _ | v
  · refine packedElem_ext (fun j hj => ?_) fun j hj => ?_
    · rw [getLsbD_packedElem, decide_eq_false (Nat.not_lt.2 hj), Bool.false_and, Bool.and_false]
    · rw [hbit j hj, he, getLsbD_packedElem, decide_eq_true hj, decide_eq_true (hj.trans_le (width_le f))]
      rfl
  · refine packedElem_ext (fun j hj => ?_) fun j hj => ?_
    · rw [BitVec.getLsbD_ofNat, Nat.testBit_mod_two_pow, decide_eq_false (Nat.not_lt.2 hj), Bool.false_and, Bool.and_false]
    · rw [hbit j hj, he, BitVec.getLsbD_ofNat, Nat.testBit_mod_two_pow, decide_eq_true hj, decide_eq_true (hj.trans_le (width_le f)),
        BitVec.testBit_toNat]
      rfl

end

end Sys2Proof.Machine
end


section
/-! PROOFS. VLD and VST (R225 to R227): O22. -/

namespace Sys2Proof.Machine

open Sys2Proof

/-! ### MX blocks (R227) -/

theorem length_mxElems (f : Fmt) (x : Byte) (mode : RMode) (r : Nat → Word) : ∀ (vs : List FVal) (k : Nat), (mxElems f x mode r k vs).1.length = vs.length := by
  intro vs
  induction vs with
  | nil => intro k; rfl
  | cons v vs ih => intro k; simp [mxElems, ih]

theorem length_mxEncode (f : Fmt) (xs : List FVal) (rule : Bool) (mode : RMode) (r : Nat → Word) : (mxEncode f xs rule mode r).2.1.length = xs.length := by
  unfold mxEncode
  dsimp only
  split
  · exact List.length_map _
  · exact length_mxElems ..

theorem mxBlocks_succ (c : Ctx) (i : Issue) (x : FmtVM) (f : Fmt) (vals : List FVal) (n b : Nat) : mxBlocks c i x f vals (n + 1) b =
    ((mxEncode f ((vals.drop (32 * b)).take 32) x.rule (modeOf2 x.rmode.toNat) (fun k => seedWord c i x.sti x.six (32 * b + k))).1 ::
      (mxBlocks c i x f vals n (b + 1)).1,
    (mxEncode f ((vals.drop (32 * b)).take 32) x.rule (modeOf2 x.rmode.toNat) (fun k => seedWord c i x.sti x.six (32 * b + k))).2.1 ++
      (mxBlocks c i x f vals n (b + 1)).2.1,
    (mxEncode f ((vals.drop (32 * b)).take 32) x.rule (modeOf2 x.rmode.toNat) (fun k => seedWord c i x.sti x.six (32 * b + k))).2.2 |||
      (mxBlocks c i x f vals n (b + 1)).2.2) := rfl

/-- One scale for each block, and an element for each value. -/
theorem length_mxBlocks (c : Ctx) (i : Issue) (x : FmtVM) (f : Fmt) (vals : List FVal) : ∀ n b, 32 * (b + n) ≤ vals.length →
    (mxBlocks c i x f vals n b).1.length = n ∧ (mxBlocks c i x f vals n b).2.1.length = 32 * n
  | 0, _, _ => ⟨rfl, rfl⟩
  | n + 1, b, h => by
    obtain ⟨h1, h2⟩ := length_mxBlocks c i x f vals n (b + 1) (by omega)
    rw [mxBlocks_succ]
    refine ⟨by rw [List.length_cons, h1], ?_⟩
    rw [List.length_append, h2, length_mxEncode, List.length_take, List.length_drop]
    omega

/-! ### VST (R227) -/

/-- Memory behind a VST of elements `es` and scales `ss`. -/
def vstMem (q : Issue) (f : FmtVM) (cm : List Host.Cell) (es : List (Option Word)) (ss : List Byte) : List Host.Cell :=
  let m := stored (formatOf f.fmt) cm (refOff (q.s f.sa)) (lanesPerReg f.mode.toNat) (gOf f.g) es
  if f.mx then setBytes m (refOff (q.s f.ssc)) ss else m

/-- The MX blocks of a store's run. -/
def mxOf (x : Ctx) (q : Issue) (f : FmtVM) (y : StreamSt) : List Byte × List Word × Flg :=
  mxBlocks x q f (formatOf f.fmt)
    ((List.range (vCount f.g f.mode.toNat)).map (fun k => decodeFloat (modeFmt f.mode.toNat) (vElem y f.mode.toNat f.vr.toNat k)))
    (vCount f.g f.mode.toNat / 32) 0

/-- The elements of a plain store's run. -/
def plainOf (x : Ctx) (q : Issue) (f : FmtVM) (y : StreamSt) : LaneJob :=
  ⟨f.mode.toNat, f.vr.toNat, vCount f.g f.mode.toNat, gOf f.g, q.p f.pr, false, fun k => vstElem f.mode.toNat (formatOf f.fmt)
    (modeOf2 f.rmode.toNat) f.sat (seedWord x q f.sti f.six k) (vElem y f.mode.toNat f.vr.toNat k)⟩

/-- The elements that a store writes, by place. -/
def storeElems (x : Ctx) (q : Issue) (f : FmtVM) (y : StreamSt) : List (Option Word) :=
  if f.mx then (mxOf x q f y).2.1.map some else (List.range (vCount f.g f.mode.toNat)).map (plainOf x q f y).write

def storeFlags (x : Ctx) (q : Issue) (f : FmtVM) (y : StreamSt) : Flg := if f.mx then (mxOf x q f y).2.2 else (plainOf x q f y).flags

theorem vCount_blocks (g : BitVec 2) (m : Nat) : 32 * (vCount g m / 32) = vCount g m := by
  unfold vCount lanesPerReg
  split <;> omega

theorem length_mxOf (x : Ctx) (q : Issue) (f : FmtVM) (y : StreamSt) :
    (mxOf x q f y).1.length = vCount f.g f.mode.toNat / 32 ∧ (mxOf x q f y).2.1.length = vCount f.g f.mode.toNat := by
  have h := length_mxBlocks x q f (formatOf f.fmt)
    ((List.range (vCount f.g f.mode.toNat)).map (fun k => decodeFloat (modeFmt f.mode.toNat) (vElem y f.mode.toNat f.vr.toNat k)))
    (vCount f.g f.mode.toNat / 32) 0 (by rw [Nat.zero_add, List.length_map, List.length_range, vCount_blocks])
  rw [vCount_blocks] at h
  exact h

theorem length_storeElems (x : Ctx) (q : Issue) (f : FmtVM) (y : StreamSt) :
    (storeElems x q f y).length = gOf f.g * lanesPerReg f.mode.toNat := by
  unfold storeElems
  split
  · rw [List.length_map, (length_mxOf x q f y).2, vCount]
  · rw [List.length_map, List.length_range, vCount]

theorem map_ite {α β ε : Type} (c : Bool) (a : Except ε α) (r : α) (k : α → β) :
    (if c = true then a.map k else Except.ok (k r)) = (if c = true then a else Except.ok r).map k := by
  cases c <;> rfl

theorem doVst_plain {x : Ctx} {q : Issue} {f : FmtVM} {r : Run} (ho : r.old = [])
    (hok : vmemOk x q f (formatOf f.fmt) (vCount f.g f.mode.toNat) = (true, 0))
    (ha : Plain x (refOff (q.s f.sa)) (packedBytes (formatOf f.fmt) (vCount f.g f.mode.toNat)))
    (hs : f.mx = true → Plain x (refOff (q.s f.ssc)) (vCount f.g f.mode.toNat / 32)) :
    ∃ r' : Run, doVst x q f r = .ok ((r'.raiseFlags q (storeFlags x q f (r.c.stream q.st))).emit (.veBusy (gOf f.g))) ∧ r'.fx = r.fx ∧
      r'.c = { r.c with cm := vstMem q f r.c.cm (storeElems x q f (r.c.stream q.st)) (mxOf x q f (r.c.stream q.st)).1 } := by
  have hrow := fun j => length_storeRow (f := formatOf f.fmt) (m := r.c.cm) (off := refOff (q.s f.sa)) (j := j)
    (length_storeElems x q f (r.c.stream q.st))
  obtain ⟨r₁, hr₁, hw₁⟩ := writeRuns_same (x := x) (q := q) (f := some (formatOf f.fmt)) (eng := 0) ((List.range (gOf f.g)).map (fun j =>
      (refOff (q.s f.sa) + packedBytes (formatOf f.fmt) (lanesPerReg f.mode.toNat) * j,
        storeRow (formatOf f.fmt) r.c.cm (refOff (q.s f.sa)) (lanesPerReg f.mode.toNat) (storeElems x q f (r.c.stream q.st)) j))) r ho (by
    intro a hm
    obtain ⟨j, hj, rfl⟩ := List.mem_map.1 hm
    have hj := List.mem_range.1 hj
    dsimp only
    rw [hrow j hj]
    exact runs_plain ha j hj)
  have hscale : ∃ r₂ : Run, (if f.mx = true then r₁.write x q (some .e8m0) 0 (refOff (q.s f.ssc)) ((mxOf x q f (r.c.stream q.st)).1.map some)
      else .ok r₁) = .ok r₂ ∧ r₂.fx = r.fx ∧
      r₂.c = { r.c with cm := vstMem q f r.c.cm (storeElems x q f (r.c.stream q.st)) (mxOf x q f (r.c.stream q.st)).1 } := by
    cases hm : f.mx with
    | false => exact ⟨r₁, rfl, hw₁.fx, hw₁.core.trans (by simp only [vstMem, hm]; rfl)⟩
    | true =>
      obtain ⟨r₂, hr₂, hw₂⟩ := write_same (x := x) (q := q) (f := some .e8m0) (eng := 0) (off := refOff (q.s f.ssc))
        (bs := (mxOf x q f (r.c.stream q.st)).1.map some) r₁ hw₁.fresh (by rw [List.length_map, (length_mxOf x q f _).1]; exact hs hm)
      refine ⟨r₂, hr₂, hw₂.fx.trans hw₁.fx, hw₂.core.trans ?_⟩
      rw [hw₁.core, writeBytes_some]
      simp only [vstMem, hm]
      rfl
  obtain ⟨r₂, hr₂, hfx, hcore⟩ := hscale
  refine ⟨r₂, ?_, hfx, hcore⟩
  unfold doVst
  dsimp only
  rw [vMap_eq _ _ _ _ f.mode.toNat f.vr.toNat (gOf f.g)]
  change (match vmemOk x q f (formatOf f.fmt) (vCount f.g f.mode.toNat) with | (false, d) => _ | (true, _) => _) = _
  rw [hok]
  change (writeRuns x q (some (formatOf f.fmt)) 0 ((List.range (gOf f.g)).map (fun j =>
      (refOff (q.s f.sa) + packedBytes (formatOf f.fmt) (lanesPerReg f.mode.toNat) * j,
        storeRow (formatOf f.fmt) r.c.cm (refOff (q.s f.sa)) (lanesPerReg f.mode.toNat) (storeElems x q f (r.c.stream q.st)) j))) r >>= _) = _
  rw [hr₁]
  exact (map_ite f.mx (r₁.write x q (some .e8m0) 0 (refOff (q.s f.ssc)) ((mxOf x q f (r.c.stream q.st)).1.map some)) r₁
    (fun u => (u.raiseFlags q (storeFlags x q f (r.c.stream q.st))).emit (.veBusy (gOf f.g)))).trans (congrArg (Except.map _) hr₂)

section
variable {s : State} {i : Iss} {f : FmtVM} {p : Nat}

/-- What a store of the model writes, as the job says it. -/
theorem storeElems_job {k : Nat} (hk : k < vCount f.g f.mode.toNat) :
    (storeElems (s.ctxOf i.v p) (s.issueOf p i.st (.vst f)) f (s.streamOf i p)).getD k none =
      if (vstJob s i p f).pred.getLsbD k then some ((vstJob s i p f).val k).1 else none := by
  have hmx := (length_mxOf (s.ctxOf i.v p) (s.issueOf p i.st (.vst f)) f (s.streamOf i p)).2
  unfold storeElems vstJob
  cases hm : f.mx with
  | true =>
    have h1024 : k < 1024 := hk.trans_le (vCount_le ..)
    simp only [if_true]
    rw [if_pos ((BitVec.getLsbD_allOnes ..).trans (decide_eq_true h1024)), List.getD_eq_getElem?_getD, List.getElem?_map]
    change Option.getD (Option.map some _) none = some ((mxOf (s.ctxOf i.v p) (s.issueOf p i.st (.vst f)) f (s.streamOf i p)).2.1.getD k 0)
    rw [List.getD_eq_getElem?_getD, List.getElem?_eq_getElem (by rw [hmx]; exact hk)]
    rfl
  | false =>
    simp only [Bool.false_eq_true, if_false]
    rw [List.getD_eq_getElem?_getD, List.getElem?_map, List.getElem?_range hk]
    rfl

/-- Where every element raises the same flags, the job raises them. -/
theorem flags_const {j : LaneJob} {fl : Flg} (hn : 0 < j.n) (hp : ∀ k < j.n, j.pred.getLsbD k = true) (h : ∀ k, (j.val k).2 = fl) : j.flags = fl := by
  have hall : (List.range j.n).filter (fun k => j.pred.getLsbD k) = List.range j.n :=
    List.filter_eq_self.2 fun k hk => hp k (List.mem_range.1 hk)
  have hfold : ∀ ks : List Nat, ks ≠ [] → ks.foldr (fun k a => (j.val k).2 ||| a) 0 = fl := by
    intro ks
    induction ks with
    | nil => exact fun h => absurd rfl h
    | cons k ks ih =>
      intro _
      rw [List.foldr_cons, h]
      by_cases hks : ks = []
      · subst hks
        exact BitVec.or_zero ..
      · rw [ih hks, BitVec.or_self]
  unfold LaneJob.flags
  rw [hall]
  exact hfold _ (by rw [Ne, List.range_eq_nil]; omega)

theorem vCount_pos (g : BitVec 2) (m : Nat) : 0 < vCount g m := by
  have hg : 0 < gOf g := Nat.pow_pos (by decide)
  unfold vCount lanesPerReg
  split <;> omega

theorem storeFlags_job : storeFlags (s.ctxOf i.v p) (s.issueOf p i.st (.vst f)) f (s.streamOf i p) = (vstJob s i p f).flags := by
  unfold storeFlags vstJob
  cases hm : f.mx with
  | true =>
    refine (flags_const (vCount_pos f.g f.mode.toNat) (fun k hk => ?_) fun _ => rfl).symm
    have h1024 : k < 1024 := Nat.lt_of_lt_of_le hk (vCount_le ..)
    exact (BitVec.getLsbD_allOnes ..).trans (decide_eq_true h1024)
  | false => rfl

/-- FP6 exists in MX tensors alone. -/
theorem mx_of_sextets (h : s.canIssue i (.vst f) p = true) (h6 : (formatOf f.fmt).width = 6) : f.mx = true := by
  obtain ⟨-, -, -, hl, -⟩ := (canIssue_iff s i _ p).mp h
  have hl : okVst f = true := hl
  unfold okVst at hl
  rw [Bool.and_eq_true] at hl
  have hf := hl.2
  unfold formatOf at h6
  cases hc : Fmt.ofCode f.fmt with
  | none => rw [hc] at hf; cases hf
  | some g =>
    rw [hc] at hf h6
    have hsub : isSub8 g = true := by cases g <;> simp_all [Fmt.width, isSub8]
    simp only [hsub, Bool.and_eq_true, Bool.not_true, Bool.false_or] at hf
    exact hf.1.2

/-- VST to own memory outside HANDOFF regions. -/
theorem issue_vst (h : s.canIssue i (.vst f) p = true)
    (ha : s.plainRef i p (s.scalarOf i p f.sa) (packedBytes (formatOf f.fmt) (vCount f.g f.mode.toNat)) (alignOf (formatOf f.fmt)))
    (hs : f.mx = true → s.plainRef i p (s.scalarOf i p f.ssc) (vCount f.g f.mode.toNat / 32) 1) :
    ∃ t, exec (.vst i f) s = .next t ∧ t.core p = (Core.setStream { s.core p with
        cm := vstMem (s.issueOf p i.st (.vst f)) f (s.core p).cm (storeElems (s.ctxOf i.v p) (s.issueOf p i.st (.vst f)) f (s.streamOf i p))
          (vstBlocks s i p f).1 } i.st (withFlags (s.core p) i.st (s.streamOf i p) (vstJob s i p f).flags)).goOn i.st ∧
      VectorFrame s t p (vstJob s i p f).flags (vstJob s i p f).cycles := by
  have hcyc : (vstJob s i p f).cycles = gOf f.g := by
    unfold vstJob
    split <;> rfl
  rw [hcyc]
  refine issue_vector (op := .vst f) _ h rfl fun lim fin => ?_
  obtain ⟨r', hr, hfx, hcore⟩ := doVst_plain (q := s.issueOf p i.st (.vst f)) (r := .again (s.core p).took prog0 lim fin) rfl
    (vmemOk_good ha.1 fun hm => (hs hm).1) ha.2 (fun hm => (hs hm).2)
  rw [st_issueOf, c_again, stream_took, stream_eq_streamOf] at hr hcore
  rw [storeFlags_job] at hr
  refine ⟨_, hr, ?_, (raiseFlags_fx ..).trans (congrArg (· ++ _) hfx)⟩
  refine raiseFlags_c (i := s.issueOf p i.st (.vst f)) (c := { s.core p with
    cm := vstMem (s.issueOf p i.st (.vst f)) f (s.core p).cm (storeElems (s.ctxOf i.v p) (s.issueOf p i.st (.vst f)) f (s.streamOf i p))
      (vstBlocks s i p f).1 }) (x := s.streamOf i p) ?_ rfl _
  exact hcore.trans (congrArg Core.took (setStream_stream_cm (s.core p) _ i.st)).symm

end

theorem lanesPerReg_whole (m : Nat) : lanesPerReg m % 8 = 0 := by
  unfold lanesPerReg
  split <;> rfl

theorem bytesAt_setBytes_apart {m : List Host.Cell} {a off len : Nat} {bs : List Byte} (h : off + len ≤ a ∨ a + bs.length ≤ off) :
    bytesAt (setBytes m a bs) off len = bytesAt m off len := by
  rw [bytesAt_eq_map, bytesAt_eq_map]
  refine List.map_congr_left fun k hk => byteAt_setBytes_of_outside ?_
  have := List.mem_range.1 hk
  omega

/-- Settles O22. -/
theorem vectorMemory : Obligations.VectorMemory := by
  unfold Obligations.VectorMemory
  refine ⟨?_, ?_⟩
  · intro s i f p h n ha hs
    exact issue_vld h ha hs
  · intro s i f p h n fmt len off scl j ha hs
    obtain ⟨t, ht, hcore, hf⟩ := issue_vst h ha fun hm => (hs hm).1
    have hss : (vstBlocks s i p f).1.length = n / 32 := (length_mxOf (s.ctxOf i.v p) (s.issueOf p i.st (.vst f)) f (s.streamOf i p)).1
    have hes := length_storeElems (s.ctxOf i.v p) (s.issueOf p i.st (.vst f)) f (s.streamOf i p)
    refine ⟨t, _, ht, hf, hcore, fun k hk => ?_, fun hm => ?_, fun k hk => ?_⟩
    · have hk' : k < gOf f.g * lanesPerReg f.mode.toNat := hk
      have helem := packedElem_stored (f := fmt) (m := (s.core p).cm) (off := off) hes (lanesPerReg_whole _) hk' fun h6 => by
        rw [storeElems_job hk, if_pos]
        · rfl
        · rw [vstJob, if_pos (mx_of_sextets h h6)]
          exact (BitVec.getLsbD_allOnes ..).trans (decide_eq_true (hk.trans_le (vCount_le ..)))
      rw [storeElems_job hk, Nat.mul_comm (packedBytes fmt _), ← packedBytes_regs] at helem
      have hbytes : bytesAt (vstMem (s.issueOf p i.st (.vst f)) f (s.core p).cm (storeElems (s.ctxOf i.v p) (s.issueOf p i.st (.vst f)) f
          (s.streamOf i p)) (vstBlocks s i p f).1) off len = bytesAt (stored fmt (s.core p).cm off (lanesPerReg f.mode.toNat) (gOf f.g)
          (storeElems (s.ctxOf i.v p) (s.issueOf p i.st (.vst f)) f (s.streamOf i p))) off len := by
        unfold vstMem
        cases hm : f.mx with
        | false => rfl
        | true => exact bytesAt_setBytes_apart (by rw [hss]; exact (hs hm).2)
      rw [hbytes]
      refine helem.trans ?_
      change _ = if (vstJob s i p f).pred.getLsbD k = true then _ else _
      cases (vstJob s i p f).pred.getLsbD k <;> rfl
    · rw [vstMem, if_pos hm]
      exact bytesAt_setBytes_self ..
    · obtain ⟨hoff, hscl⟩ := not_or.1 hk
      have hst : byteAt (stored fmt (s.core p).cm off (lanesPerReg f.mode.toNat) (gOf f.g)
          (storeElems (s.ctxOf i.v p) (s.issueOf p i.st (.vst f)) f (s.streamOf i p))) k = byteAt (s.core p).cm k := by
        rw [byteAt_stored hes, if_neg]
        rw [Nat.mul_comm, ← packedBytes_regs]
        exact hoff
      refine Eq.trans ?_ hst
      unfold vstMem
      cases hm : f.mx with
      | false => rfl
      | true => exact bytesKept_setBytes hss k fun hw => hscl ⟨hm, hw⟩


end Sys2Proof.Machine
end


section
/-! PROOFS. The issue of an instruction of a matrix engine (R143, R184, R383). -/

namespace Sys2Proof.Machine

open Sys2Proof

/-- What an assay closes at a point concerns no core and no register. -/
theorem OnlyCore.passPoint {s w : State} {p : Nat} (h : OnlyCore s w p) (v : Nat) (ks : List Nat) (u st o : Nat) :
    OnlyCore s (w.passPoint v ks u st o) p := by
  obtain ⟨a, f, hw, hf⟩ := passPoint_eq w v ks u st o
  obtain ⟨hc, he, ha⟩ := h
  rw [hw]
  refine ⟨hc, ?_, fun hs => ?_⟩
  · change ({ w with asy := a, free := f } : State) = { s with
      cores := w.cores, stroke := { s.stroke with ordinals := w.stroke.ordinals }, asy := a, free := f }
    rw [he]
  · obtain ⟨h1, h2⟩ := ha hs
    have hwa : w.assaying = false := by
      rw [he]
      unfold State.assaying at hs ⊢
      rw [h1]
      exact hs
    obtain ⟨h3, h4⟩ := hf hwa
    exact ⟨h3.trans h1, h4.trans h2⟩

theorem rget_passPoint (w : State) (v : Nat) (ks : List Nat) (u st o k : Nat) : (w.passPoint v ks u st o).rget k = w.rget k := by
  obtain ⟨a, f, hw, -⟩ := passPoint_eq w v ks u st o
  rw [hw]
  rfl

theorem core_passPoint (w : State) (v : Nat) (ks : List Nat) (u st o p : Nat) : (w.passPoint v ks u st o).core p = w.core p := by
  obtain ⟨a, f, hw, -⟩ := passPoint_eq w v ks u st o
  rw [hw]
  rfl

/-- An instruction of an engine with its ordinal, where it has reached the head of its queue. -/
def Issue.counted (q : Issue) (o : Option Nat) : Issue := { q with prog := { q.prog with ord := o } }

/-- The state in which an instruction of an engine does its work, and the instruction then. -/
theorem reachHead_eq {s w : State} {p : Nat} (h : OnlyCore s w p) (q : Issue) (ho : q.prog.ord = none) : ∃ w' o, w.reachHead p q = (w', q.counted o) ∧
    OnlyCore s w' p ∧ w'.core p = w.core p := by
  have hq : q.counted none = q := by
    unfold Issue.counted
    rw [← ho]
  unfold State.reachHead
  cases engineOf q.op with
  | none => exact ⟨w, none, by rw [hq], h, rfl⟩
  | some e =>
    dsimp only
    split
    · refine ⟨w.bumpOrdinal p e, some (w.ordinal p e), rfl, ?_, rfl⟩
      obtain ⟨hc, he, ha⟩ := h
      refine ⟨hc, ?_, ha⟩
      unfold State.bumpOrdinal
      rw [he]
    · exact ⟨w, none, by rw [hq], h, rfl⟩

/-- The state behind an engine's instruction, of the state its effects have left. -/
def State.leftEngine (w : State) (i : Iss) (p eng k : Nat) : State :=
  ((w.passPoint i.v [1, 2, 3] eng i.st.codeNat k).stepPc p i.st).bumpOrdinal p (4 + i.st.codeNat)

section
variable {s : State} {i : Iss} {op : IsaOp} {p eng : Nat}

theorem OnlyCore.leftEngine {w : State} (h : OnlyCore s w p) (k : Nat) : OnlyCore s (w.leftEngine i p eng k) p := (h.passPoint ..).next

theorem rget_leftEngine (w : State) (k o : Nat) : (w.leftEngine i p eng k).rget o = w.rget o := rget_passPoint ..

theorem core_leftEngine {w : State} {c : Core} (h : w.core p = c.took) (k : Nat) : (w.leftEngine i p eng k).core p = c.goOn i.st :=
  core_next ((core_passPoint ..).trans h)

theorem devHold_of_engine {q : Issue} (he : engineOf q.op = some eng) (w : State) (v : Nat) : w.devHold v p q = false := by
  obtain ⟨_, op, _⟩ := q
  cases op with
  | nsend | nrecv | ncoll => cases he
  | _ => rfl

theorem portGranules_of_engine {q : Issue} (he : engineOf q.op = some eng) (rows : Nat → Nat) : portGranules rows q = 0 := by
  obtain ⟨_, op, _⟩ := q
  cases op with
  | mcopy | nsend | ncoll | gather | scatter => cases he
  | _ => rfl

theorem OnlyCore.ctxOf {w : State} (h : OnlyCore s w p) (v : Nat) : w.ctxOf v p = s.ctxOf v p := by
  obtain ⟨-, he, -⟩ := h
  rw [he]
  rfl

theorem OnlyCore.rowBytes {w : State} (h : OnlyCore s w p) (v : Nat) : w.rowBytes v = s.rowBytes v := by
  obtain ⟨-, he, -⟩ := h
  rw [he]
  rfl

/-- What an instruction of an engine answers when nothing holds it. -/
theorem exec_engine (h : s.canIssue i op p = true) (he : engineOf op = some eng) : ∃ o, ∀ r,
    perform (s.ctxOf i.v p) (s.rowBytes i.v) (s.streamOf i p).pc.toNat ((s.issueOf p i.st op).counted o)
      (.again (s.core p).took ((s.issueOf p i.st op).counted o).prog none true) = .ok r →
    ∃ w k, OnlyCore s w p ∧ w.core p = r.c ∧ exec (cmdOf i op) s = .next ((w.applyAll p i.v r.fx).leftEngine i p eng k) := by
  obtain ⟨-, -, -, -, -, -, -, -, -, hb, hlim, hfin, hd⟩ := (canIssue_iff s i op p).mp h
  obtain ⟨a, f, haf, e⟩ := issueOp_eq h
  have hat : OnlyCore s (s.atIssue p a f) p := by
    refine ⟨fun q hq => core_atIssue_ne s a f hq, rfl, haf⟩
  obtain ⟨w, o, hr, hw, hwc⟩ := reachHead_eq hat (s.issueOf p i.st op) rfl
  refine ⟨o, fun r hp => ⟨w.setCore p r.c, (((s.issueOf p i.st op).counted o).prog.ord.getD 0), hw.setCore _, core_setCore_self .., ?_⟩⟩
  have hperform : perform (w.ctxOf i.v p) (w.rowBytes i.v) (s.streamOf i p).pc.toNat ((s.issueOf p i.st op).counted o)
      (.again (w.core p) ((s.issueOf p i.st op).counted o).prog (rowLimit (w.core p) ((s.issueOf p i.st op).counted o))
        (mayFinish (w.core p) ((s.issueOf p i.st op).counted o))) = .ok r := by
    rw [hwc, core_atIssue, hw.ctxOf, hw.rowBytes]
    exact (congrArg (perform _ _ _ _) (congrArg₂ (Run.again _ _) hlim hfin)).trans hp
  have ht : (s.atIssue p a f).tryPerform i.v p (s.streamOf i p).pc.toNat (s.issueOf p i.st op) =
      (((w.setCore p r.c).applyAll p i.v r.fx).passPoint i.v [1, 2, 3] eng i.st.codeNat
        (((s.issueOf p i.st op).counted o).prog.ord.getD 0), none) := by
    unfold State.tryPerform
    rw [core_atIssue, show blocked (s.core p).took (s.issueOf p i.st op) = false from hb, devHold_of_engine (q := s.issueOf p i.st op) he, hr]
    simp only [Bool.or_self, Bool.false_eq_true, if_false, hperform, portGranules_of_engine (q := (s.issueOf p i.st op).counted o) he,
      show engineOf ((s.issueOf p i.st op).counted o).op = some eng from he, State.bumpPair, if_true]
    rfl
  rw [exec_cmd, e, ht, State.leftEngine]

end

end Sys2Proof.Machine
end


section
/-! PROOFS. Operand rows and MLOAD (R209, R210): O16. -/

namespace Sys2Proof.Machine

open Sys2Proof

/-! ### Reads and writes of a try that goes on -/

/-- A run behind accesses: the same work, the same place, and what it reports when it is done. -/
structure SameTry (r r' : Run) : Prop extends SameWork r r' where
  prog : { r'.prog with log := [] } = { r.prog with log := [] }
  lim : r'.lim = r.lim
  fin : r'.fin = r.fin

theorem SameTry.trans {r r' r'' : Run} (h : SameTry r r') (k : SameTry r' r'') : SameTry r r'' :=
  ⟨h.toSameWork.trans k.toSameWork, k.prog.trans h.prog, k.lim.trans h.lim, k.fin.trans h.fin⟩

theorem SameTry.refl {r : Run} (h : r.old = []) : SameTry r r := ⟨⟨rfl, rfl, h⟩, rfl, rfl, rfl⟩

section
variable {x : Ctx} {q : Issue} {f : Option Fmt} {eng off : Nat}

theorem read_try {len : Nat} (r : Run) (ho : r.old = []) (h : Plain x off len) :
    ∃ r', r.read x q f eng off len = .ok (bytesAt r.c.cm off len, r') ∧ SameTry r r' :=
  ⟨_, read_plain r ho h, ⟨rfl, rfl, ho⟩, rfl, rfl, rfl⟩

theorem write_try {bs : List (Option Byte)} (r : Run) (ho : r.old = []) (h : Plain x off bs.length) :
    ∃ r', r.write x q f eng off bs = .ok r' ∧ SameTry { r with c := { r.c with cm := writeBytes r.c.cm off bs } } r' :=
  ⟨_, write_plain r ho h, ⟨rfl, rfl, ho⟩, rfl, rfl, rfl⟩

end

/-! ### One row of an operand (R209) -/

section
variable {s : State} {i : Iss} {p : Nat} {f : Fmt} {mx : Bool} {a sc : DWord} {pitch n rows : Nat}

theorem block_le {n k : Nat} (hk : k < n) : k / 32 < (n + 31) / 32 := by omega

theorem loadRow_good (h : s.rowsOk i p f mx a pitch sc n rows) {j : Nat} (hj : j < rows) (q : Issue) (eng : Nat) (r : Run) (ho : r.old = [])
    (hcm : r.c.cm = (s.core p).cm) :
    ∃ r', loadRow (s.ctxOf i.v p) q f mx eng a pitch sc n j r = .ok (s.rowEls p f mx a pitch sc n j, r') ∧ SameTry r r' := by
  obtain ⟨⟨hok, hp⟩, hs⟩ := h j hj
  obtain ⟨r₁, hr₁, h₁⟩ := read_try (q := q) (f := some f) (eng := eng) r ho hp
  rw [hcm] at hr₁
  have hok' : cmOk (s.ctxOf i.v p) (refAdd a (j * pitch)) (packedBytes f n) true (alignOf f) = true := hok
  cases mx with
  | false =>
    refine ⟨r₁, ?_, h₁⟩
    unfold loadRow
    simp only [hok', if_true, Bool.false_and, Bool.false_eq_true, if_false]
    change (r.read _ q (some f) eng (refOff (rowRef a pitch j)) _ >>= _) = _
    rw [hr₁]
    rfl
  | true =>
    obtain ⟨hsok, hsp⟩ := hs rfl
    have hsok' : cmOk (s.ctxOf i.v p) (refAdd sc (j * ((n + 31) / 32))) ((n + 31) / 32) true 1 = true := hsok
    obtain ⟨r₂, hr₂, h₂⟩ := read_try (q := q) (f := some .e8m0) (eng := eng) r₁ h₁.fresh hsp
    rw [h₁.core, hcm] at hr₂
    refine ⟨r₂, ?_, h₁.trans h₂⟩
    unfold loadRow
    simp only [hok', hsok', if_true, Bool.true_and]
    change (r.read _ q (some f) eng (refOff (rowRef a pitch j)) _ >>= _) = _
    rw [hr₁]
    change (r₁.read _ q (some .e8m0) eng (refOff (rowRef sc ((n + 31) / 32) j)) _ >>= _) = _
    rw [hr₂]
    refine congrArg (fun l => Except.ok (l, r₂)) (List.map_congr_left fun k hk => ?_)
    have hb : (bytesAt (s.core p).cm (refOff (rowRef sc ((n + 31) / 32) j)) ((n + 31) / 32)).getD (k / 32) 0x7F =
        byteAt (s.core p).cm (refOff (rowRef sc ((n + 31) / 32) j) + k / 32) := by
      rw [bytesAt_eq_map, List.getD_eq_getElem?_getD, List.getElem?_map, List.getElem?_range (block_le (List.mem_range.1 hk))]
      rfl
    rw [hb]
    rfl

theorem badRow_good (h : s.rowsOk i p f mx a pitch sc n rows) {j : Nat} (hj : j < rows) : badRow (s.ctxOf i.v p) f mx a pitch sc n j = none := by
  obtain ⟨⟨hok, -⟩, hs⟩ := h j hj
  have hok' : cmOk (s.ctxOf i.v p) (refAdd a (j * pitch)) (packedBytes f n) true (alignOf f) = true := hok
  unfold badRow
  dsimp only
  rw [hok']
  cases mx with
  | false => rfl
  | true =>
    have hsok' : cmOk (s.ctxOf i.v p) (refAdd sc (j * ((n + 31) / 32))) ((n + 31) / 32) true 1 = true := (hs rfl).1
    rw [hsok']
    rfl

/-- No reference of the operand is out of range. -/
theorem badRows_good (h : s.rowsOk i p f mx a pitch sc n rows) : (List.range rows).findSome? (badRow (s.ctxOf i.v p) f mx a pitch sc n) = none :=
  List.findSome?_eq_none_iff.2 fun _ hj => badRow_good h (List.mem_range.1 hj)

/-! ### The stationary tile (R210) -/

theorem loadCols_good (h : s.rowsOk i p f mx a pitch sc n rows) (q : Issue) (eng : Nat) : ∀ (m j : Nat) (r : Run), j + m ≤ rows → r.old = [] →
    r.c.cm = (s.core p).cm → ∃ r', loadCols (s.ctxOf i.v p) q f mx eng a pitch sc n m j r =
      .ok ((List.range' j m).map (s.rowEls p f mx a pitch sc n), r') ∧ SameTry r r'
  | 0, j, r, _, ho, _ => ⟨r, rfl, .refl ho⟩
  | m + 1, j, r, hm, ho, hcm => by
    obtain ⟨r₁, hr₁, h₁⟩ := loadRow_good h (show j < rows by omega) q eng r ho hcm
    obtain ⟨r₂, hr₂, h₂⟩ := loadCols_good h q eng m (j + 1) r₁ (by omega) h₁.fresh (by rw [h₁.core]; exact hcm)
    refine ⟨r₂, ?_, h₁.trans h₂⟩
    simp only [loadCols, hr₁, hr₂, bind, Except.bind]
    rfl

end

/-- What a key reads as behind a list put at rising keys. -/
theorem tget_putAll {α : Type} [DecidableEq α] (d : α) : ∀ (vs : List α) (t : Tbl α) (k j : Nat),
    tget d (putAll d t k vs) j = if k ≤ j ∧ j < k + vs.length then vs.getD (j - k) d else tget d t j
  | [], t, k, j => by rw [putAll, if_neg (by simp)]
  | v :: vs, t, k, j => by
    rw [putAll, tget_putAll d vs, tget_tset, List.length_cons]
    rcases Nat.lt_trichotomy j k with h | h | h
    · rw [if_neg (by omega), if_neg (by omega), if_neg (by omega)]
    · subst h
      rw [if_neg (by omega), if_pos rfl, if_pos (by omega), Nat.sub_self, List.getD_cons_zero]
    · by_cases hl : j < k + (vs.length + 1)
      · rw [if_pos (by omega), if_pos (by omega), show j - k = (j - (k + 1)) + 1 by omega, List.getD_cons_succ]
      · rw [if_neg (by omega), if_neg (by omega), if_neg (by omega)]

/-- The scales that a column of the tile keeps, one for each block of 32. -/
def colScales (col : List El) : List Byte := (List.range ((col.length + 31) / 32)).map (fun m => ((col.getD (32 * m) ⟨0, none⟩).scale).getD 0)

theorem putCols_cons (e : Engine) (c : Nat) (col : List El) (cols : List (List El)) : putCols e c (col :: cols) =
    putCols { e with elems := putAll 0 e.elems (256 * c) (col.map (·.bits)), scales := putAll 0 e.scales (8 * c) (colScales col) } (c + 1) cols := rfl

theorem putCols_only : ∀ (cols : List (List El)) (e : Engine) (c : Nat), putCols e c cols =
    { e with elems := (putCols e c cols).elems, scales := (putCols e c cols).scales }
  | [], _, _ => rfl
  | col :: cols, e, c => by rw [putCols_cons, putCols_only cols]

/-- The elements and scales of the columns behind a load of them. -/
theorem tget_putCols {n : Nat} (h256 : n ≤ 256) : ∀ (cols : List (List El)) (e : Engine) (c0 c kk : Nat), (∀ col ∈ cols, col.length = n) → kk < n →
    (tget 0 (putCols e c0 cols).elems (256 * c + kk) = if c0 ≤ c ∧ c < c0 + cols.length then ((cols.getD (c - c0) []).map (·.bits)).getD kk 0
      else tget 0 e.elems (256 * c + kk)) ∧
    (tget 0 (putCols e c0 cols).scales (8 * c + kk / 32) = if c0 ≤ c ∧ c < c0 + cols.length then (colScales (cols.getD (c - c0) [])).getD (kk / 32) 0
      else tget 0 e.scales (8 * c + kk / 32))
  | [], e, c0, c, kk, _, _ => by
    rw [if_neg (by simp), if_neg (by simp)]
    exact ⟨rfl, rfl⟩
  | col :: cols, e, c0, c, kk, hl, hkk => by
    have hlen : col.length = n := hl col List.mem_cons_self
    obtain ⟨h1, h2⟩ := tget_putCols h256 cols { e with elems := putAll 0 e.elems (256 * c0) (col.map (·.bits)), scales := putAll 0 e.scales (8 * c0) (colScales col) }
      (c0 + 1) c kk (fun col hc => hl col (List.mem_cons_of_mem _ hc)) hkk
    have hsl : (colScales col).length = (n + 31) / 32 := by rw [colScales, List.length_map, List.length_range, hlen]
    rw [putCols_cons, h1, h2, tget_putAll, tget_putAll, List.length_map, hlen, hsl, List.length_cons]
    rcases Nat.lt_trichotomy c c0 with h | h | h
    · rw [if_neg (by omega), if_neg (by omega), if_neg (by omega), if_neg (by omega), if_neg (by omega), if_neg (by omega)]
      exact ⟨rfl, rfl⟩
    · subst h
      have hno : ¬ (c + 1 ≤ c ∧ c < c + 1 + cols.length) := by omega
      have he : 256 * c ≤ 256 * c + kk ∧ 256 * c + kk < 256 * c + n := by omega
      have hs : 8 * c ≤ 8 * c + kk / 32 ∧ 8 * c + kk / 32 < 8 * c + (n + 31) / 32 := by omega
      have hyes : c ≤ c ∧ c < c + (cols.length + 1) := by omega
      simp only [if_neg hno, if_pos he, if_pos hs, if_pos hyes, Nat.add_sub_cancel_left, Nat.sub_self, List.getD_cons_zero, and_self]
    · rw [if_neg (show ¬ (256 * c0 ≤ 256 * c + kk ∧ 256 * c + kk < 256 * c0 + n) by omega),
        if_neg (show ¬ (8 * c0 ≤ 8 * c + kk / 32 ∧ 8 * c + kk / 32 < 8 * c0 + (n + 31) / 32) by omega), show c - c0 = (c - (c0 + 1)) + 1 by omega,
        List.getD_cons_succ]
      by_cases hc : c < c0 + (cols.length + 1)
      · rw [if_pos (by omega), if_pos (by omega), if_pos (by omega), if_pos (by omega)]
        exact ⟨rfl, rfl⟩
      · rw [if_neg (by omega), if_neg (by omega), if_neg (by omega), if_neg (by omega)]
        exact ⟨rfl, rfl⟩

/-- The elements of a tile loaded from the rows of an operand. -/
theorem el_putCols {s : State} {p : Nat} {f : Fmt} {mx : Bool} {a sc : DWord} {pitch k n c kk : Nat} (h256 : k ≤ 256) {e : Engine} (hm : e.mx = mx)
    (hc : c < n) (hk : kk < k) : (putCols e 0 ((List.range' 0 n).map (s.rowEls p f mx a pitch sc k))).el kk c = s.rowEl p f mx a pitch sc k c kk := by
  have hcols : ∀ col ∈ (List.range' 0 n).map (s.rowEls p f mx a pitch sc k), col.length = k := by
    intro col hcol
    obtain ⟨j, -, rfl⟩ := List.mem_map.1 hcol
    rw [State.rowEls, List.length_map, List.length_range]
  obtain ⟨h1, h2⟩ := tget_putCols h256 _ e 0 c kk hcols hk
  have hin : 0 ≤ c ∧ c < 0 + ((List.range' 0 n).map (s.rowEls p f mx a pitch sc k)).length := by
    rw [List.length_map, List.length_range']
    omega
  have hcol : ((List.range' 0 n).map (s.rowEls p f mx a pitch sc k)).getD (c - 0) [] = s.rowEls p f mx a pitch sc k c := by
    rw [List.getD_eq_getElem?_getD, List.getElem?_map, ← List.range_eq_range', Nat.sub_zero, List.getElem?_range hc]
    rfl
  rw [if_pos hin, hcol] at h1 h2
  have hbits : ((s.rowEls p f mx a pitch sc k c).map (·.bits)).getD kk 0 = (s.rowEl p f mx a pitch sc k c kk).bits := by
    rw [State.rowEls, List.map_map, List.getD_eq_getElem?_getD, List.getElem?_map, List.getElem?_range hk]
    rfl
  have hmx : (putCols e 0 ((List.range' 0 n).map (s.rowEls p f mx a pitch sc k))).mx = mx := by
    rw [putCols_only]
    exact hm
  unfold Engine.el
  rw [h1, h2, hmx, hbits]
  cases mx with
  | false => rfl
  | true =>
    have hscale : (colScales (s.rowEls p f true a pitch sc k c)).getD (kk / 32) 0 =
        byteAt (s.core p).cm (refOff (rowRef sc ((k + 31) / 32) c) + kk / 32) := by
      unfold colScales
      rw [List.getD_eq_getElem?_getD, List.getElem?_map, State.rowEls, List.length_map, List.length_range, List.getElem?_range (block_le hk)]
      rw [Option.map_some, Option.getD_some, List.getD_eq_getElem?_getD, List.getElem?_map, List.getElem?_range (show 32 * (kk / 32) < k by omega)]
      change byteAt _ (_ + 32 * (kk / 32) / 32) = _
      rw [Nat.mul_div_cancel_left _ (by decide)]
    rw [hscale]
    rfl

/-! ### MLOAD (R210) -/

/-- One more counter rises. -/
theorem CoreAndRegs.bumpPair {s w : State} {p : Nat} {b : Nat → Prop} (h : CoreAndRegs s w p b) (lo n : Nat) :
    CoreAndRegs s (w.bumpPair lo n) p (fun o => b o ∨ pairAt lo o) ∧ (¬ b lo → ¬ b (lo + 4) → PairRose s (w.bumpPair lo n) lo n) := by
  obtain ⟨hk, ho⟩ := h
  obtain ⟨⟨hk', ho'⟩, -⟩ := ho.bumpPair lo n
  have hr := rose_bumpPair w lo n
  refine ⟨⟨(hk.mono fun _ => .inl).trans ((kept_bumpPair w lo n).mono fun _ => .inr), ho'⟩, fun h0 h4 => ?_⟩
  unfold PairRose at hr ⊢
  rw [hr, rpair_of_kept hk h0 h4]

theorem CoreAndRegs.leftEngine {s w : State} {i : Iss} {p eng k : Nat} {b : Nat → Prop} (h : CoreAndRegs s w p b) :
    CoreAndRegs s (w.leftEngine i p eng k) p b := by
  obtain ⟨hk, ho⟩ := h
  refine ⟨fun o hb => (rget_leftEngine ..).trans (hk o hb), ?_⟩
  have hregs : (w.leftEngine i p eng k).regs = w.regs := by
    obtain ⟨a, f, hw, -⟩ := passPoint_eq w i.v [1, 2, 3] eng i.st.codeNat k
    unfold State.leftEngine
    rw [hw]
    rfl
  rw [hregs]
  exact ho.leftEngine k

theorem pairRose_leftEngine {s w : State} {i : Iss} {p eng k lo n : Nat} (h : PairRose s w lo n) : PairRose s (w.leftEngine i p eng k) lo n := by
  unfold PairRose State.rpair at *
  rw [rget_leftEngine, rget_leftEngine]
  exact h

section
variable {s : State} {i : Iss} {x : FmtMload} {p : Nat}

/-- The tile behind an MLOAD. -/
def loadedTile (s : State) (i : Iss) (p : Nat) (x : FmtMload) : Engine :=
  putCols { (s.core p).engine x.eng.toNat with
      tag := some (formatOf x.fmt), mx := x.mx, pieces := x.pieces.toNat, k := x.k1.toNat + 1, n := x.n1.toNat + 1, elems := [], scales := [] } 0
    ((List.range' 0 (x.n1.toNat + 1)).map (s.rowEls p (formatOf x.fmt) x.mx (s.scalarOf i p x.sa) (s.pitchAt i p x.sb) (s.scalarOf i p x.sc)
      (x.k1.toNat + 1)))

theorem doMload_good (h : s.rowsOk i p (formatOf x.fmt) x.mx (s.scalarOf i p x.sa) (s.pitchAt i p x.sb) (s.scalarOf i p x.sc) (x.k1.toNat + 1)
    (x.n1.toNat + 1)) {q : Issue} (hq : ∀ k, q.s k = s.scalarOf i p k) {r : Run} (ho : r.old = []) (hf : r.fin = true) (hc : r.c = (s.core p).took) :
    ∃ r', doMload (s.ctxOf i.v p) q x r = .ok r' ∧ r'.c = ((s.core p).setEngine x.eng.toNat (loadedTile s i p x)).took ∧
      r'.fx = r.fx ++ [.meWave x.eng.toNat 64, .mePlan x.eng.toNat 64] := by
  have hpitch : pitchOf q x.sb = s.pitchAt i p x.sb := by rw [pitchOf, hq, State.pitchAt]
  obtain ⟨r₁, hr₁, h₁⟩ := loadCols_good h q x.eng.toNat (x.n1.toNat + 1) 0 r (by omega) ho (by rw [hc]; rfl)
  have heng : r₁.c.engine x.eng.toNat = (s.core p).engine x.eng.toNat := by rw [h₁.core, hc]; rfl
  have hset : r₁.c.setEngine x.eng.toNat (loadedTile s i p x) = ((s.core p).setEngine x.eng.toNat (loadedTile s i p x)).took := by
    rw [h₁.core, hc]
    rfl
  refine ⟨(Run.emit { r₁ with c := r₁.c.setEngine x.eng.toNat (loadedTile s i p x) } (.meWave x.eng.toNat 64)).emit (.mePlan x.eng.toNat 64), ?_, hset, ?_⟩
  · unfold doMload
    simp only [hq, hpitch]
    change (loadCols (s.ctxOf i.v p) q (formatOf x.fmt) x.mx x.eng.toNat (s.scalarOf i p x.sa) (s.pitchAt i p x.sb) (s.scalarOf i p x.sc)
      (x.k1.toNat + 1) (x.n1.toNat + 1) 0 r >>= _) = _
    rw [hr₁]
    change (if (!r₁.fin) = true then _ else Except.ok (((Run.noteBad _ q ((List.range (x.n1.toNat + 1)).findSome? (badRow (s.ctxOf i.v p)
      (formatOf x.fmt) x.mx (s.scalarOf i p x.sa) (s.pitchAt i p x.sb) (s.scalarOf i p x.sc) (x.k1.toNat + 1)))).emit _).emit _)) = _
    rw [h₁.fin, hf, badRows_good h, heng]
    rfl
  · change (r₁.fx ++ [_]) ++ [_] = _
    rw [h₁.fx, List.append_assoc]
    rfl

end

theorem ktOf_le (f : Fmt) : ktOf f ≤ 256 := by cases f <;> decide

/-- Settles O16. -/
theorem stationaryLoad : Obligations.StationaryLoad := by
  unfold Obligations.StationaryLoad
  intro s i x p h f k n el hrows
  have h256 : k ≤ 256 := by
    obtain ⟨-, -, -, hl, -⟩ := (canIssue_iff s i _ p).mp h
    have hl : okMload x = true := hl
    unfold okMload at hl
    cases hf : Fmt.ofCode x.fmt with
    | none => rw [hf] at hl; cases hl
    | some g =>
      rw [hf] at hl
      exact (of_decide_eq_true (Bool.and_eq_true_iff.1 hl).2).trans (ktOf_le g)
  obtain ⟨o, ex⟩ := exec_engine (eng := x.eng.toNat) h rfl
  obtain ⟨r, hr, hc, hfx⟩ := doMload_good hrows (q := (s.issueOf p i.st (.mload x)).counted o) (fun _ => rfl)
    (r := .again (s.core p).took ((s.issueOf p i.st (.mload x)).counted o).prog none true) rfl rfl rfl
  obtain ⟨w, kk, hw, hwc, hex⟩ := ex r hr
  obtain ⟨hwave, hrose⟩ := hw.bumpPair (Reg.meWaveCycLo p x.eng.toNat) 64
  obtain ⟨hboth, hplan⟩ := hwave.bumpPair (Reg.mePlanCycLo p x.eng.toNat) 64
  have hplan := hplan (by unfold pairAt Reg.meWaveCycLo Reg.mePlanCycLo; omega) (by unfold pairAt Reg.meWaveCycLo Reg.mePlanCycLo; omega)
  have hrose : PairRose s ((w.bumpPair (Reg.meWaveCycLo p x.eng.toNat) 64).bumpPair (Reg.mePlanCycLo p x.eng.toNat) 64)
      (Reg.meWaveCycLo p x.eng.toNat) 64 :=
    (rpair_of_kept (kept_bumpPair _ _ _) (by unfold pairAt Reg.meWaveCycLo Reg.mePlanCycLo; omega)
      (by unfold pairAt Reg.meWaveCycLo Reg.mePlanCycLo; omega)).trans hrose
  rw [hfx] at hex
  refine ⟨_, loadedTile s i p x, hex, hboth.leftEngine, pairRose_leftEngine hrose, pairRose_leftEngine hplan, core_leftEngine ?_ _, ?_, ?_, ?_, ?_, ?_,
    ?_, ?_, fun c hc kk hkk => el_putCols h256 rfl hc hkk⟩
  · change ((w.bumpPair (Reg.meWaveCycLo p x.eng.toNat) 64).bumpPair (Reg.mePlanCycLo p x.eng.toNat) 64).core p = _
    rw [core_bumpPair, core_bumpPair]
    exact hwc.trans hc
  all_goals
    rw [loadedTile, putCols_only]

end Sys2Proof.Machine
end


section
/-! PROOFS. MDRAIN (R141, R213): O18. -/

namespace Sys2Proof.Machine

open Sys2Proof

/-! ### The bytes of a drained row (R213) -/

/-- Rows of scales and data that grow evenly. -/
theorem foldr_lengths {α : Type} {step : α → List Byte × List Byte × Flg → List Byte × List Byte × Flg} {a d : Nat}
    (h : ∀ x n acc, acc.1.length = a * n → acc.2.1.length = d * n →
      (step x acc).1.length = a * (n + 1) ∧ (step x acc).2.1.length = d * (n + 1)) (l : List α) :
    (l.foldr step ([], [], 0)).1.length = a * l.length ∧ (l.foldr step ([], [], 0)).2.1.length = d * l.length := by
  induction l with
  | nil => exact ⟨rfl, rfl⟩
  | cons x l ih => exact h x l.length _ ih.1 ih.2

/-- The scales and the data of a row have the lengths that its references are checked for. -/
theorem length_drainRow {f : Fmt} {mx : Bool} (mode : RMode) (sat rule : Bool) (r : Nat → Word) (v : List Word)
    (hm : mx = true → f = .e4m3 ∨ f = .e5m2) :
    (drainRow f mx mode sat rule r v).1.length = (if mx then (v.length + 31) / 32 else 0) ∧
    (drainRow f mx mode sat rule r v).2.1.length = (if mx then 32 * ((v.length + 31) / 32) else v.length * (f.width / 8)) := by
  unfold drainRow
  split
  next h =>
    have hmx : mx = false := by
      cases mx with
      | false => rfl
      | true => rcases hm rfl with rfl | rfl <;> simp at h
    have hw : f.width / 8 = 4 := by rcases h with rfl | rfl <;> rfl
    rw [hmx, if_neg Bool.false_ne_true, if_neg Bool.false_ne_true, hw, length_flatMap_leBytes, Nat.mul_comm]
    exact ⟨rfl, rfl⟩
  next h =>
    cases mx with
    | true =>
      rw [if_pos rfl, if_pos rfl, if_pos rfl]
      have hl := foldr_lengths (a := 1) (d := 32) (step := fun b acc =>
        let xs := (List.range 32).map (fun k => match v[32 * b + k]? with
          | some w => decodeFloat .fp32 w
          | none => ⟨.fin, false, Dy.zero⟩)
        let (s, es, fl) := mxEncode f xs rule mode (fun k => r (32 * b + k))
        (s :: acc.1, es.flatMap (fun w => leBytes 1 w.toNat) ++ acc.2.1, fl ||| acc.2.2)) (fun b n acc h1 h2 => by
          dsimp only
          rw [List.length_append, length_flatMap_leBytes, length_mxEncode, List.length_map, List.length_range, List.length_cons, h1, h2]
          omega) (List.range ((v.length + 31) / 32))
      rw [List.length_range, Nat.one_mul] at hl
      exact hl
    | false =>
      rw [if_neg Bool.false_ne_true, if_neg Bool.false_ne_true, if_neg Bool.false_ne_true]
      have hl := foldr_lengths (a := 0) (d := f.width / 8) (step := fun (p : Word × Nat) acc =>
        let (w, fl) := roundFloat f (decodeFloat .fp32 p.1) mode sat false (r p.2)
        ([], leBytes (f.width / 8) w.toNat ++ acc.2.1, fl ||| acc.2.2)) (fun p n acc h1 h2 => by
          dsimp only
          rw [List.length_append, length_leBytes, h2, Nat.mul_succ, Nat.zero_mul]
          exact ⟨rfl, Nat.add_comm ..⟩) v.zipIdx
      rw [List.length_zipIdx, Nat.zero_mul, Nat.mul_comm] at hl
      exact hl

/-! ### Rows to memory -/

theorem SameTry.pos {r r' : Run} (h : SameTry r r') : r'.prog.pos = r.prog.pos := by
  have := congrArg Progress.pos h.prog
  exact this

theorem SameTry.fl {r r' : Run} (h : SameTry r r') : r'.prog.fl = r.prog.fl := by
  have := congrArg Progress.fl h.prog
  exact this

theorem setBytes_nil (m : List Host.Cell) (a : Nat) : setBytes m a [] = m := rfl

/-- A row of a drain lands, or there is none. -/
theorem writeRow_good {x : Ctx} {q : Issue} {f : Fmt} {eng align : Nat} {a : DWord} {bs : List Byte} (r : Run) (ho : r.old = [])
    (h : bs ≠ [] → cmOk x a bs.length true align = true ∧ Plain x (refOff a) bs.length) :
    ∃ r', writeRow x q f eng a align bs r = .ok r' ∧ SameTry { r with c := { r.c with cm := setBytes r.c.cm (refOff a) bs } } r' := by
  unfold writeRow
  cases bs with
  | nil => exact ⟨r, rfl, .refl ho⟩
  | cons b bs =>
    obtain ⟨hok, hp⟩ := h (List.cons_ne_nil _ _)
    obtain ⟨r', hr, hs⟩ := write_try (q := q) (f := some f) (eng := eng) (bs := (b :: bs).map some) r ho (by rw [List.length_map]; exact hp)
    rw [writeBytes_some] at hs
    rw [hok, List.isEmpty_cons]
    exact ⟨r', hr, hs⟩

section
variable {x : Ctx} {q : Issue} {f : FmtMdrain} {e : Engine}

/-- Memory behind row `j` of a drain. -/
def drainMem (x : Ctx) (q : Issue) (f : FmtMdrain) (e : Engine) (m : List Host.Cell) (j : Nat) : List Host.Cell :=
  setBytes (setBytes m (refOff (drainDst q f j)) (drainedRow x q f j e).2.1) (refOff (drainScl q f j)) (drainedRow x q f j e).1

/-- The references of row `j` are good and meet no HANDOFF region. -/
def DrainOk (x : Ctx) (q : Issue) (f : FmtMdrain) (e : Engine) (j : Nat) : Prop :=
  ((drainedRow x q f j e).2.1 ≠ [] → cmOk x (drainDst q f j) (drainedRow x q f j e).2.1.length true (drainAlign f j) = true ∧
    Plain x (refOff (drainDst q f j)) (drainedRow x q f j e).2.1.length) ∧
  ((drainedRow x q f j e).1 ≠ [] → cmOk x (drainScl q f j) (drainedRow x q f j e).1.length true 1 = true ∧
    Plain x (refOff (drainScl q f j)) (drainedRow x q f j e).1.length)

theorem drainRows_good : ∀ (m : Nat) (r : Run), r.old = [] → r.lim = none → r.c.engine f.eng.toNat = e →
    (∀ j, r.prog.pos ≤ j → j < r.prog.pos + m → DrainOk x q f e j) →
    ∃ r', drainRows x q f m r = .ok r' ∧ r'.fx = r.fx ∧
      r'.c = { r.c with cm := (List.range' r.prog.pos m).foldl (drainMem x q f e) r.c.cm } ∧
      r'.prog.fl = (List.range' r.prog.pos m).foldl (fun fl j => fl ||| (drainedRow x q f j e).2.2) r.prog.fl
  | 0, r, _, _, _, _ => ⟨r, rfl, rfl, rfl, rfl⟩
  | m + 1, r, ho, hl, he, hok => by
    obtain ⟨hd, hs⟩ := hok r.prog.pos (Nat.le_refl _) (by omega)
    obtain ⟨r₁, hr₁, h₁⟩ := writeRow_good (q := q) (f := (Fmt.ofCode f.fmt).getD .fp32) (eng := f.eng.toNat) r ho hd
    obtain ⟨r₂, hr₂, h₂⟩ := writeRow_good (q := q) (f := .e8m0) (eng := f.eng.toNat) r₁ h₁.fresh hs
    have hpos : r₂.prog.pos = r.prog.pos := h₂.pos.trans h₁.pos
    have hfl : r₂.prog.fl = r.prog.fl := h₂.fl.trans h₁.fl
    have hc₂ : r₂.c = { r.c with cm := drainMem x q f e r.c.cm r.prog.pos } := by
      rw [h₂.core, h₁.core]
      rfl
    obtain ⟨r₃, hr₃, hfx₃, hc₃, hfl₃⟩ := drainRows_good m ((r₂.tally (drainedRow x q f r.prog.pos e).2.2 [] (fun _ => []) []).rowDone) h₂.fresh
      (h₂.lim.trans (h₁.lim.trans hl)) (by change r₂.c.engine _ = e; rw [hc₂]; exact he)
      (by change ∀ j, r₂.prog.pos + 1 ≤ j → j < r₂.prog.pos + 1 + m → _; rw [hpos]; exact fun j h h' => hok j (by omega) (by omega))
    change r₃.c = { r₂.c with cm := (List.range' (r₂.prog.pos + 1) m).foldl (drainMem x q f e) r₂.c.cm } at hc₃
    change r₃.prog.fl = (List.range' (r₂.prog.pos + 1) m).foldl _ (r₂.prog.fl ||| (drainedRow x q f r.prog.pos e).2.2) at hfl₃
    refine ⟨r₃, ?_, hfx₃.trans (h₂.fx.trans h₁.fx), ?_, ?_⟩
    · have hmay : (!r.mayTake) = false := by rw [Run.mayTake, hl]; rfl
      unfold drainRows
      rw [hmay, if_neg Bool.false_ne_true]
      dsimp only
      rw [he]
      change (writeRow x q _ _ (drainDst q f r.prog.pos) _ (drainedRow x q f r.prog.pos e).2.1 r >>= _) = _
      rw [hr₁]
      change (writeRow x q _ _ (drainScl q f r.prog.pos) _ (drainedRow x q f r.prog.pos e).1 r₁ >>= _) = _
      rw [hr₂]
      exact hr₃
    · rw [hc₃, hc₂, hpos, List.range'_succ, List.foldl_cons]
    · rw [hfl₃, hfl, hpos, List.range'_succ, List.foldl_cons]

theorem doMdrain_good {r : Run} (ho : r.old = []) (hl : r.lim = none) (hpos : r.prog.pos = 0) (hf : r.prog.fl = 0) (he : r.c.engine f.eng.toNat = e)
    (ht : tileAdmits (tget .none e.tileFmt f.tile.toNat) ((Fmt.ofCode f.fmt).getD .fp32) = true) (hok : ∀ j < f.r1.toNat + 1, DrainOk x q f e j)
    (hbad : ∀ j < f.r1.toNat + 1, drainBad x q f j = none) : ∃ r' : Run, r'.fx = r.fx ∧
      r'.c = { r.c with cm := (List.range (f.r1.toNat + 1)).foldl (drainMem x q f e) r.c.cm } ∧
      doMdrain x q f r = .ok (r'.raiseFlags q ((List.range (f.r1.toNat + 1)).foldl (fun fl j => fl ||| (drainedRow x q f j e).2.2) 0)) := by
  obtain ⟨r', hr, hfx, hc, hfl⟩ := drainRows_good (f.r1.toNat + 1) r ho hl he (by rw [hpos]; exact fun j _ h => hok j (by omega))
  rw [hpos, ← List.range_eq_range'] at hc hfl
  rw [hf] at hfl
  refine ⟨r', hfx, hc, ?_⟩
  have hgood : (List.range (f.r1.toNat + 1)).findSome? (drainBad x q f) = none :=
    List.findSome?_eq_none_iff.2 fun j hj => hbad j (List.mem_range.1 hj)
  unfold doMdrain
  dsimp only
  rw [he, if_neg (by rw [ht]; simp), hpos, Nat.sub_zero, hr]
  change Except.ok ((r'.noteBad q _).raiseFlags q r'.prog.fl) = _
  rw [hgood, hfl]
  rfl

end

/-! ### The obligation -/

theorem OnlyCore.noRegs {s w : State} {p : Nat} (h : OnlyCore s w p) : CoreAndRegs s w p (fun _ => False) := by
  refine ⟨fun o _ => h.rget o, h.1, ?_, h.2.2⟩
  obtain ⟨-, he, -⟩ := h
  rw [he]

theorem raiseFlags_fx_bare (r : Run) (i : Issue) (fl : Flg) : (r.raiseFlags i fl).fx = r.fx ++ if fl = 0 then [] else [.flags fl] := by
  unfold Run.raiseFlags
  split
  · exact (List.append_nil _).symm
  · rfl

/-- MX rows are of the two formats of eight bits. -/
theorem mx_of_drain {s : State} {i : Iss} {x : FmtMdrain} {p : Nat} (h : s.canIssue i (.mdrain x) p = true) (hm : x.mx = true) :
    formatOf x.fmt = .e4m3 ∨ formatOf x.fmt = .e5m2 := by
  obtain ⟨-, -, -, hl, -⟩ := (canIssue_iff s i _ p).mp h
  have hl : okMdrain x = true := hl
  unfold okMdrain at hl
  unfold formatOf
  cases hf : Fmt.ofCode x.fmt with
  | none => rw [hf] at hl; cases hl
  | some g =>
    rw [hf] at hl
    simp only [hm, Bool.not_true, Bool.false_or, Bool.and_eq_true, Bool.or_eq_true, beq_iff_eq] at hl
    exact hl.1.2

/-- Settles O18. -/
theorem drainedRows : Obligations.DrainedRows := by
  unfold Obligations.DrainedRows
  intro s i x p h f e a pitch sz row dst scl htile hdst hscl
  obtain ⟨o, ex⟩ := exec_engine (eng := x.eng.toNat) h rfl
  have hlen : ∀ j, (row j).1.length = (if x.mx then (x.n1.toNat + 1 + 31) / 32 else 0) ∧
      (row j).2.1.length = (if x.mx then 32 * ((x.n1.toNat + 1 + 31) / 32) else (x.n1.toNat + 1) * (f.width / 8)) := fun j => by
    have hl := length_drainRow (modeOf2 x.rmode.toNat) x.sat x.rule (fun k => seedBits (BitVec.ofNat 64 (s.rpair Reg.numSeedLo)) s.stroke.step
        ((s.scalarOf i p x.sc).truncate 32) ((s.scalarOf i p x.sb).toNat % 2 ^ 48 + j * pitch + k))
      ((List.range (x.n1.toNat + 1)).map (fun k => tget 0 e.tiles (tileKey x.tile.toNat j k))) (mx_of_drain h)
    rw [List.length_map, List.length_range] at hl
    exact hl
  have hok : ∀ j < x.r1.toNat + 1, DrainOk (s.ctxOf i.v p) ((s.issueOf p i.st (.mdrain x)).counted o) x e j := fun j hj => by
    refine ⟨fun _ => hdst j (Nat.le_of_lt_succ hj), fun hne => hscl ?_ j (Nat.le_of_lt_succ hj)⟩
    cases hm : x.mx with
    | true => rfl
    | false =>
      have h0 := (hlen j).1
      rw [hm, if_neg Bool.false_ne_true] at h0
      exact absurd (List.length_eq_zero_iff.1 h0) hne
  have hbad : ∀ j < x.r1.toNat + 1, drainBad (s.ctxOf i.v p) ((s.issueOf p i.st (.mdrain x)).counted o) x j = none := fun j hj => by
    have hd := (hdst j (Nat.le_of_lt_succ hj)).1
    rw [(hlen j).2] at hd
    unfold drainBad
    dsimp only
    rw [show cmOk (s.ctxOf i.v p) (drainDst ((s.issueOf p i.st (.mdrain x)).counted o) x j) (if x.mx then 32 * ((x.n1.toNat + 1 + 31) / 32) else
      (x.n1.toNat + 1) * (((Fmt.ofCode x.fmt).getD .fp32).width / 8)) true (drainAlign x j) = true from hd]
    cases hm : x.mx with
    | false => rfl
    | true =>
      have hs := (hscl hm j (Nat.le_of_lt_succ hj)).1
      rw [(hlen j).1, hm, if_pos rfl] at hs
      rw [show cmOk (s.ctxOf i.v p) (drainScl ((s.issueOf p i.st (.mdrain x)).counted o) x j) ((x.n1.toNat + 1 + 31) / 32) true 1 = true from hs]
      rfl
  obtain ⟨r', hfx, hc, hr⟩ := doMdrain_good (q := (s.issueOf p i.st (.mdrain x)).counted o)
    (r := .again (s.core p).took ((s.issueOf p i.st (.mdrain x)).counted o).prog none true) rfl rfl rfl rfl rfl htile hok hbad
  obtain ⟨w, k, hw, hwc, hex⟩ := ex _ hr
  have hcore := raiseFlags_c (i := (s.issueOf p i.st (.mdrain x)).counted o) (c := { s.core p with
    cm := (List.range (x.r1.toNat + 1)).foldl (drainMem (s.ctxOf i.v p) ((s.issueOf p i.st (.mdrain x)).counted o) x e) (s.core p).cm })
    (hc.trans (congrArg Core.took (setStream_stream_cm (s.core p) _ i.st)).symm) rfl
    ((List.range (x.r1.toNat + 1)).foldl (fun fl j => fl ||| (row j).2.2) 0)
  have hw' := WorkedAs.flagged ⟨hw, hwc.trans hcore⟩ i.v ((List.range (x.r1.toNat + 1)).foldl (fun fl j => fl ||| (row j).2.2) 0)
  rw [raiseFlags_fx_bare, hfx] at hex
  refine ⟨_, hex, ?_, core_leftEngine hw'.core k⟩
  obtain ⟨hk, ho⟩ := (hw'.only.leftEngine (i := i) (eng := x.eng.toNat) k).noRegs.of_flagged
  exact ⟨hk.mono fun _ h => h.resolve_right id, ho⟩

end Sys2Proof.Machine
end


section
/-! PROOFS. MEW (R144, R214): O19. -/

namespace Sys2Proof.Machine

open Sys2Proof

/-! ### Elements of whole bytes (R85) -/

theorem getD_bytesAt (m : List Host.Cell) (off : Nat) {n b : Nat} (h : b < n) : (bytesAt m off n).getD b 0 = byteAt m (off + b) := by
  rw [bytesAt_eq_map, List.getD_eq_getElem?_getD, List.getElem?_map, List.getElem?_range h]
  rfl

theorem packedBytes_whole {f : Fmt} {sz : Nat} (hf : f.width = 8 * sz) (n : Nat) : packedBytes f n = sz * n := by
  unfold packedBytes
  rw [hf, Nat.mul_left_comm, Nat.mul_comm n]
  omega

/-- An element of a part of packed data is that element of the whole. -/
theorem packedElem_slice {f : Fmt} {sz : Nat} (hf : f.width = 8 * sz) {m m' : List Host.Cell} {off a c n k : Nat} (hk : k < c) (ha : a + c ≤ n)
    (hm : ∀ b, within off (packedBytes f n) b → byteAt m' b = byteAt m b) :
    packedElem f (bytesAt m' (off + packedBytes f a) (packedBytes f c)) k = packedElem f (bytesAt m off (packedBytes f n)) (a + k) := by
  refine BitVec.eq_of_getLsbD_eq fun j _ => ?_
  rw [getLsbD_packedElem, getLsbD_packedElem]
  by_cases hj : j < f.width
  · have hb : (f.width * k + j) / 8 = sz * k + j / 8 := by rw [hf, Nat.mul_assoc]; omega
    have hb' : (f.width * (a + k) + j) / 8 = sz * a + (sz * k + j / 8) := by rw [hf, Nat.mul_assoc, Nat.mul_add]; omega
    have hr : (f.width * (a + k) + j) % 8 = (f.width * k + j) % 8 := by rw [hf, Nat.mul_assoc, Nat.mul_assoc]; omega
    have h1 : sz * (k + 1) ≤ sz * c := Nat.mul_le_mul_left _ hk
    have h2 : sz * (a + c) ≤ sz * n := Nat.mul_le_mul_left _ ha
    rw [Nat.mul_succ] at h1
    rw [Nat.mul_add] at h2
    have hlt : j / 8 < sz := by omega
    rw [packedBytes_whole hf, packedBytes_whole hf, packedBytes_whole hf, hb, hb', hr, getD_bytesAt _ _ (show sz * k + j / 8 < sz * c by omega),
      getD_bytesAt _ _ (show sz * a + (sz * k + j / 8) < sz * n by omega), Nat.add_assoc, hm]
    rw [packedBytes_whole hf]
    unfold within
    omega
  · rw [decide_eq_false hj, Bool.false_and, Bool.and_false, Bool.false_and, Bool.and_false]

theorem foldl_or {α : Type} (g : α → Flg) (l : List α) : ∀ x : Flg, l.foldl (fun a p => a ||| g p) x = x ||| l.foldl (fun a p => a ||| g p) 0 := by
  induction l with
  | nil => exact fun x => (BitVec.or_zero ..).symm
  | cons p l ih => intro x; rw [List.foldl_cons, ih, List.foldl_cons, ih (0 ||| g p), show (0 : Flg) ||| g p = g p from BitVec.zero_or, BitVec.or_assoc]

theorem length_flatMap_word {α : Type} (sz : Nat) (g : α → Word) (l : List α) : (l.flatMap (fun k => leBytes sz (g k).toNat)).length = sz * l.length := by
  have h := length_flatMap_leBytes sz (l.map g)
  rwa [List.flatMap_map, List.length_map] at h

/-! ### Group after group (R214) -/

theorem SameTry.zi {r r' : Run} (h : SameTry r r') : r'.prog.ziFirst = r.prog.ziFirst := by
  have := congrArg Progress.ziFirst h.prog
  exact this

theorem SameTry.res {r r' : Run} (h : SameTry r r') : r'.prog.res = r.prog.res := by
  have := congrArg Progress.res h.prog
  exact this

/-- What a run reports is what it was, but for its flags. -/
structure SameReport (r r' : Run) : Prop where
  fx : r'.fx = r.fx
  fresh : r'.old = []
  zi : r'.prog.ziFirst = r.prog.ziFirst
  res : r'.prog.res = r.prog.res

theorem SameReport.trans {r r' r'' : Run} (h : SameReport r r') (k : SameReport r' r'') : SameReport r r'' :=
  ⟨k.fx.trans h.fx, k.fresh, k.zi.trans h.zi, k.res.trans h.res⟩

section
variable {x : Ctx} {q : Issue} {f : FmtMew} {fa fb : Fmt} {m : List Host.Cell} {len per sa sb : Nat}

/-- Product `k` of an element-wise instruction. -/
def ewProd (q : Issue) (f : FmtMew) (fa fb : Fmt) (m : List Host.Cell) (len k : Nat) : Word × Flg :=
  ewProduct fa fb (packedElem fa (bytesAt m (refOff (q.s f.sa)) (packedBytes fa len)) k)
    (packedElem fb (bytesAt m (refOff (q.s f.sb)) (packedBytes fb len)) k)

variable (hfa : fa.width = 8 * sa) (hfb : fb.width = 8 * sb) (herr : q.errs = [])
  (ha : Plain x (refOff (q.s f.sa)) (packedBytes fa len)) (hb : Plain x (refOff (q.s f.sb)) (packedBytes fb len))
  (hd : Plain x (refOff (q.s f.sc)) (4 * len))
  (hsep : ∀ k, within (refOff (q.s f.sc)) (4 * len) k →
    ¬ within (refOff (q.s f.sa)) (packedBytes fa len) k ∧ ¬ within (refOff (q.s f.sb)) (packedBytes fb len) k)
include hfa hfb herr ha hb hd hsep

/-- One group of products: its bytes are written, and its flags join those of the run. -/
theorem ewGroup_good {r : Run} (ho : r.old = []) {cnt : Nat} (hcnt : min per (len - r.prog.pos * per) = cnt) (hlt : r.prog.pos * per < len)
    (hk : BytesKept m r.c.cm (within (refOff (q.s f.sc)) (4 * len))) (n : Nat) :
    ∃ r', ewGroups x q f fa fb true true true per len (n + 1) r = ewGroups x q f fa fb true true true per len n r' ∧ SameReport r r' ∧
      r'.prog.pos = r.prog.pos + 1 ∧
      r'.c = { r.c with
        cm := setBytes r.c.cm (refOff (q.s f.sc) + 4 * (r.prog.pos * per))
          ((List.range' (r.prog.pos * per) cnt).flatMap (fun k => leBytes 4 (ewProd q f fa fb m len k).1.toNat)) } ∧
      r'.prog.fl = (List.range' (r.prog.pos * per) cnt).foldl (fun fl k => fl ||| (ewProd q f fa fb m len k).2) r.prog.fl := by
  have hle : r.prog.pos * per + cnt ≤ len := by omega
  have hbytes : ∀ {g : Fmt} {sz : Nat}, g.width = 8 * sz → packedBytes g (r.prog.pos * per) + packedBytes g cnt ≤ packedBytes g len := by
    intro g sz hg
    rw [packedBytes_whole hg, packedBytes_whole hg, packedBytes_whole hg, ← Nat.mul_add]
    exact Nat.mul_le_mul_left _ hle
  obtain ⟨r₁, hr₁, h₁⟩ := read_try (q := q) (f := some fa) (eng := f.eng.toNat) r ho (ha.sub (Nat.le_add_right _ (packedBytes fa (r.prog.pos * per)))
    (by have := hbytes hfa; omega) : Plain x _ (packedBytes fa cnt))
  obtain ⟨r₂, hr₂, h₂⟩ := read_try (q := q) (f := some fb) (eng := f.eng.toNat) r₁ h₁.fresh (hb.sub (Nat.le_add_right _
    (packedBytes fb (r.prog.pos * per))) (by have := hbytes hfb; omega) : Plain x _ (packedBytes fb cnt))
  have hps : (List.range cnt).map (fun k => ewProduct fa fb
      (packedElem fa (bytesAt r.c.cm (refOff (q.s f.sa) + packedBytes fa (r.prog.pos * per)) (packedBytes fa cnt)) k)
      (packedElem fb (bytesAt r₁.c.cm (refOff (q.s f.sb) + packedBytes fb (r.prog.pos * per)) (packedBytes fb cnt)) k)) =
      (List.range' (r.prog.pos * per) cnt).map (ewProd q f fa fb m len) := by
    rw [List.range'_eq_map_range, List.map_map]
    refine List.map_congr_left fun k hk' => ?_
    have hk' := List.mem_range.1 hk'
    rw [packedElem_slice hfa hk' hle fun b hb' => hk b fun hd' => (hsep b hd').1 hb',
      packedElem_slice hfb hk' hle fun b hb' => (congrArg (byteAt ·.cm b) h₁.core).trans (hk b fun hd' => (hsep b hd').2 hb')]
    rfl
  have hlen : (((List.range' (r.prog.pos * per) cnt).map (ewProd q f fa fb m len)).flatMap (fun p => leBytes 4 p.1.toNat)).length = 4 * cnt := by
    rw [length_flatMap_word 4 (fun p : Word × Flg => p.1), List.length_map, List.length_range']
  obtain ⟨r₃, hr₃, h₃⟩ := write_try (q := q) (f := some .fp32) (eng := f.eng.toNat) (off := refOff (q.s f.sc) + 4 * (r.prog.pos * per))
    (bs := (((List.range' (r.prog.pos * per) cnt).map (ewProd q f fa fb m len)).flatMap (fun p => leBytes 4 p.1.toNat)).map some) r₂ h₂.fresh
    (by rw [List.length_map, hlen]; exact hd.sub (Nat.le_add_right _ _) (by omega))
  rw [writeBytes_some, List.flatMap_map] at h₃
  refine ⟨(r₃.tally (((List.range' (r.prog.pos * per) cnt).map (ewProd q f fa fb m len)).foldl (fun a p => a ||| p.2) 0) [] (fun _ => []) []).rowDone,
    ?_, ⟨h₃.fx.trans (h₂.fx.trans h₁.fx), h₃.fresh, h₃.zi.trans (h₂.zi.trans h₁.zi), (List.append_nil _).trans (h₃.res.trans (h₂.res.trans h₁.res))⟩,
    congrArg (· + 1) (h₃.pos.trans (h₂.pos.trans h₁.pos)), ?_, ?_⟩
  · rw [ewGroups]
    dsimp only
    rw [hcnt]
    change (r.read x q (some fa) _ _ (packedBytes fa cnt) >>= _) = _
    rw [hr₁]
    change (r₁.read x q (some fb) _ _ (packedBytes fb cnt) >>= _) = _
    rw [hr₂]
    dsimp only [bind, Except.bind]
    rw [hps, herr, if_pos rfl, hr₃]
    rfl
  · change r₃.c = _
    rw [h₃.core, show r₂.c = r.c from h₂.core.trans h₁.core]
  · change r₃.prog.fl ||| _ = _
    rw [show r₃.prog.fl = r.prog.fl from h₃.fl.trans (h₂.fl.trans h₁.fl), List.foldl_map,
      foldl_or (fun k => (ewProd q f fa fb m len k).2) (List.range' (r.prog.pos * per) cnt) r.prog.fl]

variable (hper : 0 < per)
include hper

theorem ewGroups_good : ∀ (n : Nat) (r : Run), r.old = [] → r.prog.pos + n = (len + per - 1) / per →
    BytesKept m r.c.cm (within (refOff (q.s f.sc)) (4 * len)) →
    ∃ r', ewGroups x q f fa fb true true true per len n r = .ok r' ∧ SameReport r r' ∧ r'.c = { r.c with cm := r'.c.cm } ∧
      BytesKept r.c.cm r'.c.cm (within (refOff (q.s f.sc) + 4 * (r.prog.pos * per)) (4 * (len - r.prog.pos * per))) ∧
      bytesAt r'.c.cm (refOff (q.s f.sc) + 4 * (r.prog.pos * per)) (4 * (len - r.prog.pos * per)) =
        (List.range' (r.prog.pos * per) (len - r.prog.pos * per)).flatMap (fun k => leBytes 4 (ewProd q f fa fb m len k).1.toNat) ∧
      r'.prog.fl = (List.range' (r.prog.pos * per) (len - r.prog.pos * per)).foldl (fun fl k => fl ||| (ewProd q f fa fb m len k).2) r.prog.fl
  | 0, r, ho, hn, _ => by
    have hz : len - r.prog.pos * per = 0 := by
      have h1 := Nat.div_add_mod (len + per - 1) per
      have h2 := Nat.mod_lt (len + per - 1) hper
      rw [← hn, Nat.add_zero, Nat.mul_comm per] at h1
      omega
    rw [hz]
    exact ⟨r, rfl, ⟨rfl, ho, rfl, rfl⟩, rfl, fun _ _ => rfl, rfl, rfl⟩
  | n + 1, r, ho, hn, hk => by
    have hlt : r.prog.pos * per < len := by
      have h1 : (r.prog.pos + 1) * per ≤ (len + per - 1) / per * per := Nat.mul_le_mul_right _ (by omega)
      have h2 := Nat.div_mul_le_self (len + per - 1) per
      rw [Nat.succ_mul] at h1
      omega
    obtain ⟨cnt, hcnt⟩ : ∃ cnt, min per (len - r.prog.pos * per) = cnt := ⟨_, rfl⟩
    obtain ⟨r₁, hr₁, hsame₁, hpos₁, hc₁, hfl₁⟩ := ewGroup_good hfa hfb herr ha hb hd hsep ho hcnt hlt hk n
    have hlen := (length_flatMap_word 4 (fun k => (ewProd q f fa fb m len k).1) (List.range' (r.prog.pos * per) cnt)).trans
      (congrArg (4 * ·) List.length_range')
    have hkept₁ : BytesKept r.c.cm r₁.c.cm (within (refOff (q.s f.sc) + 4 * (r.prog.pos * per)) (4 * cnt)) := by
      rw [hc₁]
      exact bytesKept_setBytes hlen
    obtain ⟨r₂, hr₂, hsame₂, hc₂, hk₂, hb₂, hfl₂⟩ := ewGroups_good n r₁ hsame₁.fresh (by omega)
      (fun b hb' => (hkept₁ b fun hw => hb' (by unfold within at hw ⊢; omega)).trans (hk b hb'))
    obtain ⟨rest, hrest⟩ : ∃ rest, len - r.prog.pos * per = cnt + rest := ⟨_, (Nat.add_sub_of_le (by omega)).symm⟩
    have hrest' : len - r₁.prog.pos * per = rest := by
      rw [hpos₁, Nat.succ_mul]
      omega
    have hstart : rest ≠ 0 → r₁.prog.pos * per = r.prog.pos * per + cnt := fun h0 => by
      rw [hpos₁, Nat.succ_mul]
      omega
    rw [hrest'] at hk₂ hb₂ hfl₂
    have hrange : List.range' (r₁.prog.pos * per) rest = List.range' (r.prog.pos * per + cnt) rest := by
      by_cases h0 : rest = 0
      · subst h0; rfl
      · rw [hstart h0]
    rw [hrange] at hb₂ hfl₂
    have hfirst : bytesAt r₂.c.cm (refOff (q.s f.sc) + 4 * (r.prog.pos * per)) (4 * cnt) =
        bytesAt r₁.c.cm (refOff (q.s f.sc) + 4 * (r.prog.pos * per)) (4 * cnt) := by
      rw [bytesAt_eq_map, bytesAt_eq_map]
      refine List.map_congr_left fun b hb' => hk₂ _ fun hw => ?_
      have := List.mem_range.1 hb'
      unfold within at hw
      have := hstart (by omega)
      omega
    rw [hrest, ← List.range'_append_1]
    refine ⟨r₂, hr₁.trans hr₂, hsame₁.trans hsame₂, ?_, fun b hb' => (hk₂ b fun hw => hb' ?_).trans (hkept₁ b fun hw => hb' ?_), ?_, ?_⟩
    · rw [hc₁] at hc₂
      exact hc₂
    · unfold within at hw ⊢
      have := hstart (by omega)
      omega
    · unfold within at hw ⊢
      omega
    · rw [Nat.mul_add, bytesAt_add, List.flatMap_append, hfirst, hc₁]
      congr 1
      · exact (congrArg (bytesAt _ _) hlen.symm).trans (bytesAt_setBytes_self ..)
      · by_cases h0 : rest = 0
        · subst h0; rfl
        · rw [hstart h0] at hb₂
          rw [Nat.add_assoc, ← Nat.mul_add]
          exact hb₂
    · rw [List.foldl_append, hfl₂, hfl₁]

end

/-! ### MEW (R214) -/

/-- The places of a group, 32 where an FP19 takes part. -/
def ewPer (fa fb : Fmt) : Nat := if fa == .fp19 || fb == .fp19 then 32 else 64

theorem raiseFlags_prog (r : Run) (q : Issue) (fl : Flg) : (r.raiseFlags q fl).prog = r.prog := by
  unfold Run.raiseFlags
  split <;> rfl

/-- The report of a run without residues: its flags, and its first zero or infinity. -/
theorem report_eq {r : Run} {q : Issue} (hr : r.prog.res = []) (eng : Nat) : r.report q eng = r.prog.ziFirst.elim (r.raiseFlags q r.prog.fl)
    (fun z => (r.raiseFlags q r.prog.fl).emit (.zi eng r.prog.ziCount q.st.codeNat z.2.2.2)) := by
  have hp := raiseFlags_prog r q r.prog.fl
  unfold Run.report
  generalize r.raiseFlags q r.prog.fl = r₁ at hp
  have hres : r₁.prog.res.isEmpty = true := by rw [hp, hr]; rfl
  rw [← hp]
  dsimp only
  cases r₁.prog.ziFirst with
  | none => exact if_pos hres
  | some z => exact if_pos hres

theorem doMew_good {x : Ctx} {q : Issue} {f : FmtMew} {sa sb : Nat} {r : Run}
    (hfa : ((Fmt.ofCode f.fmtA).getD .bf16).width = 8 * sa) (hfb : ((Fmt.ofCode f.fmtB).getD .bf16).width = 8 * sb) (herr : q.errs = [])
    (ho : r.old = []) (hpos : r.prog.pos = 0) (hf : r.prog.fl = 0) (hzi : r.prog.ziFirst = none) (hres : r.prog.res = [])
    (hoka : cmOk x (q.s f.sa) (packedBytes ((Fmt.ofCode f.fmtA).getD .bf16) (f.l1.toNat + 1)) true (alignOf ((Fmt.ofCode f.fmtA).getD .bf16)) = true)
    (hokb : cmOk x (q.s f.sb) (packedBytes ((Fmt.ofCode f.fmtB).getD .bf16) (f.l1.toNat + 1)) true (alignOf ((Fmt.ofCode f.fmtB).getD .bf16)) = true)
    (hokd : cmOk x (q.s f.sc) (4 * (f.l1.toNat + 1)) true 64 = true)
    (ha : Plain x (refOff (q.s f.sa)) (packedBytes ((Fmt.ofCode f.fmtA).getD .bf16) (f.l1.toNat + 1)))
    (hb : Plain x (refOff (q.s f.sb)) (packedBytes ((Fmt.ofCode f.fmtB).getD .bf16) (f.l1.toNat + 1)))
    (hd : Plain x (refOff (q.s f.sc)) (4 * (f.l1.toNat + 1)))
    (hsep : ∀ k, within (refOff (q.s f.sc)) (4 * (f.l1.toNat + 1)) k →
      ¬ within (refOff (q.s f.sa)) (packedBytes ((Fmt.ofCode f.fmtA).getD .bf16) (f.l1.toNat + 1)) k ∧
      ¬ within (refOff (q.s f.sb)) (packedBytes ((Fmt.ofCode f.fmtB).getD .bf16) (f.l1.toNat + 1)) k) :
    ∃ (r' : Run) (n : Nat), doMew x q f r = .ok ((r'.raiseFlags q ((List.range (f.l1.toNat + 1)).foldl (fun fl k => fl |||
        (ewProd q f ((Fmt.ofCode f.fmtA).getD .bf16) ((Fmt.ofCode f.fmtB).getD .bf16) r.c.cm (f.l1.toNat + 1) k).2) 0)).emit (.meWork f.eng.toNat n)) ∧
      r'.fx = r.fx ∧ r'.c = { r.c with cm := r'.c.cm } ∧ BytesKept r.c.cm r'.c.cm (within (refOff (q.s f.sc)) (4 * (f.l1.toNat + 1))) ∧
      bytesAt r'.c.cm (refOff (q.s f.sc)) (4 * (f.l1.toNat + 1)) = (List.range (f.l1.toNat + 1)).flatMap (fun k => leBytes 4
        (ewProd q f ((Fmt.ofCode f.fmtA).getD .bf16) ((Fmt.ofCode f.fmtB).getD .bf16) r.c.cm (f.l1.toNat + 1) k).1.toNat) := by
  unfold doMew
  dsimp only
  generalize (Fmt.ofCode f.fmtA).getD .bf16 = fa at *
  generalize (Fmt.ofCode f.fmtB).getD .bf16 = fb at *
  generalize f.l1.toNat + 1 = len at *
  have hper : 0 < ewPer fa fb := by
    unfold ewPer
    split <;> decide
  obtain ⟨r', hr, hsame, hc, hk, hbytes, hfl⟩ := ewGroups_good hfa hfb herr ha hb hd hsep hper ((len + ewPer fa fb - 1) / ewPer fa fb) r ho
    (by rw [hpos, Nat.zero_add]) fun _ _ => rfl
  rw [hpos, Nat.zero_mul, Nat.mul_zero, Nat.add_zero, Nat.sub_zero] at hk hbytes
  rw [hpos, hf, Nat.zero_mul, Nat.sub_zero, ← List.range_eq_range'] at hfl
  rw [← List.range_eq_range'] at hbytes
  refine ⟨r', if fa == .fp19 || fb == .fp19 then 2 * ((len + ewPer fa fb - 1) / ewPer fa fb) else (len + ewPer fa fb - 1) / ewPer fa fb, ?_, hsame.fx, hc,
    hk, hbytes⟩
  rw [hoka, hokb, hokd, hpos, Nat.sub_zero]
  change (ewGroups x q f fa fb true true true (ewPer fa fb) len ((len + ewPer fa fb - 1) / ewPer fa fb) r >>= _) = _
  rw [hr]
  change Except.ok ((r'.report q f.eng.toNat).emit _) = _
  rw [report_eq (hsame.res.trans hres), hsame.zi, hzi, Option.elim, hfl]
  rfl

/-- The formats of element-wise mode take whole bytes. -/
theorem width_of_isMewFmt {f : Fmt} (h : isMewFmt f = true) : ∃ sz, f.width = 8 * sz := by
  cases f with
  | fp19 => exact ⟨4, rfl⟩
  | bf16 | fp16 => exact ⟨2, rfl⟩
  | e4m3 | e5m2 => exact ⟨1, rfl⟩
  | _ => cases h

theorem mewFmts_of_canIssue {s : State} {i : Iss} {x : FmtMew} {p : Nat} (h : s.canIssue i (.mew x) p = true) :
    isMewFmt ((Fmt.ofCode x.fmtA).getD .bf16) = true ∧ isMewFmt ((Fmt.ofCode x.fmtB).getD .bf16) = true := by
  obtain ⟨-, -, -, hl, -⟩ := (canIssue_iff s i _ p).mp h
  have hl : okMew x = true := hl
  unfold okMew at hl
  split at hl
  next a b ha hb =>
    rw [ha, hb]
    exact Bool.and_eq_true_iff.1 hl
  next => cases hl

/-- Settles O19. -/
theorem elementProducts : Obligations.ElementProducts := by
  unfold Obligations.ElementProducts
  intro s i x p h fa fb len a b d prod ha hb hd hsep
  obtain ⟨o, ex⟩ := exec_engine (eng := x.eng.toNat) h rfl
  obtain ⟨hfa, hfb⟩ := mewFmts_of_canIssue h
  obtain ⟨sa, hsa⟩ := width_of_isMewFmt hfa
  obtain ⟨sb, hsb⟩ := width_of_isMewFmt hfb
  obtain ⟨r', n, hr, hfx, hc, hk, hbytes⟩ := doMew_good (x := s.ctxOf i.v p) (q := (s.issueOf p i.st (.mew x)).counted o) (f := x)
    (r := .again (s.core p).took ((s.issueOf p i.st (.mew x)).counted o).prog none true) hsa hsb rfl rfl rfl rfl rfl rfl ha.1 hb.1 hd.1 ha.2 hb.2 hd.2 hsep
  obtain ⟨w, k, hw, hwc, hex⟩ := ex ((r'.raiseFlags ((s.issueOf p i.st (.mew x)).counted o) ((List.range len).foldl (fun fl k => fl ||| (prod k).2)
    0)).emit (.meWork x.eng.toNat n)) hr
  have hcore := raiseFlags_c (i := (s.issueOf p i.st (.mew x)).counted o) (c := { s.core p with cm := r'.c.cm })
    (hc.trans (congrArg Core.took (setStream_stream_cm (s.core p) _ i.st)).symm) rfl ((List.range len).foldl (fun fl k => fl ||| (prod k).2) 0)
  have hw' := WorkedAs.flagged ⟨hw, hwc.trans hcore⟩ i.v ((List.range len).foldl (fun fl k => fl ||| (prod k).2) 0)
  obtain ⟨hwork, -⟩ := hw'.only.bumpPair (Reg.meWorkCycLo p x.eng.toNat) n
  rw [show (((r'.raiseFlags ((s.issueOf p i.st (.mew x)).counted o) ((List.range len).foldl (fun fl k => fl ||| (prod k).2) 0)).emit
      (.meWork x.eng.toNat n)).fx) = (_ ++ if _ then [] else [Fx.flags _]) ++ _ from congrArg (· ++ [Fx.meWork x.eng.toNat n]) (raiseFlags_fx_bare ..), hfx, State.applyAll, List.foldl_append] at hex
  refine ⟨_, r'.c.cm, hex, (hwork.leftEngine (i := i) (eng := x.eng.toNat) (k := k)).of_flagged, ?_, hk, core_leftEngine ?_ k⟩
  · unfold Holds
    rw [length_flatMap_word 4 (fun k => (prod k).1), List.length_range]
    exact hbytes
  · exact (core_bumpPair ..).trans hw'.core

end Sys2Proof.Machine
end


section
/-! PROOFS. Accumulators: what a list of outputs leaves in the tiles (R134, R137, R140). -/

namespace Sys2Proof.Machine

open Sys2Proof

/-! ### An engine's state written again -/

theorem tput_tput {α : Type} (k : Nat) (a b : α) : ∀ t : Tbl α, tput (tput t k a) k b = tput t k b
  | [] => by simp [tput]
  | (j, w) :: t => by
    rcases Nat.lt_trichotomy k j with h | rfl | h
    · simp [tput, h]
    · simp [tput]
    · simp [tput, Nat.lt_asymm h, Nat.ne_of_gt h, tput_tput k a b t]

theorem setEngine_setEngine (c : Core) (n : Nat) {x y : Engine} (hx : x.tag ≠ none) (hy : y.tag ≠ none) :
    (c.setEngine n x).setEngine n y = c.setEngine n y := by
  have hne : ∀ {z : Engine}, z.tag ≠ none → z ≠ engine0 := fun h he => h (congrArg Engine.tag he)
  unfold Core.setEngine
  rw [tset, tset, tset, if_neg (hne hx), if_neg (hne hy), if_neg (hne hy), tput_tput]

@[simp] theorem engine_setEngine_self (c : Core) (n : Nat) (x : Engine) : (c.setEngine n x).engine n = x := tget_tset_self ..

/-! ### Outputs into tiles (R140) -/

/-- The accumulator that an output names. -/
def OutEl.key (o : OutEl) : Nat := tileKey o.tile o.trow o.tcol

section
variable (ord : SumOrder) (fa fb : Fmt) (pieces : Nat) (begin : Bool)

/-- The state of an engine behind one output. -/
def outTile (o : OutEl) (e : Engine) : Engine :=
  { e with
    tiles := tset 0 e.tiles o.key (dotElem ord fa fb pieces (if begin then none else some (tget 0 e.tiles o.key)) o.terms).1
    tileFmt := if begin then tset TileFmt.none e.tileFmt o.tile (impliedFmt fa) else e.tileFmt }

theorem accumulate_cons (o : OutEl) (os : List OutEl) (e : Engine) :
    (accumulate ord fa fb pieces begin (o :: os) e).1 = (accumulate ord fa fb pieces begin os (outTile ord fa fb pieces begin o e)).1 := rfl

theorem accumulate_append (os os' : List OutEl) (e : Engine) : (accumulate ord fa fb pieces begin (os ++ os') e).1 =
    (accumulate ord fa fb pieces begin os' (accumulate ord fa fb pieces begin os e).1).1 := by
  induction os generalizing e with
  | nil => rfl
  | cons o os ih => rw [List.cons_append, accumulate_cons, accumulate_cons, ih]

/-- Outputs change the tiles and their formats alone. -/
theorem accumulate_only (os : List OutEl) (e : Engine) : (accumulate ord fa fb pieces begin os e).1 =
    { e with
      tiles := (accumulate ord fa fb pieces begin os e).1.tiles
      tileFmt := (accumulate ord fa fb pieces begin os e).1.tileFmt } := by
  induction os generalizing e with
  | nil => rfl
  | cons o os ih => rw [accumulate_cons, ih]; rfl

theorem tget_outTile (o : OutEl) (e : Engine) (k : Nat) : tget 0 (outTile ord fa fb pieces begin o e).tiles k =
    if k = o.key then (dotElem ord fa fb pieces (if begin then none else some (tget 0 e.tiles o.key)) o.terms).1 else tget 0 e.tiles k :=
  tget_tset ..

theorem accumulate_other {os : List OutEl} {k : Nat} (e : Engine) (h : ∀ o ∈ os, k ≠ o.key) :
    tget 0 (accumulate ord fa fb pieces begin os e).1.tiles k = tget 0 e.tiles k := by
  induction os generalizing e with
  | nil => rfl
  | cons o os ih =>
    rw [accumulate_cons, ih _ fun o' ho => h o' (List.mem_cons_of_mem _ ho), tget_outTile, if_neg (h o List.mem_cons_self)]

/-- Where every output has an accumulator of its own, each holds its dot product on what was there before all of them. -/
theorem accumulate_at {os : List OutEl} (e : Engine) (h : os.Pairwise (fun a b => b.key ≠ a.key)) {o : OutEl} (ho : o ∈ os) :
    tget 0 (accumulate ord fa fb pieces begin os e).1.tiles o.key =
      (dotElem ord fa fb pieces (if begin then none else some (tget 0 e.tiles o.key)) o.terms).1 := by
  induction os generalizing e with
  | nil => cases ho
  | cons o' os ih =>
    obtain ⟨h', hs⟩ := List.pairwise_cons.1 h
    rw [accumulate_cons]
    rcases List.mem_cons.1 ho with rfl | ho
    · rw [accumulate_other _ _ _ _ _ _ fun b hb => (h' b hb).symm, tget_outTile, if_pos rfl]
    · rw [ih _ hs ho, tget_outTile, if_neg (h' o ho)]

end

/-! ### The outputs of a stream -/

section
variable {g : Nat → Nat → OutEl} {m w : Nat}

/-- The outputs of the rows of a stream, `w` to a row. -/
def gridOuts (g : Nat → Nat → OutEl) (m w : Nat) : List OutEl := (List.range m).flatMap fun j => (List.range w).map (g j)

theorem mem_gridOuts {o : OutEl} : o ∈ gridOuts g m w ↔ ∃ j < m, ∃ c < w, g j c = o := by
  simp [gridOuts]

theorem gridOuts_apart (h : ∀ j < m, ∀ c < w, ∀ j' < m, ∀ c' < w, (g j c).key = (g j' c').key → j = j' ∧ c = c') :
    (gridOuts g m w).Pairwise (fun a b => b.key ≠ a.key) := by
  refine List.pairwise_flatMap.2 ⟨fun j hj => ?_, ?_⟩
  · refine List.pairwise_map.2 (List.pairwise_lt_range.imp_of_mem fun {c c'} hc hc' hlt he => ?_)
    obtain ⟨-, he⟩ := h j (List.mem_range.1 hj) c' (List.mem_range.1 hc') j (List.mem_range.1 hj) c (List.mem_range.1 hc) he
    omega
  · refine List.pairwise_lt_range.imp_of_mem fun {j j'} hj hj' hlt a ha b hb he => ?_
    obtain ⟨c, hc, rfl⟩ := List.mem_map.1 ha
    obtain ⟨c', hc', rfl⟩ := List.mem_map.1 hb
    obtain ⟨he, -⟩ := h j' (List.mem_range.1 hj') c' (List.mem_range.1 hc') j (List.mem_range.1 hj) c (List.mem_range.1 hc) he
    omega

end

end Sys2Proof.Machine
end


section
/-! PROOFS. MSTR and MSTRT (R134, R137, R211, R212): O17. -/

namespace Sys2Proof.Machine

open Sys2Proof

/-! ### What a stream reports (R119) -/

/-- The first zero or infinity of a run has the words of its capture. -/
def Run.ZiShort (r : Run) : Prop := ∀ z, r.prog.ziFirst = some z → z.2.2.2.length ≤ 6

theorem ziShort_tally {r : Run} (h : r.ZiShort) (fl : Flg) (zi : List ZiHit) {caps : ZiHit → List Nat} (hc : ∀ z, (caps z).length ≤ 6)
    (res : List ResHit) : (r.tally fl zi caps res).ZiShort := by
  intro z hz
  change (firstHit zi).elim r.prog.ziFirst _ = some z at hz
  cases hf : firstHit zi with
  | none => rw [hf] at hz; exact h z hz
  | some k =>
    rw [hf] at hz
    obtain rfl := Option.some.inj hz
    unfold ziEarlier
    split
    · exact hc k
    next a ha =>
      split
      · exact h a ha
      · exact hc k

theorem ziShort_rowDone {r : Run} (h : r.ZiShort) : r.rowDone.ZiShort := h

/-- The effects of a report without residues. -/
def reportFx (r : Run) (q : Issue) (eng : Nat) : List Fx :=
  (if r.prog.fl = 0 then [] else [.flags r.prog.fl]) ++
    r.prog.ziFirst.elim [] (fun z => [.zi eng r.prog.ziCount q.st.codeNat z.2.2.2])

theorem report_good {r : Run} {q : Issue} (hr : r.prog.res = []) (eng : Nat) :
    (r.report q eng).c = (r.raiseFlags q r.prog.fl).c ∧ (r.report q eng).fx = r.fx ++ reportFx r q eng := by
  have hx := raiseFlags_fx_bare r q r.prog.fl
  rw [report_eq hr]
  unfold reportFx
  cases r.prog.ziFirst with
  | none => exact ⟨rfl, by rw [Option.elim, Option.elim, List.append_nil]; exact hx⟩
  | some z => exact ⟨rfl, by rw [Option.elim, Option.elim, Run.emit, hx, List.append_assoc]⟩

/-! ### The rows of a stream (R211, R212) -/

section
variable {s : State} {i : Iss} {p : Nat} {x : FmtMstr} {fa fs : Fmt} {tr : Bool} {len rows : Nat} {outs : Nat → List El → List OutEl}

/-- What the rows of a stream leave of a run but for its core. -/
structure RowsDone (r r' : Run) : Prop where
  fx : r'.fx = r.fx
  fresh : r'.old = []
  lim : r'.lim = r.lim
  res : r'.prog.res = r.prog.res
  zi : r.ZiShort → r'.ZiShort

theorem RowsDone.trans {r r' r'' : Run} (h : RowsDone r r') (k : RowsDone r' r'') : RowsDone r r'' :=
  ⟨k.fx.trans h.fx, k.fresh, k.lim.trans h.lim, k.res.trans h.res, fun hz => k.zi (h.zi hz)⟩

theorem length_ziCaps (fa fb : Fmt) (mxA mxB : Bool) (pieces : Nat) (stroke : DWord) (h : ZiHit) :
    (ziCaps fa fb mxA mxB pieces stroke h).length = 6 := rfl

/-- The run behind a row of a stream that a run has loaded. -/
def rowRun (c : Ctx) (q : Issue) (x : FmtMstr) (fa fs : Fmt) (tr : Bool) (os : List OutEl) (r : Run) : Run :=
  (Run.tally
    { r with
      c := r.c.setEngine x.eng.toNat (accumulate c.order fa fs x.pieces.toNat x.begin os (r.c.engine x.eng.toNat)).1 }
    (accumulate c.order fa fs x.pieces.toNat x.begin os (r.c.engine x.eng.toNat)).2 (os.flatMap (ziHits fa fs x.pieces.toNat))
    (ziCaps fa fs x.mxA x.mxS x.pieces.toNat q.stroke) (os.flatMap (outChecks fa fs x.pieces.toNat tr q.errs))).rowDone

theorem rowsDone_rowRun {c : Ctx} {q : Issue} (herr : q.errs = []) {os : List OutEl} {r r₁ : Run} (h : SameTry r r₁) :
    RowsDone r (rowRun c q x fa fs tr os r₁) := by
  refine ⟨h.fx, h.fresh, h.lim, ?_, fun hz => ?_⟩
  · change r₁.prog.res ++ os.flatMap (outChecks fa fs x.pieces.toNat tr q.errs) = _
    rw [herr, show os.flatMap (outChecks fa fs x.pieces.toNat tr []) = [] from List.flatMap_eq_nil_iff.2 fun _ _ => rfl, List.append_nil]
    exact h.res
  · refine ziShort_rowDone (ziShort_tally ?_ _ _ (fun z => Nat.le_of_eq (length_ziCaps ..)) _)
    exact fun z hz' => hz z (h.zi.symm.trans hz')

/-- The outputs of row `j` of a stream. -/
def State.rowOuts (s : State) (i : Iss) (p : Nat) (x : FmtMstr) (fa : Fmt) (len : Nat) (outs : Nat → List El → List OutEl) (j : Nat) : List OutEl :=
  outs j (s.rowEls p fa x.mxA (s.scalarOf i p x.sa) (s.pitchAt i p x.sb) (s.scalarOf i p x.sc) len j)

/-- The engine behind outputs of a stream. -/
def State.tiled (s : State) (x : FmtMstr) (fa fs : Fmt) (os : List OutEl) (e : Engine) : Engine :=
  (accumulate s.sumOrder fa fs x.pieces.toNat x.begin os e).1

theorem tag_tiled (os : List OutEl) (e : Engine) : (s.tiled x fa fs os e).tag = e.tag := by
  rw [State.tiled, accumulate_only]

theorem tiled_append (os os' : List OutEl) (e : Engine) : s.tiled x fa fs (os ++ os') e = s.tiled x fa fs os' (s.tiled x fa fs os e) :=
  accumulate_append ..

variable (h : s.rowsOk i p fa x.mxA (s.scalarOf i p x.sa) (s.pitchAt i p x.sb) (s.scalarOf i p x.sc) len rows) {q : Issue}
  (hq : ∀ k, q.s k = s.scalarOf i p k) (herr : q.errs = [])
include h hq herr

theorem streamRow_good {r : Run} (hj : r.prog.pos < rows) (ho : r.old = []) (hl : r.lim = none) (hcm : r.c.cm = (s.core p).cm) (m : Nat) :
    ∃ r', streamRows (s.ctxOf i.v p) q x fa fs tr len outs (m + 1) r = streamRows (s.ctxOf i.v p) q x fa fs tr len outs m r' ∧ RowsDone r r' ∧
      r'.prog.pos = r.prog.pos + 1 ∧ r'.c = r.c.setEngine x.eng.toNat (s.tiled x fa fs (s.rowOuts i p x fa len outs r.prog.pos) (r.c.engine x.eng.toNat)) := by
  obtain ⟨r₁, hr₁, h₁⟩ := loadRow_good h hj q x.eng.toNat r ho hcm
  have hpitch : pitchOf q x.sb = s.pitchAt i p x.sb := by rw [pitchOf, hq, State.pitchAt]
  have hmay : (!r.mayTake) = false := by rw [Run.mayTake, hl]; rfl
  refine ⟨rowRun (s.ctxOf i.v p) q x fa fs tr (s.rowOuts i p x fa len outs r.prog.pos) r₁, ?_, rowsDone_rowRun herr h₁, ?_, ?_⟩
  · rw [streamRows, hmay, if_neg Bool.false_ne_true, hq, hq, hpitch, hr₁, State.rowOuts, ← h₁.pos]
    rfl
  · exact congrArg (· + 1) h₁.pos
  · change r₁.c.setEngine _ (s.tiled x fa fs _ (r₁.c.engine _)) = _
    rw [show r₁.c = r.c from h₁.core]

theorem streamRows_behind (c : Core) : ∀ (m : Nat) (r : Run) (e : Engine), r.prog.pos + m ≤ rows → r.old = [] → r.lim = none → r.c.cm = (s.core p).cm →
    e.tag ≠ none → r.c = c.setEngine x.eng.toNat e →
    ∃ r', streamRows (s.ctxOf i.v p) q x fa fs tr len outs m r = .ok r' ∧ RowsDone r r' ∧
      r'.c = c.setEngine x.eng.toNat (s.tiled x fa fs ((List.range' r.prog.pos m).flatMap (s.rowOuts i p x fa len outs)) e)
  | 0, r, e, _, ho, _, _, _, hc => ⟨r, rfl, ⟨rfl, ho, rfl, rfl, id⟩, hc⟩
  | m + 1, r, e, hm, ho, hl, hcm, ht, hc => by
    obtain ⟨r₁, hr₁, h₁, hpos, hc₁⟩ := streamRow_good h hq herr (x := x) (fs := fs) (tr := tr) (outs := outs) (show r.prog.pos < rows by omega) ho hl hcm m
    rw [hc, engine_setEngine_self, setEngine_setEngine _ _ ht (by rw [tag_tiled]; exact ht)] at hc₁
    obtain ⟨r₂, hr₂, h₂, hc₂⟩ := streamRows_behind c m r₁ _ (by omega) h₁.fresh (h₁.lim.trans hl) (by rw [hc₁, ← hcm, hc]; rfl)
      (by rw [tag_tiled]; exact ht) hc₁
    refine ⟨r₂, hr₁.trans hr₂, h₁.trans h₂, ?_⟩
    rw [hc₂, hpos, List.range'_succ, List.flatMap_cons, tiled_append]

/-- A stream of rows leaves its outputs in the tiles of its engine. -/
theorem streamRows_good {r : Run} {m : Nat} (hm : rows = m + 1) (hpos : r.prog.pos = 0) (ho : r.old = []) (hl : r.lim = none)
    (hcm : r.c.cm = (s.core p).cm) (ht : (r.c.engine x.eng.toNat).tag ≠ none) :
    ∃ r', streamRows (s.ctxOf i.v p) q x fa fs tr len outs rows r = .ok r' ∧ RowsDone r r' ∧
      r'.c = r.c.setEngine x.eng.toNat (s.tiled x fa fs ((List.range rows).flatMap (s.rowOuts i p x fa len outs)) (r.c.engine x.eng.toNat)) := by
  obtain ⟨r₁, hr₁, h₁, hpos₁, hc₁⟩ := streamRow_good h hq herr (x := x) (fs := fs) (tr := tr) (outs := outs) (show r.prog.pos < rows by omega) ho hl hcm m
  obtain ⟨r₂, hr₂, h₂, hc₂⟩ := streamRows_behind h hq herr (x := x) (fs := fs) (tr := tr) (outs := outs) r.c m r₁ _ (by omega) h₁.fresh (h₁.lim.trans hl)
    (by rw [hc₁, ← hcm]; rfl) (by rw [tag_tiled]; exact ht) hc₁
  refine ⟨r₂, ?_, h₁.trans h₂, ?_⟩
  · rw [hm, hr₁, hr₂]
  · rw [hc₂, hpos₁, hpos, hm, List.range_eq_range', List.range'_succ, List.flatMap_cons, tiled_append]

end

section
variable {s : State} {i : Iss} {p : Nat} {x : FmtMstr} {tr : Bool} {outs : Engine → Nat → List El → List OutEl} {len : Engine → Nat}
  {targets : Engine → List Nat}

theorem doStream_good {q : Issue} (hq : ∀ k, q.s k = s.scalarOf i p k) (herr : q.errs = []) {r : Run} (hpos : r.prog.pos = 0) (ho : r.old = [])
    (hl : r.lim = none) (hcm : r.c.cm = (s.core p).cm)
    (ht : (r.c.engine x.eng.toNat).tag = some (formatOf x.fmtS))
    (hm : tagMismatch (r.c.engine x.eng.toNat) x (formatOf x.fmtA) (formatOf x.fmtS) (targets (r.c.engine x.eng.toNat)) = none)
    (h : s.rowsOk i p (formatOf x.fmtA) x.mxA (s.scalarOf i p x.sa) (s.pitchAt i p x.sb) (s.scalarOf i p x.sc) (len (r.c.engine x.eng.toNat))
      (x.m1.toNat + 1)) :
    ∃ (r' : Run) (n : Nat), doStream (s.ctxOf i.v p) q x tr targets len outs r = .ok ((r'.report q x.eng.toNat).emit (.meWork x.eng.toNat n)) ∧
      RowsDone r r' ∧ r'.c = r.c.setEngine x.eng.toNat (s.tiled x (formatOf x.fmtA) (formatOf x.fmtS) ((List.range (x.m1.toNat + 1)).flatMap
        (s.rowOuts i p x (formatOf x.fmtA) (len (r.c.engine x.eng.toNat)) (outs (r.c.engine x.eng.toNat)))) (r.c.engine x.eng.toNat)) := by
  obtain ⟨r', hr, hd, hc⟩ := streamRows_good h hq herr (x := x) (fs := formatOf x.fmtS) (tr := tr) (outs := outs (r.c.engine x.eng.toNat)) rfl hpos ho hl
    hcm (by rw [ht]; exact Option.some_ne_none _)
  have hpitch : pitchOf q x.sb = s.pitchAt i p x.sb := by rw [pitchOf, hq, State.pitchAt]
  refine ⟨r', entrySlots (formatOf x.fmtA) (formatOf x.fmtS) (x.m1.toNat + 1) x.pieces.toNat, ?_, hd, hc⟩
  unfold doStream
  dsimp only
  rw [show tagMismatch (r.c.engine x.eng.toNat) x ((Fmt.ofCode x.fmtA).getD .fp32) ((Fmt.ofCode x.fmtS).getD .fp32) _ = none from hm]
  dsimp only
  rw [hpos, Nat.sub_zero]
  change (streamRows _ q x (formatOf x.fmtA) (formatOf x.fmtS) tr _ _ (x.m1.toNat + 1) r >>= _) = _
  rw [hr]
  dsimp only [bind, Except.bind]
  have hbad := badRows_good h
  unfold formatOf at hbad
  rw [hq, hq, hpitch, hbad]
  rfl

end

/-! ### What a stream leaves of the device (R119, R140) -/

theorem kept_takeZi (s : State) {p v e : Nat} (count waiter : Nat) {caps : List Nat} (hc : caps.length ≤ 6) :
    Logged s (s.takeZi p v e count waiter caps) ∧ RegsKept s (s.takeZi p v e count waiter caps) (eventRegs (pgMe p e)) := by
  have hmod : pgMe p e % 0x1000 = 0 := by
    unfold pgMe coreWin
    omega
  have hraise : ∀ (u : State) (ev : Ev), ev.page = pgMe p e → (∀ c ∈ ev.caps, c.1 < 0x1000) → RegsKept u (u.raise ev) (eventRegs (pgMe p e)) := by
    intro u ev hpage hcaps
    cases hp : pageAt ev.page with
    | none =>
      unfold State.raise
      rw [hp]
      exact fun _ _ => rfl
    | some pg =>
      have hb : pg.base = ev.page := by rw [(pageAt_cases hp).1, hpage]; omega
      rw [← hpage]
      exact kept_raise u ev hp hb (by rw [hpage]; exact hmod) hcaps
  have hwords : ∀ c ∈ caps.zipIdx.map (fun c => (0x28 + 4 * c.2, c.1)), c.1 < 0x1000 := by
    intro c hmem
    obtain ⟨⟨a, k⟩, hk, rfl⟩ := List.mem_map.1 hmem
    have := (List.mem_zipIdx hk).2.1
    dsimp only
    omega
  unfold State.takeZi
  dsimp only
  split
  · exact ⟨(logged_once ..).trans (logged_raise ..), RegsKept.trans (fun o _ => rget_once ..) (hraise _ _ rfl hwords)⟩
  · exact ⟨logged_raise .., hraise _ _ rfl hwords⟩

section
variable {s w : State} {p : Nat} {c : Core}

theorem CoreAndLog.of_flagged {t : State} {fl : Flg} {b : Nat → Prop} (h : CoreAndLog (s.flagged fl) t p b) :
    CoreAndLog s t p (fun o => b o ∨ o = Reg.numFlagSum) := by
  obtain ⟨hk, u, hl, ho⟩ := h
  have hlog : Logged s (s.flagged fl) := by
    rw [flagged_only]
    exact ⟨_, _, _, _, _, _, _, _, _, rfl⟩
  exact ⟨RegsKept.trans ((kept_flagged s fl).mono fun _ => .inr) (hk.mono fun _ => .inl), u, hlog.trans hl, ho⟩

theorem CoreAndLog.leftEngine {i : Iss} {eng k : Nat} {b : Nat → Prop} (h : CoreAndLog s w p b) : CoreAndLog s (w.leftEngine i p eng k) p b := by
  obtain ⟨hk, u, hl, ho⟩ := h
  exact ⟨fun o hb => (rget_leftEngine ..).trans (hk o hb), u, hl, ho.leftEngine k⟩

/-- What a stream's report and its work leave. -/
theorem reported_stream {r : Run} (h : WorkedAs s w p c) (hz : r.ZiShort) (q : Issue) (v eng n : Nat) :
    CoreAndLog s (w.applyAll p v (reportFx r q eng ++ [.meWork eng n])) p (fun o => eventRegs (pgMe p eng) o ∨ o = Reg.numFlagSum) ∧
      (w.applyAll p v (reportFx r q eng ++ [.meWork eng n])).core p = c.took := by
  obtain ⟨ho, hc⟩ := h.flagged v r.prog.fl
  unfold State.applyAll reportFx at *
  rw [List.foldl_append, List.foldl_append]
  generalize List.foldl _ w _ = w' at *
  have hpair : ∀ o, pairAt (Reg.meWorkCycLo p eng) o → eventRegs (pgMe p eng) o := by
    unfold pairAt eventRegs Reg.meWorkCycLo pgMe coreWin
    omega
  obtain ⟨hl, hk⟩ : Logged w' (List.foldl (fun s e => s.applyFx p v e) w' (r.prog.ziFirst.elim [] fun z => [.zi eng r.prog.ziCount q.st.codeNat z.2.2.2])) ∧
      RegsKept w' (List.foldl (fun s e => s.applyFx p v e) w' (r.prog.ziFirst.elim [] fun z => [.zi eng r.prog.ziCount q.st.codeNat z.2.2.2]))
        (eventRegs (pgMe p eng)) := by
    cases hf : r.prog.ziFirst with
    | none => exact ⟨Logged.refl _, fun _ _ => rfl⟩
    | some z => exact kept_takeZi w' _ _ (hz z hf)
  have hl' := hl.trans (logged_bumpPair _ (Reg.meWorkCycLo p eng) n)
  exact ⟨(CoreAndLog.of_logged ho hl' (hk.trans ((kept_bumpPair _ _ _).mono hpair))).of_flagged, (hl'.core p).trans hc⟩

end

/-! ### The obligation -/
section
variable {s : State} {i : Iss} {p : Nat} {x : FmtMstr}

theorem tagMismatch_none {e : Engine} {fa fs : Fmt} (htag : e.tag = some fs) (hmx : e.mx = x.mxS) (hp : e.pieces = x.pieces.toNat)
    (hk : e.k ≤ ktOf (widerFmt fa fs)) (ht : x.begin = false → ∀ t, tget .none e.tileFmt t = impliedFmt fa) (l : List Nat) :
    tagMismatch e x fa fs l = none := by
  unfold tagMismatch
  rw [if_neg (by simp [htag, hmx]), if_neg (by simp [hp]), if_neg (Nat.not_lt.2 hk)]
  split
  · rfl
  next hb =>
    have hfind : l.find? (fun t => tget TileFmt.none e.tileFmt t != impliedFmt fa) = none :=
      List.find?_eq_none.2 fun t _ => by simp [ht (Bool.eq_false_iff.2 hb) t]
    rw [hfind]

/-- A stream that goes through: what it leaves in its tiles, and of the device. -/
theorem exec_stream {op : IsaOp} {tr : Bool} {outs : Engine → Nat → List El → List OutEl} {len : Engine → Nat} {targets : Engine → List Nat}
    (h : s.canIssue i op p = true) (he : engineOf op = some x.eng.toNat)
    (hop : ∀ o r, perform (s.ctxOf i.v p) (s.rowBytes i.v) (s.streamOf i p).pc.toNat ((s.issueOf p i.st op).counted o) r =
      doStream (s.ctxOf i.v p) ((s.issueOf p i.st op).counted o) x tr targets len outs r)
    (ht : ((s.core p).engine x.eng.toNat).tag = some (formatOf x.fmtS))
    (hm : tagMismatch ((s.core p).engine x.eng.toNat) x (formatOf x.fmtA) (formatOf x.fmtS) (targets ((s.core p).engine x.eng.toNat)) = none)
    (hrows : s.rowsOk i p (formatOf x.fmtA) x.mxA (s.scalarOf i p x.sa) (s.pitchAt i p x.sb) (s.scalarOf i p x.sc)
      (len ((s.core p).engine x.eng.toNat)) (x.m1.toNat + 1)) :
    ∃ (t : State) (fl : Flg), exec (cmdOf i op) s = .next t ∧ CoreAndLog s t p (fun o => eventRegs (pgMe p x.eng.toNat) o ∨ o = Reg.numFlagSum) ∧
      t.core p = (((s.core p).setEngine x.eng.toNat (s.tiled x (formatOf x.fmtA) (formatOf x.fmtS) ((List.range (x.m1.toNat + 1)).flatMap
        (s.rowOuts i p x (formatOf x.fmtA) (len ((s.core p).engine x.eng.toNat)) (outs ((s.core p).engine x.eng.toNat))))
        ((s.core p).engine x.eng.toNat))).setStream i.st (withFlags (s.core p) i.st (s.streamOf i p) fl)).goOn i.st := by
  obtain ⟨o, ex⟩ := exec_engine h he
  obtain ⟨r', n, hr, hd, hc⟩ := doStream_good (r := .again (s.core p).took ((s.issueOf p i.st op).counted o).prog none true) (tr := tr) (outs := outs)
    (len := len) (targets := targets) (q := (s.issueOf p i.st op).counted o) (fun _ => rfl) rfl rfl rfl rfl rfl ht hm hrows
  obtain ⟨w, k, hw, hwc, hex⟩ := ex _ ((hop o _).trans hr)
  obtain ⟨hrc, hrf⟩ := report_good (q := (s.issueOf p i.st op).counted o) hd.res x.eng.toNat
  have hcore := raiseFlags_c (i := (s.issueOf p i.st op).counted o) (c := (s.core p).setEngine x.eng.toNat _)
    (hc.trans (congrArg Core.took (setStream_stream ((s.core p).setEngine x.eng.toNat _) i.st).symm)) rfl r'.prog.fl
  obtain ⟨hlog, hcp⟩ := reported_stream ⟨hw, (hwc.trans hrc).trans hcore⟩ (hd.zi fun _ h => by cases h) ((s.issueOf p i.st op).counted o) i.v
    x.eng.toNat n
  rw [Run.emit, hrf, hd.fx, List.append_assoc] at hex
  exact ⟨_, r'.prog.fl, hex, hlog.leftEngine, core_leftEngine hcp k⟩

/-- The tiles behind a stream's outputs, each of an accumulator of its own. -/
theorem tiled_gridOuts {fa fs : Fmt} {g : Nat → Nat → OutEl} {m w : Nat} (e : Engine)
    (h : ∀ j < m, ∀ c < w, ∀ j' < m, ∀ c' < w, (g j c).key = (g j' c').key → j = j' ∧ c = c') :
    (∀ j < m, ∀ c < w, tget 0 (s.tiled x fa fs (gridOuts g m w) e).tiles (g j c).key =
      (dotElem s.sumOrder fa fs x.pieces.toNat (if x.begin then none else some (tget 0 e.tiles (g j c).key)) (g j c).terms).1) ∧
    (∀ k, (∀ j < m, ∀ c < w, k ≠ (g j c).key) → tget 0 (s.tiled x fa fs (gridOuts g m w) e).tiles k = tget 0 e.tiles k) := by
  refine ⟨fun j hj c hc => accumulate_at _ _ _ _ _ _ (gridOuts_apart h) (mem_gridOuts.2 ⟨j, hj, c, hc, rfl⟩), fun k hk => ?_⟩
  refine accumulate_other _ _ _ _ _ _ fun o ho => ?_
  obtain ⟨j, hj, c, hc, rfl⟩ := mem_gridOuts.1 ho
  exact hk j hj c hc

/-- Output `c` of row `j` of an MSTR. -/
def mstrOut (e : Engine) (t : Nat) (row : Nat → List El) (j c : Nat) : OutEl :=
  ⟨j, c, t + j / 256, j % 256, c, (row j).zip (e.column e.k c)⟩

/-- Output `o` of row `j` of an MSTRT. -/
def mstrtOut (e : Engine) (t n : Nat) (row : Nat → List El) (j o : Nat) : OutEl :=
  ⟨j, o, t + o / 64, j, o % 64, ((row j).take n).zip (e.crossRow n o)⟩

theorem mstrOut_apart {e : Engine} {t : Nat} {row : Nat → List El} {j c j' c' : Nat} (hc : c < 64) (hc' : c' < 64)
    (h : (mstrOut e t row j c).key = (mstrOut e t row j' c').key) : j = j' ∧ c = c' := by
  simp only [OutEl.key, mstrOut, tileKey] at h
  omega

theorem mstrtOut_apart {e : Engine} {t n : Nat} {row : Nat → List El} {j o j' o' : Nat} (hj : j < 256) (hj' : j' < 256)
    (h : (mstrtOut e t n row j o).key = (mstrtOut e t n row j' o').key) : j = j' ∧ o = o' := by
  simp only [OutEl.key, mstrtOut, tileKey] at h
  omega

/-- The rows of an MSTRT lie in one tile. -/
theorem rows_of_mstrt (h : s.canIssue i (.mstrt x) p = true) : x.m1.toNat < 256 := by
  obtain ⟨-, -, -, hl, -⟩ := (canIssue_iff s i _ p).mp h
  have hl : okMstrt x = true := hl
  unfold okMstrt at hl
  split at hl
  · cases hl
  · exact of_decide_eq_true (Bool.and_eq_true_iff.1 hl).1

theorem setEngine_tiled (c : Core) (n : Nat) (fa fs : Fmt) (os : List OutEl) (e : Engine) : c.setEngine n (s.tiled x fa fs os e) =
    c.setEngine n { e with tiles := (s.tiled x fa fs os e).tiles, tileFmt := (s.tiled x fa fs os e).tileFmt } :=
  congrArg (c.setEngine n) (accumulate_only ..)

end

/-- Settles O17. -/
theorem streamedProducts : Obligations.StreamedProducts := by
  unfold Obligations.StreamedProducts
  intro s i x p op h hop e fa fs n len t0 row old dot htag hmx hp hk h256 h64 hfmt hrows
  rcases hop with rfl | rfl
  · have hlen : len = e.k := if_pos rfl
    obtain ⟨t, fl, hex, hlog, hcore⟩ := exec_stream (tr := false) (outs := fun e => mstrOuts e x.tile.toNat (x.n1.toNat + 1)) (len := fun e => e.k)
      (targets := fun _ => List.range' x.tile.toNat (x.m1.toNat / 256 + 1)) h rfl (fun _ _ => rfl) htag (tagMismatch_none htag hmx hp hk hfmt _)
      (by rw [← hlen]; exact hrows)
    rw [← hlen, setEngine_tiled] at hcore
    obtain ⟨hat, hother⟩ := tiled_gridOuts (s := s) (x := x) (fa := fa) (fs := fs) (g := mstrOut e t0 row) (m := x.m1.toNat + 1) (w := n) e
      (fun j _ c hc j' _ c' hc' => mstrOut_apart (by omega) (by omega))
    refine ⟨t, _, fl, hex, hlog, hcore, fun _ => ⟨fun j hj c hc => hat j (by omega) c hc, fun k hk => hother k fun j hj c hc => hk j (by omega) c hc⟩,
      nofun⟩
  · have hlen : len = x.n1.toNat + 1 := if_neg nofun
    have hm := rows_of_mstrt h
    obtain ⟨t, fl, hex, hlog, hcore⟩ := exec_stream (tr := true) (outs := fun e => mstrtOuts e x.tile.toNat (x.n1.toNat + 1))
      (len := fun _ => x.n1.toNat + 1) (targets := fun e => List.range' x.tile.toNat ((e.k + 63) / 64)) h rfl (fun _ _ => rfl) htag
      (tagMismatch_none htag hmx hp hk hfmt _) (by rw [← hlen]; exact hrows)
    rw [← hlen, setEngine_tiled] at hcore
    obtain ⟨hat, hother⟩ := tiled_gridOuts (s := s) (x := x) (fa := fa) (fs := fs) (g := mstrtOut e t0 n row) (m := x.m1.toNat + 1) (w := e.k) e
      (fun j hj o _ j' hj' o' _ => mstrtOut_apart (by omega) (by omega))
    refine ⟨t, _, fl, hex, hlog, hcore, nofun, fun _ => ⟨fun j hj o ho => hat j (by omega) o ho, fun k hk => hother k fun j hj o ho => hk j (by omega) o ho⟩⟩

end Sys2Proof.Machine
end
